-- ==== Sys2Proof/Word.lean ====
section
/-!
DEFINITION. The word types of the model and their plainest arithmetic (R3: registers are 64 bits wide, little-endian).
-/
namespace Sys2Proof

/-- A register or scalar word of 64 bits (R3). -/
abbrev Word := BitVec 64

/-- A byte. -/
abbrev Byte := BitVec 8

/-- The `n` bits of `x` from bit `lo` up, as a number. -/
def bits (x lo n : Nat) : Nat := (x >>> lo) % 2 ^ n

/-- `x` with its `n` bits from bit `lo` up replaced by `v` (taken modulo `2 ^ n`). -/
def setBits (x lo n v : Nat) : Nat :=
  x - (bits x lo n) <<< lo + (v % 2 ^ n) <<< lo

end Sys2Proof
end

