-- ==== Sys2Proof/Syntax.lean ====
section
/-!
DEFINITION. The commands of the block: one constructor of `Instr` per row of spec/opcode_table.json, with the row's operands, and
the types the operands are written in (packets of Table 10-7, flits of Table 10-5, capability blocks of Table 10-4, the
places of Tables 0-3 and 1-9, and what the environment decides in an event: read data, measurements, test results).
-/
namespace Sys2Proof

/-- A quarter Q0 to Q3 (Table 0-3). -/
abbrev Quarter := Fin 4
/-- A stack S0 to S15 (Table 0-3). -/
abbrev Stack := Fin 16
/-- A port index p: FP0 to FP11, TL0 = 12, TL1 = 13 (R2). -/
abbrev Port := Fin 14
/-- An arrival port: 0 to 13, or 15 for a packet of the device's own engines (R416); 14 names no port. -/
abbrev Arr := Fin 16
/-- A context (Table 0-1). -/
abbrev Ctx := Fin 4096
/-- A loom (R235). -/
abbrev Loom := Fin 64
/-- A version region (R78). -/
abbrev Region := Fin 4096
/-- A check-value unit (R361). -/
abbrev ChkUnit := Fin 8
/-- An interrupt group (R352). -/
abbrev Group := Fin 32

/-- A station site: its quarter and its number 0 to 323 in it (Table 1-3). -/
structure SiteId where
  q : Fin 4
  i : Fin 324
  deriving DecidableEq, Repr

/-- A read of a local-store word that finds bad bits (R181): the site, the word, and whether two bits are bad or one. -/
structure LsRead where
  site : SiteId
  word : BitVec 18
  two : Bool
  deriving DecidableEq, Repr

/-- Status codes of Table 0-5 (R6). -/
inductive Status where
  | ok | alreadyComplete | busy | inTransition | conflict | seqRetry | partialFail | poison | revoked | faultTimeout
  | accessDenied | noRoute | linkLost
  deriving DecidableEq, Repr

/-- The 4-bit encoding of a status (Table 0-5). -/
def Status.code : Status → Nat
  | .ok => 0 | .alreadyComplete => 1 | .busy => 2 | .inTransition => 3 | .conflict => 4 | .seqRetry => 5
  | .partialFail => 6 | .poison => 7 | .revoked => 8 | .faultTimeout => 9 | .accessDenied => 10 | .noRoute => 11
  | .linkLost => 12

/-- Who makes a configuration access: the host over TL0 or TL1, the management sideband (R312), the firmware of a management
core, or an entry of the configuration image (R404). -/
inductive Writer where
  | tl0 | tl1 | sideband | coreQ0 | coreQ3 | image
  deriving DecidableEq, Repr

/-- A packet: the header fields of Table 10-7 (R281) and its payload. Words 3 and 4, whose use depends on TYPE, are kept whole.
`rsvd` says whether a reserved field was sent non-zero. -/
structure Packet where
  dst : BitVec 20 := 0
  src : BitVec 20 := 0
  typ : BitVec 8 := 0
  vc : BitVec 3 := 0
  epoch : Bool := false
  ndata : BitVec 4 := 0
  inl : BitVec 2 := 0
  mc : Bool := false
  hops : BitVec 5 := 0
  addr : BitVec 64 := 0
  tag : BitVec 16 := 0
  ch : BitVec 3 := 0
  len : BitVec 19 := 0
  off : BitVec 19 := 0
  last : Bool := false
  fold : Bool := false
  phint : BitVec 2 := 0
  w3 : BitVec 64 := 0
  w4 : BitVec 64 := 0
  payload : List (BitVec 8) := []
  rsvd : Bool := false
  deriving DecidableEq, Repr

/-- A capability block (Table 10-4, R268). -/
structure CapBlock where
  deviceId : BitVec 64
  port : BitVec 4
  ver : BitVec 8
  cfg : Bool
  lr : Bool
  w4 : Bool
  ptp : Bool
  incarn : BitVec 16
  alloc : BitVec 64
  nextSeq : BitVec 12
  rsync : Bool
  free0 : BitVec 64
  free1 : BitVec 64
  deriving DecidableEq, Repr

/-- The body of a flit (R270, R271): the first flit of a packet with its header, a data flit of one, an AUDIT body, an LCTL
subtype with its cause byte, a CAP, an ECHO, or nothing (NULL). -/
inductive FlitBody where
  | header (k : Packet)
  | data (bytes : List (BitVec 8))
  | audit (counts : List Nat)
  | lctl (sub : BitVec 8) (cause : BitVec 8)
  | cap (c : CapBlock)
  | echo (t1 : BitVec 64) (turn : Option (BitVec 64))
  | null
  deriving DecidableEq, Repr

/-- A flit with the fields of its control word (Table 10-5, R270) and its body. -/
structure Flit where
  seq : BitVec 12
  ack : BitVec 12
  ackv : Bool
  vc : BitVec 3
  sop : Bool
  eop : Bool
  crvc : BitVec 3
  crcnt : BitVec 8
  blen : BitVec 2
  body : FlitBody
  deriving DecidableEq, Repr

/-- What the lanes of a port gave in steps 1 to 3 of a full training (Table 10-3): which lanes passed, their margins, and the
CAP the partner sent, if a valid one came (step 5). -/
structure TrainResult where
  lanes : BitVec 8
  margins : BitVec 64
  cap : Option CapBlock
  deriving DecidableEq, Repr

/-- What a run of the receiver's FEC saw in one flit: symbols corrected, whether a codeword was beyond correction, and whether
the flit's CRC held (R263, R270). -/
structure RxCheck where
  corr : Nat
  uncorr : Bool
  crcOk : Bool
  deriving DecidableEq, Repr

/-- One sample the event recorder takes (the sampled kinds of Table 14-10, R367). -/
inductive Sample where
  | stkTemp (s : Stack) (celsius : Nat)
  | supply (mv : List Nat) (input10mv : Nat)
  | power (watts : Nat)
  deriving DecidableEq, Repr

/-- What wakes the device (R31). -/
inductive WakeCause where
  | packet (p : Port)
  | thrumlink (p : Port)
  | source (n : Fin 1024)
  | sideband
  deriving DecidableEq, Repr

/-- A stored symbol that has changed: where its line is held, in a frame of a stack or in the fold slot of that frame, which of the 72 symbols of the
line code, and by what (R146, R159). -/
structure Flip where
  slot : Bool := false
  x : Fin 16
  page : BitVec 21
  line : Fin 1024
  sym : Fin 72
  v : BitVec 8
  deriving DecidableEq, Repr

/-- What the cells have come to hold when an access or a walk reads them. -/
structure ReadErr where
  flips : List Flip := []
  deriving DecidableEq, Repr

/-- Which of the three copies of a metadata line a read finds failed (R152). -/
structure CopyErr where
  c0 : Bool
  c1 : Bool
  c2 : Bool
  deriving DecidableEq, Repr

/-- The results of a stack's start-up training (Table 5-4). -/
structure StackTrain where
  answers : Bool
  dies : Nat
  gib : Nat
  temp : Nat
  initOk : Bool
  failed : BitVec 32
  lanesRep : Nat
  margin : Nat
  timings : Option (BitVec 64 × BitVec 64 × BitVec 64)
  deriving DecidableEq, Repr

/-- What a training pass in service gives: the stack temperature, the channels that failed it, the margin found (R135). -/
structure TrainPass where
  temp : Nat
  failed : BitVec 32
  margin : Nat
  deriving DecidableEq, Repr

/-- Instructions of the test access port (R397): the four of IEEE 1149.1, and any other by its code. -/
inductive TapCode where
  | bypass | idcode | samplePreload | extest
  | other (code : BitVec 8)
  deriving DecidableEq, Repr

/-- How a quarter's return went (R409): whether it succeeded, the first failing self-test of each of its four controllers (0 = passed),
and the temperatures of its stacks. -/
structure QuarterUp where
  ok : Bool
  tests : List Nat
  temps : List Nat
  deriving DecidableEq, Repr

/-- The commands of the block, in the order of spec/opcode_table.json. -/
inductive Instr where

  /-- REGISTER_WRITE (R4). -/
  | registerWrite (w : Writer) (off : BitVec 26) (v : BitVec 64)
  /-- COUNTER_READ_CLEAR (R4). -/
  | counterReadClear (w : Writer) (off : BitVec 26)
  /-- RWL_WRITE (R4). -/
  | rwlWrite (w : Writer) (off : BitVec 26) (v : BitVec 64)
  /-- BRIDGE_RETRAIN_FAILURE (R12). -/
  | bridgeRetrainFailure (b : Fin 4)
  /-- WAKE_TRIGGER (R31). -/
  | wakeTrigger (c : WakeCause)
  /-- XLT_CTX_BIND_WRITE (R36). -/
  | xltCtxBindWrite (w : Writer) (c : Ctx) (v : BitVec 64)
  /-- XLT_SEG_ATTR_WRITE (R37). -/
  | xltSegAttrWrite (w : Writer) (c : Ctx) (g : Fin 8) (v : BitVec 64)
  /-- EXT_READ (R43). -/
  | extRead (w : Writer)
  /-- EXT_WRITE (R43). -/
  | extWrite (w : Writer)
  /-- WALK_START (R48). -/
  | walkStart (q : Quarter)
  /-- WALK_END (R50). -/
  | walkEnd (q : Quarter) (n : Fin 32) (bad : CopyErr)
  /-- FAULT_ENTRY_ALLOCATE (R53). -/
  | faultEntryAllocate (q : Quarter)
  /-- FAULT_RECORD_WRITE (R53). -/
  | faultRecordWrite (q : Quarter)
  /-- RESUME_RETRY (R54). -/
  | resumeRetry (w : Writer) (fid : BitVec 16)
  /-- RESUME_FAIL (R54). -/
  | resumeFail (w : Writer) (fid : BitVec 16)
  /-- FAULT_TIMEOUT (R55). -/
  | faultTimeout (q : Quarter) (e : Fin 128)
  /-- REVOKE_UNMAP (R57). -/
  | revokeUnmap (w : Writer) (c : Ctx) (g : Fin 8) (tag : BitVec 16)
  /-- REVOKE_REMAP (R57). -/
  | revokeRemap (w : Writer) (c : Ctx) (g : Fin 8) (tag : BitVec 16)
  /-- REVOKE_PROTECT (R57). -/
  | revokeProtect (w : Writer) (c : Ctx) (g : Fin 8) (tag : BitVec 16)
  /-- REVOKE_SEGMENT (R57). -/
  | revokeSegment (w : Writer) (c : Ctx) (g : Fin 8) (tag : BitVec 16)
  /-- REVOKE_CONTEXT (R57). -/
  | revokeContext (w : Writer) (c : Ctx) (tag : BitVec 16)
  /-- REVOKE_START (R58). -/
  | revokeStart (c : Ctx)
  /-- REVOKE_DRAIN_END (R58). -/
  | revokeDrainEnd (c : Ctx)
  /-- RD (R34). -/
  | rd (p : Arr) (k : Packet)
  /-- WR (R34). -/
  | wr (p : Arr) (k : Packet)
  /-- POOL_PIECE_COMPLETE (R73). -/
  | poolPieceComplete (id : Nat) (n : Nat)
  /-- RDATA (R282). -/
  | rdata (p : Arr) (k : Packet)
  /-- CMPL_PACKET (R282). -/
  | cmplPacket (p : Arr) (k : Packet)
  /-- ABORT (R75). -/
  | abort (p : Arr) (k : Packet)
  /-- HINT (R138). -/
  | hint (p : Arr) (k : Packet)
  /-- VOP_OPEN (R80). -/
  | vopOpen (p : Arr) (k : Packet)
  /-- VOP_CLOSE (R81). -/
  | vopClose (p : Arr) (k : Packet)
  /-- VOP_BEGIN (R80). -/
  | vopBegin (p : Arr) (k : Packet)
  /-- VOP_PUBLISH (R83). -/
  | vopPublish (p : Arr) (k : Packet)
  /-- VOP_DISCARD (R80). -/
  | vopDiscard (p : Arr) (k : Packet)
  /-- VRD (R82). -/
  | vrd (p : Arr) (k : Packet)
  /-- VWR (R82). -/
  | vwr (p : Arr) (k : Packet)
  /-- PUBLISH_COMMIT (R83). -/
  | publishCommit (id : Nat)
  /-- VERSION_LEASE_EXPIRY (R81). -/
  | versionLeaseExpiry (r : Region) (n : Fin 16)
  /-- XLT_VER_RGN_ID_WRITE (R78). -/
  | xltVerRgnIdWrite (w : Writer) (r : Region) (v : BitVec 64)
  /-- FORCE_CLOSE (R81). -/
  | forceClose (w : Writer) (r : Region) (n : Fin 16)
  /-- DISCARD_PENDING_SLOT (R90). -/
  | discardPendingSlot (w : Writer) (r : Region) (n : Fin 16)
  /-- DESTROY_REGION (R87). -/
  | destroyRegion (w : Writer) (r : Region)
  /-- MOV_CH_CTX_WRITE (R92). -/
  | movChCtxWrite (w : Writer) (q : Quarter) (k : Fin 16) (v : BitVec 64)
  /-- MOV_CH_START (R92). -/
  | movChStart (w : Writer) (q : Quarter) (k : Fin 16) (h : BitVec 64)
  /-- DESCRIPTOR_FETCH (R94). -/
  | descriptorFetch (q : Quarter) (k : Fin 16)
  /-- DESCRIPTOR_COMPLETE (R94). -/
  | descriptorComplete (q : Quarter) (k : Fin 16)
  /-- MOVER_RESUME (R95). -/
  | moverResume (w : Writer) (q : Quarter) (k : Fin 16)
  /-- MOVER_RETRY (R95). -/
  | moverRetry (w : Writer) (q : Quarter) (k : Fin 16)
  /-- MOVER_STOP (R95). -/
  | moverStop (w : Writer) (q : Quarter) (k : Fin 16)
  /-- MOVER_STOP_END (R95). -/
  | moverStopEnd (q : Quarter) (k : Fin 16)
  /-- RDSHARED (R415). -/
  | rdshared (p : Arr) (k : Packet)
  /-- RDOWN (R415). -/
  | rdown (p : Arr) (k : Packet)
  /-- UPGRADE (R415). -/
  | upgrade (p : Arr) (k : Packet)
  /-- EVCLEAN (R105). -/
  | evclean (p : Port) (k : Packet)
  /-- WBDIRTY (R105). -/
  | wbdirty (p : Port) (k : Packet)
  /-- RSPI (R109). -/
  | rspi (p : Port) (k : Packet)
  /-- RSPDATA (R109). -/
  | rspdata (p : Port) (k : Packet)
  /-- RSPOK (R109). -/
  | rspok (p : Port) (k : Packet)
  /-- STASHACK (R106). -/
  | stashack (p : Port) (k : Packet)
  /-- STASHREF (R106). -/
  | stashref (p : Port) (k : Packet)
  /-- BINV (R102). -/
  | binv (p : Port) (k : Packet)
  /-- BACK (R102). -/
  | back (p : Port) (k : Packet)
  /-- DEAD (R112). -/
  | dead (p : Port) (k : Packet)
  /-- SNOOP_TIMEOUT (R112). -/
  | snoopTimeout (a : Fin 512) (lid : BitVec 64)
  /-- BACK_TIMEOUT (R102). -/
  | backTimeout (n : Fin 8) (lid : BitVec 64)
  /-- PEER_ROUTE_LOSS (R112). -/
  | peerRouteLoss (n : Fin 8)
  /-- COH_DEAD_CMD (R112). -/
  | cohDeadCmd (w : Writer) (a : Fin 512)
  /-- COH_AGENT_WRITE (R113). -/
  | cohAgentWrite (w : Writer) (a : Fin 512) (v : BitVec 64)
  /-- RECLAIM_SWEEP_END (R113). -/
  | reclaimSweepEnd (q : Quarter)
  /-- POISON_LIST_WRITE (R114). -/
  | poisonListWrite
  /-- STACK_REQUEST_ARRIVAL (R122). -/
  | stackRequestArrival (x : Stack) (k : Fin 8) (e : ReadErr)
  /-- COLUMN_COMMAND_ISSUE (R124). -/
  | columnCommandIssue (x : Stack) (ch : Fin 32) (e : ReadErr)
  /-- ROW_COMMAND_ISSUE (R125). -/
  | rowCommandIssue (x : Stack) (ch : Fin 32)
  /-- IDLE_CLOSE (R126). -/
  | idleClose (x : Stack) (ch : Fin 32) (b : Fin 32)
  /-- REFRESH_DUE (R130). -/
  | refreshDue (x : Stack) (ch : Fin 32) (b : Fin 32)
  /-- ROW_HAMMER_CLEAR (R132). -/
  | rowHammerClear (x : Stack) (ch : Fin 32) (b : Fin 32)
  /-- STACK_TRAINING_END (R134). -/
  | stackTrainingEnd (x : Stack) (r : StackTrain)
  /-- PERIODIC_RETRAIN (R135). -/
  | periodicRetrain (x : Stack) (r : TrainPass)
  /-- TEMP_DRIFT_RETRAIN (R135). -/
  | tempDriftRetrain (x : Stack) (r : TrainPass)
  /-- TRAINING_START_CMD (R135). -/
  | trainingStartCmd (w : Writer) (x : Stack) (r : TrainPass)
  /-- SELF_REFRESH_ENTRY (R136). -/
  | selfRefreshEntry (x : Stack)
  /-- SELF_REFRESH_EXIT (R137). -/
  | selfRefreshExit (x : Stack)
  /-- SELF_REFRESH_EXIT_END (R137). -/
  | selfRefreshExitEnd (x : Stack) (temp : Nat)
  /-- PLACEMENT_DECAY (R138). -/
  | placementDecay (x : Stack)
  /-- PLACEMENT_SCAN (R139). -/
  | placementScan (w : Writer) (x : Stack) (cls : Fin 4) (max : BitVec 21)
  /-- SCAN_ENTRY_WRITE (R139). -/
  | scanEntryWrite (x : Stack)
  /-- SCAN_END (R139). -/
  | scanEnd (x : Stack)
  /-- MIGRATION_CMD (R141). -/
  | migrationCmd (w : Writer) (x : Stack) (extCount : BitVec 17) (tag : BitVec 16)
  /-- MIGRATION_COPY_END (R141). -/
  | migrationCopyEnd (x : Stack) (k : Fin 4) (lost : ReadErr)
  /-- MIGRATION_REMAP_ISSUE (R141). -/
  | migrationRemapIssue (c : Ctx) (g : Fin 8)
  /-- CODE_REBUILD (R157). -/
  | codeRebuild (x : Stack) (lost : ReadErr)
  /-- FOLD_AGE_FLUSH (R160). -/
  | foldAgeFlush (x : Stack) (lost : ReadErr)
  /-- CHANNEL_RELOCATION_END (R154). -/
  | channelRelocationEnd (x : Stack)
  /-- REBUILD_START (R165). -/
  | rebuildStart (w : Writer) (x : Stack)
  /-- AUTO_REBUILD (R165). -/
  | autoRebuild (x : Stack)
  /-- REBUILD_UNIT_END (R165). -/
  | rebuildUnitEnd (x : Stack) (lost : ReadErr)
  /-- SCRUB_PAGE (R167). -/
  | scrubPage (x : Stack) (e : ReadErr)
  /-- SCRUB_BATCH (R167). -/
  | scrubBatch (x : Stack)
  /-- SCRUB_START (R167). -/
  | scrubStart (w : Writer) (x : Stack)
  /-- BUCKET_LEAK (R168). -/
  | bucketLeak (x : Stack)
  /-- LOCAL_STORE_DOUBLE_ERROR (R181). -/
  | localStoreDoubleError (st : LsRead)
  /-- WEFT_FLIT_RECEIVE (R182). -/
  | weftFlitReceive (x : SiteId) (port : Fin 5) (bad : Bool)
  /-- SITE_DOMAIN_FAULT (R194). -/
  | siteDomainFault (st : SiteId)
  /-- FENCE_DRAIN_END (R195). -/
  | fenceDrainEnd (st : SiteId)
  /-- FENCE_CMD (R194). -/
  | fenceCmd (w : Writer) (q : Quarter) (site : BitVec 9)
  /-- SELFTEST_CMD (R197). -/
  | selftestCmd (w : Writer) (q : Quarter) (site : BitVec 9)
  /-- RETIRE_CMD (R197). -/
  | retireCmd (w : Writer) (q : Quarter) (site : BitVec 9)
  /-- SELFTEST_END (R197). -/
  | selftestEnd (st : SiteId) (first : Fin 7)
  /-- ICACHE_REFILL (R177). -/
  | icacheRefill (st : SiteId)
  /-- ADD (R208). -/
  | add (st : SiteId) (w : BitVec 54)
  /-- SUB (R208). -/
  | sub (st : SiteId) (w : BitVec 54)
  /-- AND (R208). -/
  | and (st : SiteId) (w : BitVec 54)
  /-- OR (R208). -/
  | or (st : SiteId) (w : BitVec 54)
  /-- XOR (R208). -/
  | xor (st : SiteId) (w : BitVec 54)
  /-- SHL (R208). -/
  | shl (st : SiteId) (w : BitVec 54)
  /-- SHR (R208). -/
  | shr (st : SiteId) (w : BitVec 54)
  /-- SRA (R208). -/
  | sra (st : SiteId) (w : BitVec 54)
  /-- MUL (R208). -/
  | mul (st : SiteId) (w : BitVec 54)
  /-- MULHU (R208). -/
  | mulhu (st : SiteId) (w : BitVec 54)
  /-- MIN (R208). -/
  | min (st : SiteId) (w : BitVec 54)
  /-- MAX (R208). -/
  | max (st : SiteId) (w : BitVec 54)
  /-- MINU (R208). -/
  | minu (st : SiteId) (w : BitVec 54)
  /-- MAXU (R208). -/
  | maxu (st : SiteId) (w : BitVec 54)
  /-- ADDI (R208). -/
  | addi (st : SiteId) (w : BitVec 54)
  /-- ANDI (R208). -/
  | andi (st : SiteId) (w : BitVec 54)
  /-- ORI (R208). -/
  | ori (st : SiteId) (w : BitVec 54)
  /-- XORI (R208). -/
  | xori (st : SiteId) (w : BitVec 54)
  /-- SHLI (R208). -/
  | shli (st : SiteId) (w : BitVec 54)
  /-- SHRI (R208). -/
  | shri (st : SiteId) (w : BitVec 54)
  /-- SRAI (R208). -/
  | srai (st : SiteId) (w : BitVec 54)
  /-- MOVI (R208). -/
  | movi (st : SiteId) (w : BitVec 54)
  /-- MOVHI (R208). -/
  | movhi (st : SiteId) (w : BitVec 54)
  /-- CMP (R208). -/
  | cmp (st : SiteId) (w : BitVec 54)
  /-- CMPI (R208). -/
  | cmpi (st : SiteId) (w : BitVec 54)
  /-- PAND (R208). -/
  | pand (st : SiteId) (w : BitVec 54)
  /-- POR (R208). -/
  | por (st : SiteId) (w : BitVec 54)
  /-- PXOR (R208). -/
  | pxor (st : SiteId) (w : BitVec 54)
  /-- PNOT (R208). -/
  | pnot (st : SiteId) (w : BitVec 54)
  /-- MOV_PS (R208). -/
  | movPs (st : SiteId) (w : BitVec 54)
  /-- MOV_SP (R208). -/
  | movSp (st : SiteId) (w : BitVec 54)
  /-- BR (R209). -/
  | br (st : SiteId) (w : BitVec 54)
  /-- JAL (R209). -/
  | jal (st : SiteId) (w : BitVec 54)
  /-- JR (R209). -/
  | jr (st : SiteId) (w : BitVec 54)
  /-- LDS (R210). -/
  | lds (st : SiteId) (w : BitVec 54)
  /-- LDW (R210). -/
  | ldw (st : SiteId) (w : BitVec 54)
  /-- STS (R210). -/
  | sts (st : SiteId) (w : BitVec 54)
  /-- STW (R210). -/
  | stw (st : SiteId) (w : BitVec 54)
  /-- LDV (R210). -/
  | ldv (st : SiteId) (w : BitVec 54)
  /-- STV (R210). -/
  | stv (st : SiteId) (w : BitVec 54)
  /-- LDV_H (R210). -/
  | ldvH (st : SiteId) (w : BitVec 54)
  /-- STV_H (R210). -/
  | stvH (st : SiteId) (w : BitVec 54)
  /-- VADD (R211). -/
  | vadd (st : SiteId) (w : BitVec 54)
  /-- VSUB (R211). -/
  | vsub (st : SiteId) (w : BitVec 54)
  /-- VMUL (R211). -/
  | vmul (st : SiteId) (w : BitVec 54)
  /-- VFMA (R211). -/
  | vfma (st : SiteId) (w : BitVec 54)
  /-- VMAX (R211). -/
  | vmax (st : SiteId) (w : BitVec 54)
  /-- VMIN (R211). -/
  | vmin (st : SiteId) (w : BitVec 54)
  /-- VABS (R211). -/
  | vabs (st : SiteId) (w : BitVec 54)
  /-- VNEG (R211). -/
  | vneg (st : SiteId) (w : BitVec 54)
  /-- VRCP (R211). -/
  | vrcp (st : SiteId) (w : BitVec 54)
  /-- VRSQRT (R211). -/
  | vrsqrt (st : SiteId) (w : BitVec 54)
  /-- VEXP2 (R211). -/
  | vexp2 (st : SiteId) (w : BitVec 54)
  /-- VCMP (R211). -/
  | vcmp (st : SiteId) (w : BitVec 54)
  /-- VSEL (R211). -/
  | vsel (st : SiteId) (w : BitVec 54)
  /-- VBCAST (R211). -/
  | vbcast (st : SiteId) (w : BitVec 54)
  /-- VEXT (R211). -/
  | vext (st : SiteId) (w : BitVec 54)
  /-- VLANE (R211). -/
  | vlane (st : SiteId) (w : BitVec 54)
  /-- VREDSUM (R212). -/
  | vredsum (st : SiteId) (w : BitVec 54)
  /-- VREDMAX (R212). -/
  | vredmax (st : SiteId) (w : BitVec 54)
  /-- VAND (R211). -/
  | vand (st : SiteId) (w : BitVec 54)
  /-- VOR (R211). -/
  | vor (st : SiteId) (w : BitVec 54)
  /-- VXOR (R211). -/
  | vxor (st : SiteId) (w : BitVec 54)
  /-- VSHL (R211). -/
  | vshl (st : SiteId) (w : BitVec 54)
  /-- VSHR (R211). -/
  | vshr (st : SiteId) (w : BitVec 54)
  /-- VCVT (R213). -/
  | vcvt (st : SiteId) (w : BitVec 54)
  /-- MMA (R216). -/
  | mma (st : SiteId) (w : BitVec 54)
  /-- MMAZ (R216). -/
  | mmaz (st : SiteId) (w : BitVec 54)
  /-- MMA_END (R217). -/
  | mmaEnd (st : SiteId)
  /-- ACCZERO (R217). -/
  | acczero (st : SiteId) (w : BitVec 54)
  /-- ACCST (R218). -/
  | accst (st : SiteId) (w : BitVec 54)
  /-- VACC (R217). -/
  | vacc (st : SiteId) (w : BitVec 54)
  /-- VACCW (R217). -/
  | vaccw (st : SiteId) (w : BitVec 54)
  /-- WSEND (R219). -/
  | wsend (st : SiteId) (w : BitVec 54)
  /-- WRECV (R220). -/
  | wrecv (st : SiteId) (w : BitVec 54)
  /-- WSEND_S (R219). -/
  | wsendS (st : SiteId) (w : BitVec 54)
  /-- WRECV_S (R220). -/
  | wrecvS (st : SiteId) (w : BitVec 54)
  /-- PGET (R221). -/
  | pget (st : SiteId) (w : BitVec 54)
  /-- PPUT (R221). -/
  | pput (st : SiteId) (w : BitVec 54)
  /-- PGET_V (R221). -/
  | pgetV (st : SiteId) (w : BitVec 54)
  /-- PPUT_V (R221). -/
  | pputV (st : SiteId) (w : BitVec 54)
  /-- PVER_OPEN (R221). -/
  | pverOpen (st : SiteId) (w : BitVec 54)
  /-- PVER_CLOSE (R221). -/
  | pverClose (st : SiteId) (w : BitVec 54)
  /-- PVER_BEGIN (R221). -/
  | pverBegin (st : SiteId) (w : BitVec 54)
  /-- PVER_PUBLISH (R221). -/
  | pverPublish (st : SiteId) (w : BitVec 54)
  /-- PVER_DISCARD (R221). -/
  | pverDiscard (st : SiteId) (w : BitVec 54)
  /-- PABORT (R224). -/
  | pabort (st : SiteId) (w : BitVec 54)
  /-- PHINT (R221). -/
  | phint (st : SiteId) (w : BitVec 54)
  /-- CVT_HDL (R225). -/
  | cvtHdl (st : SiteId) (w : BitVec 54)
  /-- CVT_HVA (R225). -/
  | cvtHva (st : SiteId) (w : BitVec 54)
  /-- TICKET_COMPLETE (R223). -/
  | ticketComplete (st : SiteId)
  /-- REFUSAL_RESEND (R223). -/
  | refusalResend (st : SiteId) (ch : Fin 8)
  /-- NOP (R226). -/
  | nop (st : SiteId) (w : BitVec 54)
  /-- PWAIT (R226). -/
  | pwait (st : SiteId) (w : BitVec 54)
  /-- PWAIT_CH (R226). -/
  | pwaitCh (st : SiteId) (w : BitVec 54)
  /-- PRES (R226). -/
  | pres (st : SiteId) (w : BitVec 54)
  /-- PINFO (R226). -/
  | pinfo (st : SiteId) (w : BitVec 54)
  /-- WAIT (R226). -/
  | wait (st : SiteId) (w : BitVec 54)
  /-- BEAT (R227). -/
  | beat (st : SiteId) (w : BitVec 54)
  /-- CMPL (R247). -/
  | cmpl (st : SiteId) (w : BitVec 54)
  /-- HALT (R247). -/
  | halt (st : SiteId) (w : BitVec 54)
  /-- SYSR (R226). -/
  | sysr (st : SiteId) (w : BitVec 54)
  /-- OSM_INIT (R228). -/
  | osmInit (st : SiteId) (w : BitVec 54)
  /-- OSM_UPD (R228). -/
  | osmUpd (st : SiteId) (w : BitVec 54)
  /-- OSM_SCALE (R228). -/
  | osmScale (st : SiteId) (w : BitVec 54)
  /-- OSM_FIN (R228). -/
  | osmFin (st : SiteId) (w : BitVec 54)
  /-- TMASK (R229). -/
  | tmask (st : SiteId) (w : BitVec 54)
  /-- VTOPK (R230). -/
  | vtopk (st : SiteId) (w : BitVec 54)
  /-- SAMPLE (R230). -/
  | sample (st : SiteId) (w : BitVec 54)
  /-- RNG (R231). -/
  | rng (st : SiteId) (w : BitVec 54)
  /-- RNGS (R231). -/
  | rngs (st : SiteId) (w : BitVec 54)
  /-- TRAP (R232). -/
  | trap (st : SiteId) (word : BitVec 64)
  /-- LOOM_LOAD (R237). -/
  | loomLoad (w : Writer) (n : Loom)
  /-- LOOM_LOAD_END (R237). -/
  | loomLoadEnd (n : Loom)
  /-- LOOM_RESET (R238). -/
  | loomReset (w : Writer) (n : Loom)
  /-- LOOM_PAUSE (R238). -/
  | loomPause (w : Writer) (n : Loom)
  /-- LOOM_RESUME (R238). -/
  | loomResume (w : Writer) (n : Loom)
  /-- CALL (R245). -/
  | call (p : Arr) (k : Packet)
  /-- CALL_START (R246). -/
  | callStart (n : Loom) (d : Fin 16)
  /-- CHAINED_CALL_SEND (R248). -/
  | chainedCallSend (n : Loom)
  /-- PAUSE_WAIT_EXPIRY (R257). -/
  | pauseWaitExpiry (n : Loom)
  /-- MEND_START (R258). -/
  | mendStart (st : SiteId)
  /-- MEND_COMPLETE (R258). -/
  | mendComplete (st : SiteId)
  /-- WEFT_STALL (R243). -/
  | weftStall (st : SiteId) (port : Fin 5)
  /-- PORT_CTL_WRITE (R280). -/
  | portCtlWrite (w : Writer) (p : Port) (v : BitVec 64)
  /-- PORT_CRD_CFG_WRITE (R277). -/
  | portCrdCfgWrite (w : Writer) (p : Port) (v : BitVec 64)
  /-- PORT_RETRAIN_CMD (R279). -/
  | portRetrainCmd (w : Writer) (p : Port)
  /-- PORT_DOWN_CMD (R280). -/
  | portDownCmd (w : Writer) (p : Port)
  /-- PORT_TRAIN_CMD (R266). -/
  | portTrainCmd (w : Writer) (p : Port)
  /-- TRAINING_START (R266). -/
  | trainingStart (p : Port)
  /-- TRAINING_END (R266). -/
  | trainingEnd (p : Port) (r : TrainResult)
  /-- CAP (R268). -/
  | cap (p : Port) (c : CapBlock)
  /-- ECHO (R267). -/
  | echo (p : Port) (t1 : BitVec 64) (turn : Option (BitVec 64))
  /-- BEACON_BURST (R269). -/
  | beaconBurst (p : Port)
  /-- FLIT_RECEIVE (R272). -/
  | flitReceive (p : Port) (f : Flit) (r : RxCheck)
  /-- REPLAY_TIMEOUT (R275). -/
  | replayTimeout (p : Port)
  /-- AUDIT_SEND (R278). -/
  | auditSend (p : Port)
  /-- AUDIT (R278). -/
  | audit (p : Port) (counts : List Nat)
  /-- LEAK_RETRAIN (R278). -/
  | leakRetrain (p : Port)
  /-- LEAK_RETRAIN_FORCE (R278). -/
  | leakRetrainForce (p : Port)
  /-- RETRAIN_REQ (R279). -/
  | retrainReq (p : Port)
  /-- RETRAIN_END (R279). -/
  | retrainEnd (p : Port) (c : CapBlock)
  /-- RETRAIN_TIMEOUT (R279). -/
  | retrainTimeout (p : Port)
  /-- LOSS_RETRAIN (R280). -/
  | lossRetrain (p : Port)
  /-- LOSS_DOWN (R280). -/
  | lossDown (p : Port)
  /-- DOWN_NOTICE (R280). -/
  | downNotice (p : Port)
  /-- SLEEP_REQ (R283). -/
  | sleepReq (p : Port)
  /-- SLEEP_ACK (R283). -/
  | sleepAck (p : Port)
  /-- SLEEP_NAK (R283). -/
  | sleepNak (p : Port)
  /-- WAKE_BURST (R284). -/
  | wakeBurst (p : Port)
  /-- WAKE_BURST_DETECT (R284). -/
  | wakeBurstDetect (p : Port)
  /-- HUB_FORWARD (R287). -/
  | hubForward (p : Port) (vc : Fin 8)
  /-- EGRESS_START (R302). -/
  | egressStart (p : Port)
  /-- GATE_ENTRY_END (R303). -/
  | gateEntryEnd (p : Port)
  /-- ROUTE_READ (R290). -/
  | routeRead (w : Writer)
  /-- ROUTE_WRITE (R290). -/
  | routeWrite (w : Writer)
  /-- ROUTE_CLEAR (R292). -/
  | routeClear (w : Writer)
  /-- ROUTE_COPY (R292). -/
  | routeCopy (w : Writer)
  /-- ROUTE_OP_END (R292). -/
  | routeOpEnd
  /-- FLIP (R293). -/
  | flip (w : Writer)
  /-- RECHECK (R293). -/
  | recheck (w : Writer)
  /-- DRAIN_DETECT (R293). -/
  | drainDetect
  /-- DRAIN_TIMEOUT (R293). -/
  | drainTimeout
  /-- AUTO_ALT_FAILOVER (R294). -/
  | autoAltFailover (p : Port)
  /-- GROUP_READ (R296). -/
  | groupRead (w : Writer)
  /-- GROUP_WRITE (R296). -/
  | groupWrite (w : Writer)
  /-- MWR (R297). -/
  | mwr (p : Port) (k : Packet)
  /-- MCALL (R297). -/
  | mcall (p : Port) (k : Packet)
  /-- MREP (R297). -/
  | mrep (p : Port) (k : Packet)
  /-- MULTICAST_REPORT_SEND (R297). -/
  | multicastReportSend (rid : Fin 1024)
  /-- MC_BRANCH_TIMEOUT (R297). -/
  | mcBranchTimeout (rid : Fin 1024) (p : Port)
  /-- SYNC (R300). -/
  | sync (p : Port) (k : Packet)
  /-- FOLLOW_UP (R300). -/
  | followUp (p : Port) (k : Packet)
  /-- SYNC_SEND (R299). -/
  | syncSend (p : Port)
  /-- TIME_SET (R300). -/
  | timeSet (w : Writer) (v : BitVec 64)
  /-- PORT_Q_CFG_WRITE (R304). -/
  | portQCfgWrite (w : Writer) (p : Port) (q : Fin 512) (v : BitVec 64)
  /-- HUB_POL_CFG_WRITE (R305). -/
  | hubPolCfgWrite (w : Writer) (c : Ctx) (v : BitVec 64)
  /-- HUB_QSEL_WRITE (R308). -/
  | hubQselWrite (w : Writer) (c : Ctx) (v : BitVec 64)
  /-- QUEUE_SAMPLE (R306). -/
  | queueSample (p : Port)
  /-- CFG_RD (R311). -/
  | cfgRd (p : Port) (k : Packet)
  /-- CFG_WR (R311). -/
  | cfgWr (p : Port) (k : Packet)
  /-- HOST_MESSAGE_SEND (R316). -/
  | hostMessageSend
  /-- HWACK (R316). -/
  | hwack (p : Port) (k : Packet)
  /-- HRDATA (R318). -/
  | hrdata (p : Port) (k : Packet)
  /-- HRD_TIMEOUT (R318). -/
  | hrdTimeout (tag : BitVec 16)
  /-- STREAM_RETURN (R317). -/
  | streamReturn
  /-- EVENT_RING_WRITE (R319). -/
  | eventRingWrite
  /-- RELEASE_CMD (R328). -/
  | releaseCmd (w : Writer) (v : BitVec 64)
  /-- RELEASE_START (R328). -/
  | releaseStart (bad : List (BitVec 24))
  /-- RELEASE_END (R328). -/
  | releaseEnd
  /-- ATT_REQ (R340). -/
  | attReq (p : Port) (k : Packet)
  /-- AK_GENERATE (R339). -/
  | akGenerate
  /-- KEX_CT (R344). -/
  | kexCt (p : Port) (k : Packet)
  /-- BOUNCE_TAIL_WRITE (R345). -/
  | bounceTailWrite (w : Writer) (t : Fin 2) (v : BitVec 64)
  /-- BOUNCE_SLOT (R345). -/
  | bounceSlot (t : Fin 2)
  /-- BOUNCE_SLOT_END (R345). -/
  | bounceSlotEnd (t : Fin 2)
  /-- FW_STAGE (R337). -/
  | fwStage (p : Port) (k : Packet) (img : Option (List (BitVec 8)))
  /-- FW_APPLY (R395). -/
  | fwApply (p : Port) (k : Packet)
  /-- FW_UPDATE_END (R395). -/
  | fwUpdateEnd
  /-- AUTH (R348). -/
  | auth (p : Port) (k : Packet)
  /-- EXTEND (R338). -/
  | extend (p : Port) (k : Packet)
  /-- END (R346). -/
  | endSession (p : Port) (k : Packet)
  /-- EVR_CLEAR (R371). -/
  | evrClear (p : Port) (k : Packet)
  /-- INTERRUPT_DELIVERY (R354). -/
  | interruptDelivery (g : Group)
  /-- GROUP_COMPLETE (R355). -/
  | groupComplete (w : Writer) (g : Group)
  /-- SW_SET (R352). -/
  | swSet (w : Writer) (n : Fin 512)
  /-- INTC_GRP_CFG_WRITE (R356). -/
  | intcGrpCfgWrite (w : Writer) (g : Group) (v : BitVec 64)
  /-- INTC_SRC_CFG_WRITE (R352). -/
  | intcSrcCfgWrite (w : Writer) (n : Fin 1024) (v : BitVec 64)
  /-- GDIS_CLEAR (R357). -/
  | gdisClear (w : Writer)
  /-- LOOM_DELIVERY_RETRY (R356). -/
  | loomDeliveryRetry (g : Group)
  /-- CHK_COMPARE (R363). -/
  | chkCompare (w : Writer) (u : ChkUnit)
  /-- CHK_RESET (R363). -/
  | chkReset (w : Writer) (u : ChkUnit)
  /-- CHK_CTL_WRITE (R364). -/
  | chkCtlWrite (w : Writer) (u : ChkUnit) (v : BitVec 64)
  /-- EVR_SAMPLE (R366). -/
  | evrSample (x : Sample)
  /-- EVR_CHECKPOINT (R367). -/
  | evrCheckpoint (bad : List (BitVec 14))
  /-- EVR_PERIOD_END (R367). -/
  | evrPeriodEnd (bad : List (BitVec 14))
  /-- EVR_CURSOR_WRITE (R369). -/
  | evrCursorWrite (w : Writer) (v : BitVec 64)
  /-- RAIL_FAULT (R375). -/
  | railFault (r : Fin 48) (mv : BitVec 16)
  /-- INPUT_UNDERVOLTAGE (R376). -/
  | inputUndervoltage (v : BitVec 13)
  /-- INPUT_OVERVOLTAGE (R376). -/
  | inputOvervoltage (v : BitVec 13)
  /-- INPUT_BROWNOUT (R376). -/
  | inputBrownout (v : BitVec 13)
  /-- INPUT_OVERLIMIT (R376). -/
  | inputOverlimit (v : BitVec 13)
  /-- INPUT_RECOVER (R376). -/
  | inputRecover (v : BitVec 13)
  /-- POWER_LOOP (R378). -/
  | powerLoop (watts : BitVec 12) (die : BitVec 8) (q : Quarter)
  /-- LIMITER_ENGAGE (R379). -/
  | limiterEngage (mean : Nat)
  /-- LIMITER_RELEASE (R379). -/
  | limiterRelease (mean : Nat)
  /-- THERMAL_TRIP (R380). -/
  | thermalTrip (die : BitVec 8) (q : Quarter) (x : Stack) (temp : BitVec 8)
  /-- THERMAL_TRIP_LIFT (R380). -/
  | thermalTripLift (die : BitVec 8) (q : Quarter) (x : Stack) (temp : BitVec 8)
  /-- LOCK_LOSS (R384). -/
  | lockLoss (d : Fin 60)
  /-- REFERENCE_LOSS (R384). -/
  | referenceLoss
  /-- HOLDOVER_END (R384). -/
  | holdoverEnd
  /-- FREEWHEEL_ENTRY (R385). -/
  | freewheelEntry (q : Quarter)
  /-- DEEP_IDLE_ENTRY (R386). -/
  | deepIdleEntry
  /-- DEEP_CMD (R386). -/
  | deepCmd (w : Writer)
  /-- DEEP_CANCEL (R386). -/
  | deepCancel (w : Writer)
  /-- HEARTBEAT (R390). -/
  | heartbeat (w : Writer)
  /-- HEARTBEAT_MISS (R390). -/
  | heartbeatMiss
  /-- CORE_FAULT (R390). -/
  | coreFault (c : Fin 2)
  /-- OVERLAP_CLOSE (R391). -/
  | overlapClose
  /-- CORE_RESTART_END (R390). -/
  | coreRestartEnd (c : Fin 2) (ok : Bool)
  /-- NO_CAPTAIN_HOLD_END (R394). -/
  | noCaptainHoldEnd
  /-- HANDOVER (R392). -/
  | handover (w : Writer)
  /-- LEASE_ON (R393). -/
  | leaseOn (w : Writer)
  /-- LEASE_OFF (R393). -/
  | leaseOff (w : Writer)
  /-- LEASE_ACQ (R393). -/
  | leaseAcq (w : Writer)
  /-- LEASE_EXPIRY (R393). -/
  | leaseExpiry
  /-- ACTION (R389). -/
  | action (w : Writer) (c : Fin 2) (v : BitVec 64)
  /-- SIDEBAND_WRITE (R396). -/
  | sidebandWrite (off : BitVec 32) (v : BitVec 64) (pec : Bool)
  /-- SIDEBAND_READ (R396). -/
  | sidebandRead (off : BitVec 32) (pec : Bool)
  /-- SIDEBAND_STATUS (R396). -/
  | sidebandStatus (pec : Bool)
  /-- TAMPER (R397). -/
  | tamper
  /-- POWER_ON_RESET (R401). -/
  | powerOnReset (straps : BitVec 3) (torn : List (BitVec 14 × BitVec 2048))
  /-- PACKAGE_RESET (R406). -/
  | packageReset
  /-- IMAGE_LOAD (R403). -/
  | imageLoad (w : Writer) (img : Option (List (BitVec 8)))
  /-- IMAGE_POLL_RETRY (R404). -/
  | imagePollRetry
  /-- WAIT_IMAGE_SLEEP (R405). -/
  | waitImageSleep
  /-- WARM_RESET_CMD (R406). -/
  | warmResetCmd (w : Writer) (confirm : BitVec 8)
  /-- QUARTER_RESET_CMD (R406). -/
  | quarterResetCmd (w : Writer) (q : Quarter) (confirm : BitVec 8)
  /-- PACKAGE_RESET_CMD (R406). -/
  | packageResetCmd (w : Writer) (confirm : BitVec 8)
  /-- WARM_START (R408). -/
  | warmStart (kept : Bool)
  /-- QUARTER_RETURN (R409). -/
  | quarterReturn (q : Quarter) (r : QuarterUp)
  /-- SELF_REFRESH_ENTRY_END (R137). -/
  | selfRefreshEntryEnd (x : Stack)
  /-- BRIDGE_RETRAIN (R13). -/
  | bridgeRetrain (b : Fin 4)
  /-- CHECKER_SELF_TEST_END (R171). -/
  | checkerSelfTestEnd (x : Stack) (first : Fin 9)
  /-- ZERO_FILL_END (R161). -/
  | zeroFillEnd (x : Stack)
  /-- FIRMWARE_VERIFICATION_END (R337). -/
  | firmwareVerificationEnd (c : Fin 2)
  /-- HEARTBEAT_MISSED_ONCE (R398). -/
  | heartbeatMissedOnce
  /-- INPUT_RESTART (R376). -/
  | inputRestart
  /-- PORST_N_ASSERT (R406). -/
  | porstNAssert
  /-- TAMPER_N_RELEASE (R397). -/
  | tamperNRelease
  /-- ALERT_RESPONSE (R396). -/
  | alertResponse
  /-- TAP_INSTRUCTION (R397). -/
  | tapInstruction (t : TapCode)
  deriving DecidableEq, Repr

end Sys2Proof
end

