-- ==== Sys2Proof/Machine/Codes.lean ====
section
/-!
DEFINITION. The Reed–Solomon codes of stored data: the line code RS(72,69) over GF(2^8) (R146), and the page code, 32 codewords of 1,024 data and 64
check symbols over GF(2^16), with its decoders (R148 to R150).
-/
namespace Sys2Proof.Machine
open Sys2Proof

/-! ### The line code (R146) -/

/-- Product with α, the field being generated by x^8 + x^4 + x^3 + x^2 + 1. -/
def gfX (a : Nat) : Nat := if a < 128 then 2 * a else (2 * a) ^^^ 0x11D

/-- `a` times α to the power `n`. -/
def gfPow : Nat → Nat → Nat
  | 0, a => a
  | n + 1, a => gfPow n (gfX a)

/-- One message symbol enters the remainder (coefficients of x^2, x^1, x^0) by g(x) = (x + 1)(x + α)(x + α^2) = x^3 + 7x^2 + 14x + 8. -/
def lineStep (r : Nat × Nat × Nat) (b : Nat) : Nat × Nat × Nat :=
  let f := b ^^^ r.1
  let f1 := gfX f
  let f2 := gfX f1
  let f3 := gfX f2
  (r.2.1 ^^^ f ^^^ f1 ^^^ f2, r.2.2 ^^^ f1 ^^^ f2 ^^^ f3, f3)

/-- C0, C1 and C2 of the message symbols b0 to b68. -/
def lineCheck (m : List (BitVec 8)) : Nat × Nat × Nat := m.foldl (fun r b => lineStep r b.toNat) (0, 0, 0)

/-- Syndrome j of the 72 symbols of a line, b0 to b68, C0, C1, C2: their polynomial at α^j. -/
def lineSyn (j : Nat) (w : List (BitVec 8)) : Nat := w.foldl (fun a b => gfPow j a ^^^ b.toNat) 0

/-- What the line decoder finds: nothing, one bad symbol with its value, or more than it corrects. -/
inductive LineDec where
  | clean
  | fix (i v : Nat)
  | bad
  deriving DecidableEq, Repr

/-- The place where a single bad symbol of value `s0` gives the other two syndromes; symbol i stands at power 71 − i. -/
def findPlace (s0 s1 s2 : Nat) : Nat → Option Nat
  | 0 => none
  | i + 1 => if gfPow (71 - i) s0 == s1 && gfPow (2 * (71 - i)) s0 == s2 then some i else findPlace s0 s1 s2 i

/-- The line decoder: one bad symbol is corrected, two are reported, three or more may be taken for one (R146). -/
def lineDecode (w : List (BitVec 8)) : LineDec :=
  let s0 := lineSyn 0 w
  let s1 := lineSyn 1 w
  let s2 := lineSyn 2 w
  if s0 == 0 && s1 == 0 && s2 == 0 then .clean
  else if s0 == 0 then .bad
  else match findPlace s0 s1 s2 72 with
    | some i => .fix i s0
    | none => .bad

/-! ### GF(2^16) (R148) -/

/-- Product with β, the field being generated by x^16 + x^12 + x^3 + x + 1. -/
def gf16X (a : Nat) : Nat := if a < 32768 then 2 * a else (2 * a) ^^^ 0x1100B

def gf16MulGo : Nat → Nat → Nat → Nat → Nat
  | 0, _, _, acc => acc
  | n + 1, a, b, acc => gf16MulGo n (gf16X a) (b / 2) (if b % 2 = 1 then acc ^^^ a else acc)

/-- Product. -/
def gf16Mul (a b : Nat) : Nat := if a = 0 ∨ b = 0 then 0 else gf16MulGo 16 a b 0

def gf16PowGo : Nat → Nat → Nat → Nat → Nat
  | 0, _, _, acc => acc
  | n + 1, a, k, acc => gf16PowGo n (gf16Mul a a) (k / 2) (if k % 2 = 1 then gf16Mul acc a else acc)

/-- Power, of an exponent below 2^20. -/
def gf16Pow (a k : Nat) : Nat := gf16PowGo 20 a k 1

/-- β to the power `k`. -/
def beta (k : Nat) : Nat := gf16Pow 2 k

def gf16Inv (a : Nat) : Nat := gf16Pow a 65534

/-! ### Polynomials, as coefficients from x^0 up -/

def polyAdd : List Nat → List Nat → List Nat
  | [], q => q
  | p, [] => p
  | a :: p, b :: q => (a ^^^ b) :: polyAdd p q

def polyScale (c : Nat) (p : List Nat) : List Nat := p.map (gf16Mul c)

def polyMul : List Nat → List Nat → List Nat
  | [], _ => []
  | a :: p, q => polyAdd (polyScale a q) (0 :: polyMul p q)

def polyEval (p : List Nat) (x : Nat) : Nat := p.foldr (fun a acc => a ^^^ gf16Mul x acc) 0

/-- The formal derivative: the odd coefficients, one place down. -/
def polyDeriv (p : List Nat) : List Nat := ((p.zipIdx).map (fun t => if t.2 % 2 = 1 then t.1 else 0)).drop 1

/-! ### Encoding (R148) -/

/-- The generator Π (x + β^i), i = 0 to 63. -/
def pageGen : List Nat := (List.range 64).foldl (fun p i => polyMul p [beta i, 1]) [1]

/-- x^64 mod g: coefficients of x^63 down to x^0. -/
def pageGenTail : List Nat := (pageGen.take 64).reverse

/-- A remainder, x^63 first, times x mod g. -/
def pageStep (r : List Nat) : List Nat :=
  match r with
  | [] => []
  | f :: rest => (rest ++ [0]).zipWith (fun a g => a ^^^ gf16Mul f g) pageGenTail

def pageIter : Nat → List Nat → List Nat
  | 0, r => r
  | n + 1, r => pageIter n (pageStep r)

/-- G(l): what a 1 in data symbol l adds to check symbols 0 to 63, x^(1023 − l) · x^64 mod g (R148, R158). -/
def pageG (l : Nat) : List Nat := pageIter (1023 - l) pageGenTail

/-- The 32 symbols of a line, and back (R148). -/
def symsOf : List (BitVec 8) → List Nat
  | a :: b :: rest => (a.toNat + 256 * b.toNat) :: symsOf rest
  | _ => []
def bytesOf (ss : List Nat) : List (BitVec 8) := ss.flatMap (fun v => [BitVec.ofNat 8 (v % 256), BitVec.ofNat 8 (v / 256)])

/-- Bytewise exclusive OR. -/
def xorBytes (a b : List (BitVec 8)) : List (BitVec 8) := a.zipWith (fun x y => x ^^^ y) b

def zeroLine : List (BitVec 8) := List.replicate 64 0

/-- Adds G(l) · d to 64 check lines (R158). -/
def addToCode (cs : List (List (BitVec 8))) (l : Nat) (d : List (BitVec 8)) : List (List (BitVec 8)) :=
  if d.all (· == 0) then cs
  else
    let ss := symsOf d
    cs.zipWith (fun c g => bytesOf ((symsOf c).zipWith (fun a b => a ^^^ gf16Mul g b) ss)) (pageG l)

/-- The 64 check lines of a page whose lines are these and zeros (R148, R149). -/
def pageCode (ls : List (Nat × List (BitVec 8))) : List (List (BitVec 8)) :=
  ls.foldl (fun cs l => addToCode cs l.1 l.2) (List.replicate 64 zeroLine)

/-! ### Decoding (R150) -/

/-- The powers at which data symbol l and check symbol k stand. -/
def dataPos (l : Nat) : Nat := 1087 - l
def checkPos (k : Nat) : Nat := 63 - k

/-- The 64 syndromes of received symbols (power, value). -/
def pageSyn (rx : List (Nat × Nat)) : List Nat :=
  (List.range 64).map (fun i => rx.foldl (fun a t => a ^^^ gf16Mul t.2 (beta (i * t.1 % 65535))) 0)

/-- The polynomial whose roots are the inverses of β to the powers. -/
def locator (ps : List Nat) : List Nat := ps.foldl (fun p k => polyMul p [1, beta k]) [1]

/-- The Berlekamp–Massey iteration with `r` erasures: step, syndromes, locator, auxiliary polynomial and length. -/
def massey (syn : List Nat) (r : Nat) : Nat → Nat → List Nat → List Nat → Nat → List Nat × Nat
  | 0, _, lam, _, len => (lam, len)
  | m + 1, n, lam, b, len =>
    let d := (lam.zipIdx).foldl (fun a t => if t.2 ≤ n then a ^^^ gf16Mul t.1 (syn.getD (n - t.2) 0) else a) 0
    let xb := 0 :: b
    if d = 0 then massey syn r m (n + 1) lam xb len
    else
      let lam' := polyAdd lam (polyScale d xb)
      if 2 * len ≤ n + r then massey syn r m (n + 1) lam' (polyScale (gf16Inv d) lam) (n + 1 + r - len)
      else massey syn r m (n + 1) lam' xb len

/-- The values at the places of a locator, from the first `n` coefficients of the evaluator. -/
def placeValues (syn lam : List Nat) (n : Nat) (ps : List Nat) : List (Nat × Nat) :=
  let om := (polyMul syn lam).take n
  let dl := polyDeriv lam
  ps.map (fun p =>
    let x := beta p
    let xi := gf16Inv x
    (p, gf16Mul x (gf16Mul (polyEval om xi) (gf16Inv (polyEval dl xi)))))

/-- Decodes a codeword with its erased places: what is to be added at which powers. Erasures only where `errs` is false; with `errs` also bad symbols
at unknown places, while 2e + r ≤ 64 (R150). What an erasure-only decode gives for a codeword that has other bad symbols follows from the first r
syndromes (DESIGN CHOICE, log 146). -/
def cwDecode (rx : List (Nat × Nat)) (er : List Nat) (errs : Bool) : Option (List (Nat × Nat)) :=
  let r := er.length
  if 64 < r then none
  else
    let syn := pageSyn rx
    let gam := locator er
    if !errs then some (placeValues syn gam r er)
    else
      let (lam, len) := massey syn r (64 - r) r gam gam r
      if 64 < 2 * (len - r) + r then none
      else
        let ps := (List.range 1088).filter (fun p => polyEval lam (beta ((65535 - p) % 65535)) == 0)
        if ps.length ≠ len then none else some (placeValues syn lam 64 ps)

end Sys2Proof.Machine
end

