-- ==== Sys2Proof/Config.lean ====
section
/-!
DEFINITION. What a device fixes at manufacture and the values the spec leaves open: constants without a body, of which nothing can
be proved but that they are values.
-/
namespace Sys2Proof.Config

/-- A fresh value the spec leaves open, by the number of free values drawn before it (log 2). -/
opaque freeValue : Nat → BitVec 64

/-- Identity set at manufacture (GLB_ID, R414; log 11). -/
opaque deviceId : BitVec 64
/-- Silicon stepping and boot ROM version (GLB_PART, Table 16-8; log 11). -/
opaque stepping : BitVec 8
opaque romVer : BitVec 8
/-- Firmware version of the images in the firmware slots (GLB_PART.FW_VER; log 11). -/
opaque fwVer : BitVec 16

/-- The set a page block falls in, and the way a full set gives up, in the second level (R47: the replacement is not given). -/
opaque l2Set : Nat → Nat → Nat → Nat
opaque l2Way : Nat → Nat
/-- The directory's set hash (R101: implementation-defined) and the GTAG before a line's first grant (log 9). -/
opaque dirSet : Nat → Nat
opaque gtag0 : Nat → BitVec 8

/-! ### Cryptography (Table 13-5): functions of which nothing is assumed -/

/-- SHAKE256 of a message, to `n` bytes. -/
opaque shake : List (BitVec 8) → Nat → List (BitVec 8)
/-- Digests the boot ROM holds and keys of the device: the firmware key's digest, the boot ROM's, the identity public key and its
certificate, the firmware set at manufacture. -/
opaque romKey : List (BitVec 8)
opaque romDigest : List (BitVec 8)
opaque identity : List (BitVec 8)
opaque identityCert : List (BitVec 8)
opaque shippedFw : List (BitVec 8)
/-- Whether a signature over a message verifies under the key of a digest. -/
opaque verifies : List (BitVec 8) → List (BitVec 8) → List (BitVec 8) → Bool
/-- The public key and the signatures of attestation key `n`, by leaf; signatures of the identity key, by leaf. -/
opaque akPublic : Nat → List (BitVec 8)
opaque akSign : Nat → Nat → List (BitVec 8) → List (BitVec 8)
opaque idSign : Nat → List (BitVec 8) → List (BitVec 8)
/-- ML-KEM-1024: encapsulation key of key pair `n`, and what its decapsulation gives. -/
opaque kemPublic : Nat → List (BitVec 8)
opaque kemOpen : Nat → List (BitVec 8) → Option (List (BitVec 8))
/-- AES-256-GCM under a key, nonce and additional data: sealing gives ciphertext and tag, opening the plaintext. -/
opaque gcmSeal : List (BitVec 8) → List (BitVec 8) → List (BitVec 8) → List (BitVec 8) → List (BitVec 8)
opaque gcmOpen : List (BitVec 8) → List (BitVec 8) → List (BitVec 8) → List (BitVec 8) → Option (List (BitVec 8))
/-- A firmware image: its version, its security version, the floor it requires, the bytes it signs, and its signature. -/
opaque fwVersion : List (BitVec 8) → BitVec 16
opaque fwSecVer : List (BitVec 8) → Nat
opaque fwFloor : List (BitVec 8) → Nat
opaque fwBody : List (BitVec 8) → List (BitVec 8)
opaque fwSig : List (BitVec 8) → List (BitVec 8)

/-- What the host reads of a configuration image give when its LOAD is written by address (log 125). -/
opaque hostImage : Nat → Option (List (BitVec 8))

/-- Sign and payload of a NaN that the vector unit makes from operands (R188; log 64), and the choice an approximation of operation `op`
(0 = reciprocal, 1 = reciprocal square root, 2 = exp2, 3 = the sampler's noise) makes within its bound (R188, R230; log 65). -/
opaque nanBits : BitVec 32 → BitVec 32 → BitVec 32 → BitVec 32
opaque approx : Nat → BitVec 32 → BitVec 32

/-- Whether a VC5 egress queue that holds `n` packets has room for another (R297: its size is not given). -/
opaque vc5Room : Nat → Bool

end Sys2Proof.Config
end

