-- ==== Sys2Proof/Machine/RegMap.lean ====
section
/-!
DEFINITION. The registers of the configuration space, from the register summary and field tables of spec/ (R3, R4, R63, R90,
R117, R143, R172, R200, R233, R261, R286, R308, R325, R360, R365, R373, R400, R414) and the map of Table 16-6 (R412): every
register's block, offset, instances and reset value, and every field's bits and access type.
-/
namespace Sys2Proof.Machine

/-- Access types of Table 0-4 (R4). -/
inductive Acc where
  | ro | rw | w1c | w1s | wo | rc | rwl | rws
  deriving DecidableEq, Repr

/-- Blocks of the configuration-space map, Table 16-6 (R412). -/
inductive Block where
  | glb | tdm | intc | evr | pwr | sec | xlt | coh | stn | mov | stk | port | hub | chk
  deriving DecidableEq, Repr

/-- Every register the spec gives, under the name the spec gives it. -/
inductive RegName where
  | XLT_CTL
  | XLT_QSTAT
  | XLT_QCNT
  | XLT_FLT_LOG_BASE
  | XLT_FLT_LOG_SIZE
  | XLT_FLT_PROD
  | XLT_FLT_CONS
  | XLT_FLT_RESUME
  | XLT_FLT_RSTAT
  | XLT_RVK_CMD
  | XLT_RVK_RANGE
  | XLT_RVK_NEW
  | XLT_RVK_STAT
  | XLT_EXT_INDEX
  | XLT_EXT_DATA0
  | XLT_EXT_DATA1
  | XLT_EXT_OP
  | XLT_FLT_ENTRY
  | XLT_CTX_BIND
  | XLT_CTX_GEN
  | XLT_SEG_BASE
  | XLT_SEG_LEN
  | XLT_SEG_HVA
  | XLT_SEG_ATTR
  | XLT_ORD_CNT
  | XLT_VER_CTL
  | XLT_VER_CMD
  | XLT_VER_CSTAT
  | XLT_VER_REMAP
  | XLT_VER_RGN_ID
  | XLT_VER_RGN_PG
  | XLT_VER_RGN_CFG
  | XLT_VER_RGN_STAT
  | MOV_CH_CTX
  | MOV_CH_START
  | MOV_CH_CMD
  | MOV_CH_STAT
  | MOV_CH_CUR
  | MOV_CH_BYTES
  | MOV_QSTAT
  | COH_CTL
  | COH_STAT
  | COH_CNT
  | COH_DEAD_CMD
  | COH_RCL_STAT
  | COH_PLIST_BASE
  | COH_PLIST_SIZE
  | COH_PLIST_PROD
  | COH_PLIST_CONS
  | COH_PEER_EP
  | COH_AGENT
  | STK_CTL
  | STK_STAT
  | STK_TIM0
  | STK_TIM1
  | STK_REF
  | STK_THROT
  | STK_RH
  | STK_CNT
  | STK_TRN_CTL
  | STK_TRN_STAT
  | STK_CH_FAIL
  | STK_PLC_CTL
  | STK_PLC_SCAN
  | STK_PLC_RING
  | STK_PLC_PROD
  | STK_PLC_CONS
  | STK_PLC_HIST
  | STK_MIG_ARG0
  | STK_MIG_ARG1
  | STK_MIG_CMD
  | STK_MIG_STAT
  | STK_PORT
  | STK_LAYOUT
  | STK_LAYOUT_CUR
  | STK_GRP_STAT
  | STK_REBUILD
  | STK_REB_STAT
  | STK_PRT_CTL
  | STK_ECC_CTL
  | STK_ECC_STAT
  | STK_SCRUB_CTL
  | STK_SCRUB_STAT
  | STK_BKT_CFG
  | STK_BKT_LVL
  | STK_BKT_OVF
  | STK_UE_CNT
  | STK_UE_LAST
  | STK_SELFTEST
  | STN_QCTL
  | STN_QSTAT
  | STN_THROT
  | STN_FENCE_CMD
  | STN_FENCE_STAT
  | STN_CNT
  | STN_SITE
  | STN_TRAP0
  | STN_TRAP1
  | STN_TRAP2
  | STN_TRAP3
  | STN_LOOM_CTL
  | STN_LOOM_IMG
  | STN_LOOM_SEQT
  | STN_LOOM_KEY
  | STN_LOOM_CMD
  | STN_LOOM_STAT
  | STN_LOOM_CNT
  | STN_LOOM_DEV
  | STN_MEND_CTL
  | STN_MEND_STAT
  | PORT_CTL
  | PORT_LNK_STAT
  | PORT_TRN_CMD
  | PORT_TIMERS
  | PORT_FIBRE
  | PORT_MARGIN
  | PORT_PARTNER_ID
  | PORT_PARTNER_CAP
  | PORT_CRD_CFG
  | PORT_CRD_STAT
  | PORT_CNT
  | PORT_FEC_CNT
  | HUB_CTL
  | HUB_CNT
  | HUB_RT_CMD
  | HUB_RT_STAT
  | HUB_RT_INDEX
  | HUB_RT_DATA
  | HUB_RT_OP
  | HUB_RT_DEF
  | HUB_MC_INDEX
  | HUB_MC_DATA
  | HUB_MC_OP
  | HUB_TIME_CTL
  | HUB_TIME_STAT
  | HUB_TIME_SET
  | HUB_MC_FMASK
  | HUB_MC_GCNT
  | HUB_POL_CFG
  | HUB_POL_CNT
  | HUB_QSEL
  | PORT_EGR_CTL
  | PORT_GATE_CTL
  | PORT_GATE_BASE
  | PORT_GATE_STAT
  | PORT_Q_CFG
  | PORT_Q_STAT
  | PORT_GATE_LIST
  | PORT_HIST
  | PORT_AUTH_CTL
  | PORT_AUTH_CNT
  | PORT_ALLOW
  | TL_CTL
  | TL_STAT
  | TL_EVT_BASE
  | TL_EVT_SIZE
  | TL_EVT_PROD
  | TL_EVT_CONS
  | TL_EVT_STAT
  | TL_CNT
  | TL_WIN_BASE
  | TL_WIN_LEN
  | SEC_CTL
  | SEC_STAT
  | SEC_VER
  | SEC_IDX
  | SEC_DEBUG
  | SEC_LEDGER
  | SEC_REL_CMD
  | SEC_REL_STAT
  | SEC_CNT
  | SEC_SESS_STAT
  | SEC_BNC_RING
  | SEC_BNC_TAIL
  | SEC_BNC_HEAD
  | SEC_MR
  | SEC_CTX
  | SEC_OBS
  | INTC_CTL
  | INTC_STAT
  | INTC_GRP_CMPL
  | INTC_SW_SET
  | INTC_CORE
  | INTC_GRP_CFG
  | INTC_GRP_ARG
  | INTC_GRP_STAT
  | INTC_SRC_PEND
  | INTC_SRC_SERV
  | INTC_SRC_RAW
  | INTC_SRC_CFG
  | CHK_CTL
  | CHK_SEL
  | CHK_POLY
  | CHK_INIT
  | CHK_XOROUT
  | CHK_EXPECT
  | CHK_RUN
  | CHK_LEN
  | CHK_COUNT
  | CHK_RESULT
  | CHK_STAT
  | CHK_CMD
  | EVR_CTL
  | EVR_STAT
  | EVR_OPS
  | EVR_TIME
  | EVR_CURSOR
  | EVR_CNT
  | EVR_WIN
  | PWR_CTL
  | PWR_LEVEL
  | PWR_STAT
  | PWR_LIMIT
  | PWR_FAN
  | PWR_THERM
  | PWR_TEMP
  | PWR_LP_CTL
  | PWR_LP_CMD
  | PWR_LP_STAT
  | PWR_STATPIN
  | PWR_RAIL
  | CLK_DOM
  | CLK_STAT
  | TDM_ROLE
  | TDM_CMD
  | TDM_LEASE
  | TDM_HB
  | TDM_ACT0
  | TDM_ACT1
  | TDM_ASEQ
  | TDM_STAT
  | TDM_JRNL_A
  | TDM_JRNL_V
  | GLB_ID
  | GLB_PART
  | GLB_STAT
  | GLB_RST_CMD
  | GLB_RST_STAT
  | GLB_IMG_BASE
  | GLB_IMG_LEN
  | GLB_IMG_CMD
  | GLB_IMG_STAT
  | GLB_SCRATCH
  deriving DecidableEq, Repr

/-- Where a register stands: its block, its offset inside the block, its instances with their strides, and whether it is a
device register, which exists once and is kept under the first block of its kind (R63, R143, R261, R325). -/
structure RegSpec where
  block : Block
  base : Nat
  n1 : Nat
  s1 : Nat
  n2 : Nat
  s2 : Nat
  device : Bool
  deriving DecidableEq, Repr

/-- The row of each register in its summary table. -/
def RegName.spec : RegName → RegSpec
  | .XLT_CTL => ⟨.xlt, 0x0, 1, 0x8, 1, 0x8, true⟩
  | .XLT_QSTAT => ⟨.xlt, 0x8, 1, 0x8, 1, 0x8, false⟩
  | .XLT_QCNT => ⟨.xlt, 0x10, 1, 0x8, 1, 0x8, false⟩
  | .XLT_FLT_LOG_BASE => ⟨.xlt, 0x20, 1, 0x8, 1, 0x8, true⟩
  | .XLT_FLT_LOG_SIZE => ⟨.xlt, 0x28, 1, 0x8, 1, 0x8, true⟩
  | .XLT_FLT_PROD => ⟨.xlt, 0x30, 1, 0x8, 1, 0x8, true⟩
  | .XLT_FLT_CONS => ⟨.xlt, 0x38, 1, 0x8, 1, 0x8, true⟩
  | .XLT_FLT_RESUME => ⟨.xlt, 0x40, 1, 0x8, 1, 0x8, true⟩
  | .XLT_FLT_RSTAT => ⟨.xlt, 0x48, 1, 0x8, 1, 0x8, true⟩
  | .XLT_RVK_CMD => ⟨.xlt, 0x50, 1, 0x8, 1, 0x8, true⟩
  | .XLT_RVK_RANGE => ⟨.xlt, 0x58, 1, 0x8, 1, 0x8, true⟩
  | .XLT_RVK_NEW => ⟨.xlt, 0x60, 1, 0x8, 1, 0x8, true⟩
  | .XLT_RVK_STAT => ⟨.xlt, 0x68, 1, 0x8, 1, 0x8, true⟩
  | .XLT_EXT_INDEX => ⟨.xlt, 0x70, 1, 0x8, 1, 0x8, true⟩
  | .XLT_EXT_DATA0 => ⟨.xlt, 0x78, 1, 0x8, 1, 0x8, true⟩
  | .XLT_EXT_DATA1 => ⟨.xlt, 0x80, 1, 0x8, 1, 0x8, true⟩
  | .XLT_EXT_OP => ⟨.xlt, 0x88, 1, 0x8, 1, 0x8, true⟩
  | .XLT_FLT_ENTRY => ⟨.xlt, 0x800, 128, 0x8, 1, 0x8, false⟩
  | .XLT_CTX_BIND => ⟨.xlt, 0x10000, 4096, 0x10, 1, 0x8, true⟩
  | .XLT_CTX_GEN => ⟨.xlt, 0x10008, 4096, 0x10, 1, 0x8, true⟩
  | .XLT_SEG_BASE => ⟨.xlt, 0x100000, 4096, 0x100, 8, 0x20, true⟩
  | .XLT_SEG_LEN => ⟨.xlt, 0x100008, 4096, 0x100, 8, 0x20, true⟩
  | .XLT_SEG_HVA => ⟨.xlt, 0x100010, 4096, 0x100, 8, 0x20, true⟩
  | .XLT_SEG_ATTR => ⟨.xlt, 0x100018, 4096, 0x100, 8, 0x20, true⟩
  | .XLT_ORD_CNT => ⟨.xlt, 0x20000, 1, 0x8, 1, 0x8, false⟩
  | .XLT_VER_CTL => ⟨.xlt, 0x20100, 1, 0x8, 1, 0x8, true⟩
  | .XLT_VER_CMD => ⟨.xlt, 0x20108, 1, 0x8, 1, 0x8, true⟩
  | .XLT_VER_CSTAT => ⟨.xlt, 0x20110, 1, 0x8, 1, 0x8, true⟩
  | .XLT_VER_REMAP => ⟨.xlt, 0x20118, 1, 0x8, 1, 0x8, true⟩
  | .XLT_VER_RGN_ID => ⟨.xlt, 0x40000, 4096, 0x20, 1, 0x8, true⟩
  | .XLT_VER_RGN_PG => ⟨.xlt, 0x40008, 4096, 0x20, 1, 0x8, true⟩
  | .XLT_VER_RGN_CFG => ⟨.xlt, 0x40010, 4096, 0x20, 1, 0x8, true⟩
  | .XLT_VER_RGN_STAT => ⟨.xlt, 0x40018, 4096, 0x20, 1, 0x8, true⟩
  | .MOV_CH_CTX => ⟨.mov, 0x380000, 16, 0x40, 1, 0x8, false⟩
  | .MOV_CH_START => ⟨.mov, 0x380008, 16, 0x40, 1, 0x8, false⟩
  | .MOV_CH_CMD => ⟨.mov, 0x380010, 16, 0x40, 1, 0x8, false⟩
  | .MOV_CH_STAT => ⟨.mov, 0x380018, 16, 0x40, 1, 0x8, false⟩
  | .MOV_CH_CUR => ⟨.mov, 0x380020, 16, 0x40, 1, 0x8, false⟩
  | .MOV_CH_BYTES => ⟨.mov, 0x380028, 16, 0x40, 1, 0x8, false⟩
  | .MOV_QSTAT => ⟨.mov, 0x381000, 1, 0x8, 1, 0x8, false⟩
  | .COH_CTL => ⟨.coh, 0x200000, 1, 0x8, 1, 0x8, true⟩
  | .COH_STAT => ⟨.coh, 0x200008, 1, 0x8, 1, 0x8, false⟩
  | .COH_CNT => ⟨.coh, 0x200010, 1, 0x8, 1, 0x8, false⟩
  | .COH_DEAD_CMD => ⟨.coh, 0x200020, 1, 0x8, 1, 0x8, true⟩
  | .COH_RCL_STAT => ⟨.coh, 0x200028, 1, 0x8, 1, 0x8, true⟩
  | .COH_PLIST_BASE => ⟨.coh, 0x200030, 1, 0x8, 1, 0x8, true⟩
  | .COH_PLIST_SIZE => ⟨.coh, 0x200038, 1, 0x8, 1, 0x8, true⟩
  | .COH_PLIST_PROD => ⟨.coh, 0x200040, 1, 0x8, 1, 0x8, true⟩
  | .COH_PLIST_CONS => ⟨.coh, 0x200048, 1, 0x8, 1, 0x8, true⟩
  | .COH_PEER_EP => ⟨.coh, 0x200800, 8, 0x8, 1, 0x8, true⟩
  | .COH_AGENT => ⟨.coh, 0x201000, 512, 0x8, 1, 0x8, true⟩
  | .STK_CTL => ⟨.stk, 0x0, 1, 0x8, 1, 0x8, false⟩
  | .STK_STAT => ⟨.stk, 0x8, 1, 0x8, 1, 0x8, false⟩
  | .STK_TIM0 => ⟨.stk, 0x10, 1, 0x8, 1, 0x8, false⟩
  | .STK_TIM1 => ⟨.stk, 0x18, 1, 0x8, 1, 0x8, false⟩
  | .STK_REF => ⟨.stk, 0x20, 1, 0x8, 1, 0x8, false⟩
  | .STK_THROT => ⟨.stk, 0x28, 1, 0x8, 1, 0x8, false⟩
  | .STK_RH => ⟨.stk, 0x30, 1, 0x8, 1, 0x8, false⟩
  | .STK_CNT => ⟨.stk, 0x38, 1, 0x8, 1, 0x8, false⟩
  | .STK_TRN_CTL => ⟨.stk, 0x40, 1, 0x8, 1, 0x8, false⟩
  | .STK_TRN_STAT => ⟨.stk, 0x48, 1, 0x8, 1, 0x8, false⟩
  | .STK_CH_FAIL => ⟨.stk, 0x50, 1, 0x8, 1, 0x8, false⟩
  | .STK_PLC_CTL => ⟨.stk, 0x60, 1, 0x8, 1, 0x8, true⟩
  | .STK_PLC_SCAN => ⟨.stk, 0x68, 1, 0x8, 1, 0x8, false⟩
  | .STK_PLC_RING => ⟨.stk, 0x70, 1, 0x8, 1, 0x8, true⟩
  | .STK_PLC_PROD => ⟨.stk, 0x78, 1, 0x8, 1, 0x8, true⟩
  | .STK_PLC_CONS => ⟨.stk, 0x80, 1, 0x8, 1, 0x8, true⟩
  | .STK_PLC_HIST => ⟨.stk, 0x88, 1, 0x8, 1, 0x8, false⟩
  | .STK_MIG_ARG0 => ⟨.stk, 0x90, 1, 0x8, 1, 0x8, false⟩
  | .STK_MIG_ARG1 => ⟨.stk, 0x98, 1, 0x8, 1, 0x8, false⟩
  | .STK_MIG_CMD => ⟨.stk, 0xA0, 1, 0x8, 1, 0x8, false⟩
  | .STK_MIG_STAT => ⟨.stk, 0xB0, 4, 0x8, 1, 0x8, false⟩
  | .STK_PORT => ⟨.stk, 0x100, 8, 0x8, 1, 0x8, false⟩
  | .STK_LAYOUT => ⟨.stk, 0x1000, 1, 0x8, 1, 0x8, true⟩
  | .STK_LAYOUT_CUR => ⟨.stk, 0x1008, 1, 0x8, 1, 0x8, true⟩
  | .STK_GRP_STAT => ⟨.stk, 0x1010, 1, 0x8, 1, 0x8, true⟩
  | .STK_REBUILD => ⟨.stk, 0x1018, 1, 0x8, 1, 0x8, true⟩
  | .STK_REB_STAT => ⟨.stk, 0x1020, 1, 0x8, 1, 0x8, true⟩
  | .STK_PRT_CTL => ⟨.stk, 0x1028, 1, 0x8, 1, 0x8, true⟩
  | .STK_ECC_CTL => ⟨.stk, 0x1040, 1, 0x8, 1, 0x8, false⟩
  | .STK_ECC_STAT => ⟨.stk, 0x1048, 1, 0x8, 1, 0x8, false⟩
  | .STK_SCRUB_CTL => ⟨.stk, 0x1050, 1, 0x8, 1, 0x8, false⟩
  | .STK_SCRUB_STAT => ⟨.stk, 0x1058, 1, 0x8, 1, 0x8, false⟩
  | .STK_BKT_CFG => ⟨.stk, 0x1060, 1, 0x8, 1, 0x8, false⟩
  | .STK_BKT_LVL => ⟨.stk, 0x1068, 1, 0x8, 1, 0x8, false⟩
  | .STK_BKT_OVF => ⟨.stk, 0x1070, 1, 0x8, 1, 0x8, false⟩
  | .STK_UE_CNT => ⟨.stk, 0x1078, 1, 0x8, 1, 0x8, false⟩
  | .STK_UE_LAST => ⟨.stk, 0x1080, 1, 0x8, 1, 0x8, false⟩
  | .STK_SELFTEST => ⟨.stk, 0x1088, 1, 0x8, 1, 0x8, false⟩
  | .STN_QCTL => ⟨.stn, 0x300000, 1, 0x8, 1, 0x8, false⟩
  | .STN_QSTAT => ⟨.stn, 0x300008, 1, 0x8, 1, 0x8, false⟩
  | .STN_THROT => ⟨.stn, 0x300010, 1, 0x8, 1, 0x8, false⟩
  | .STN_FENCE_CMD => ⟨.stn, 0x300018, 1, 0x8, 1, 0x8, false⟩
  | .STN_FENCE_STAT => ⟨.stn, 0x300020, 1, 0x8, 1, 0x8, false⟩
  | .STN_CNT => ⟨.stn, 0x300028, 1, 0x8, 1, 0x8, false⟩
  | .STN_SITE => ⟨.stn, 0x310000, 324, 0x8, 1, 0x8, false⟩
  | .STN_TRAP0 => ⟨.stn, 0x320000, 324, 0x20, 1, 0x8, false⟩
  | .STN_TRAP1 => ⟨.stn, 0x320008, 324, 0x20, 1, 0x8, false⟩
  | .STN_TRAP2 => ⟨.stn, 0x320010, 324, 0x20, 1, 0x8, false⟩
  | .STN_TRAP3 => ⟨.stn, 0x320018, 324, 0x20, 1, 0x8, false⟩
  | .STN_LOOM_CTL => ⟨.stn, 0x340000, 64, 0x40, 1, 0x8, true⟩
  | .STN_LOOM_IMG => ⟨.stn, 0x340008, 64, 0x40, 1, 0x8, true⟩
  | .STN_LOOM_SEQT => ⟨.stn, 0x340010, 64, 0x40, 1, 0x8, true⟩
  | .STN_LOOM_KEY => ⟨.stn, 0x340018, 64, 0x40, 1, 0x8, true⟩
  | .STN_LOOM_CMD => ⟨.stn, 0x340020, 64, 0x40, 1, 0x8, true⟩
  | .STN_LOOM_STAT => ⟨.stn, 0x340028, 64, 0x40, 1, 0x8, true⟩
  | .STN_LOOM_CNT => ⟨.stn, 0x340030, 64, 0x40, 1, 0x8, true⟩
  | .STN_LOOM_DEV => ⟨.stn, 0x341000, 1, 0x8, 1, 0x8, true⟩
  | .STN_MEND_CTL => ⟨.stn, 0x341008, 1, 0x8, 1, 0x8, true⟩
  | .STN_MEND_STAT => ⟨.stn, 0x341010, 1, 0x8, 1, 0x8, true⟩
  | .PORT_CTL => ⟨.port, 0x0, 1, 0x8, 1, 0x8, false⟩
  | .PORT_LNK_STAT => ⟨.port, 0x8, 1, 0x8, 1, 0x8, false⟩
  | .PORT_TRN_CMD => ⟨.port, 0x10, 1, 0x8, 1, 0x8, false⟩
  | .PORT_TIMERS => ⟨.port, 0x18, 1, 0x8, 1, 0x8, false⟩
  | .PORT_FIBRE => ⟨.port, 0x20, 1, 0x8, 1, 0x8, false⟩
  | .PORT_MARGIN => ⟨.port, 0x28, 1, 0x8, 1, 0x8, false⟩
  | .PORT_PARTNER_ID => ⟨.port, 0x30, 1, 0x8, 1, 0x8, false⟩
  | .PORT_PARTNER_CAP => ⟨.port, 0x38, 1, 0x8, 1, 0x8, false⟩
  | .PORT_CRD_CFG => ⟨.port, 0x40, 1, 0x8, 1, 0x8, false⟩
  | .PORT_CRD_STAT => ⟨.port, 0x48, 1, 0x8, 1, 0x8, false⟩
  | .PORT_CNT => ⟨.port, 0x50, 1, 0x8, 1, 0x8, false⟩
  | .PORT_FEC_CNT => ⟨.port, 0x58, 1, 0x8, 1, 0x8, false⟩
  | .HUB_CTL => ⟨.hub, 0x0, 1, 0x8, 1, 0x8, false⟩
  | .HUB_CNT => ⟨.hub, 0x8, 1, 0x8, 1, 0x8, false⟩
  | .HUB_RT_CMD => ⟨.hub, 0x10, 1, 0x8, 1, 0x8, false⟩
  | .HUB_RT_STAT => ⟨.hub, 0x18, 1, 0x8, 1, 0x8, false⟩
  | .HUB_RT_INDEX => ⟨.hub, 0x20, 1, 0x8, 1, 0x8, false⟩
  | .HUB_RT_DATA => ⟨.hub, 0x28, 1, 0x8, 1, 0x8, false⟩
  | .HUB_RT_OP => ⟨.hub, 0x30, 1, 0x8, 1, 0x8, false⟩
  | .HUB_RT_DEF => ⟨.hub, 0x38, 2, 0x8, 1, 0x8, false⟩
  | .HUB_MC_INDEX => ⟨.hub, 0x48, 1, 0x8, 1, 0x8, false⟩
  | .HUB_MC_DATA => ⟨.hub, 0x50, 1, 0x8, 1, 0x8, false⟩
  | .HUB_MC_OP => ⟨.hub, 0x58, 1, 0x8, 1, 0x8, false⟩
  | .HUB_TIME_CTL => ⟨.hub, 0x60, 1, 0x8, 1, 0x8, false⟩
  | .HUB_TIME_STAT => ⟨.hub, 0x68, 1, 0x8, 1, 0x8, false⟩
  | .HUB_TIME_SET => ⟨.hub, 0x70, 1, 0x8, 1, 0x8, false⟩
  | .HUB_MC_FMASK => ⟨.hub, 0x2000, 1024, 0x8, 1, 0x8, false⟩
  | .HUB_MC_GCNT => ⟨.hub, 0x4000, 1024, 0x8, 1, 0x8, false⟩
  | .HUB_POL_CFG => ⟨.hub, 0x10000, 4096, 0x10, 1, 0x8, false⟩
  | .HUB_POL_CNT => ⟨.hub, 0x10008, 4096, 0x10, 1, 0x8, false⟩
  | .HUB_QSEL => ⟨.hub, 0x20000, 4096, 0x8, 1, 0x8, false⟩
  | .PORT_EGR_CTL => ⟨.port, 0x100, 1, 0x8, 1, 0x8, false⟩
  | .PORT_GATE_CTL => ⟨.port, 0x108, 1, 0x8, 1, 0x8, false⟩
  | .PORT_GATE_BASE => ⟨.port, 0x110, 2, 0x8, 1, 0x8, false⟩
  | .PORT_GATE_STAT => ⟨.port, 0x120, 1, 0x8, 1, 0x8, false⟩
  | .PORT_Q_CFG => ⟨.port, 0x4000, 512, 0x10, 1, 0x8, false⟩
  | .PORT_Q_STAT => ⟨.port, 0x4008, 512, 0x10, 1, 0x8, false⟩
  | .PORT_GATE_LIST => ⟨.port, 0x6000, 2, 0x800, 256, 0x8, false⟩
  | .PORT_HIST => ⟨.port, 0x10000, 512, 0x80, 16, 0x8, false⟩
  | .PORT_AUTH_CTL => ⟨.port, 0x200, 1, 0x8, 1, 0x8, false⟩
  | .PORT_AUTH_CNT => ⟨.port, 0x208, 1, 0x8, 1, 0x8, false⟩
  | .PORT_ALLOW => ⟨.port, 0x210, 16, 0x8, 1, 0x8, false⟩
  | .TL_CTL => ⟨.port, 0x300, 1, 0x8, 1, 0x8, true⟩
  | .TL_STAT => ⟨.port, 0x308, 1, 0x8, 1, 0x8, true⟩
  | .TL_EVT_BASE => ⟨.port, 0x310, 1, 0x8, 1, 0x8, true⟩
  | .TL_EVT_SIZE => ⟨.port, 0x318, 1, 0x8, 1, 0x8, true⟩
  | .TL_EVT_PROD => ⟨.port, 0x320, 1, 0x8, 1, 0x8, true⟩
  | .TL_EVT_CONS => ⟨.port, 0x328, 1, 0x8, 1, 0x8, true⟩
  | .TL_EVT_STAT => ⟨.port, 0x330, 1, 0x8, 1, 0x8, true⟩
  | .TL_CNT => ⟨.port, 0x338, 1, 0x8, 1, 0x8, true⟩
  | .TL_WIN_BASE => ⟨.port, 0x340, 8, 0x10, 1, 0x8, true⟩
  | .TL_WIN_LEN => ⟨.port, 0x348, 8, 0x10, 1, 0x8, true⟩
  | .SEC_CTL => ⟨.sec, 0x0, 1, 0x8, 1, 0x8, false⟩
  | .SEC_STAT => ⟨.sec, 0x8, 1, 0x8, 1, 0x8, false⟩
  | .SEC_VER => ⟨.sec, 0x10, 1, 0x8, 1, 0x8, false⟩
  | .SEC_IDX => ⟨.sec, 0x18, 1, 0x8, 1, 0x8, false⟩
  | .SEC_DEBUG => ⟨.sec, 0x20, 1, 0x8, 1, 0x8, false⟩
  | .SEC_LEDGER => ⟨.sec, 0x28, 1, 0x8, 1, 0x8, false⟩
  | .SEC_REL_CMD => ⟨.sec, 0x30, 1, 0x8, 1, 0x8, false⟩
  | .SEC_REL_STAT => ⟨.sec, 0x38, 1, 0x8, 1, 0x8, false⟩
  | .SEC_CNT => ⟨.sec, 0x40, 1, 0x8, 1, 0x8, false⟩
  | .SEC_SESS_STAT => ⟨.sec, 0x100, 2, 0x40, 1, 0x8, false⟩
  | .SEC_BNC_RING => ⟨.sec, 0x108, 2, 0x40, 1, 0x8, false⟩
  | .SEC_BNC_TAIL => ⟨.sec, 0x110, 2, 0x40, 1, 0x8, false⟩
  | .SEC_BNC_HEAD => ⟨.sec, 0x118, 2, 0x40, 1, 0x8, false⟩
  | .SEC_MR => ⟨.sec, 0x1000, 8, 0x40, 8, 0x8, false⟩
  | .SEC_CTX => ⟨.sec, 0x10000, 4096, 0x10, 1, 0x8, false⟩
  | .SEC_OBS => ⟨.sec, 0x10008, 4096, 0x10, 1, 0x8, false⟩
  | .INTC_CTL => ⟨.intc, 0x0, 1, 0x8, 1, 0x8, false⟩
  | .INTC_STAT => ⟨.intc, 0x8, 1, 0x8, 1, 0x8, false⟩
  | .INTC_GRP_CMPL => ⟨.intc, 0x10, 1, 0x8, 1, 0x8, false⟩
  | .INTC_SW_SET => ⟨.intc, 0x18, 1, 0x8, 1, 0x8, false⟩
  | .INTC_CORE => ⟨.intc, 0x20, 2, 0x8, 1, 0x8, false⟩
  | .INTC_GRP_CFG => ⟨.intc, 0x100, 32, 0x20, 1, 0x8, false⟩
  | .INTC_GRP_ARG => ⟨.intc, 0x108, 32, 0x20, 1, 0x8, false⟩
  | .INTC_GRP_STAT => ⟨.intc, 0x110, 32, 0x20, 1, 0x8, false⟩
  | .INTC_SRC_PEND => ⟨.intc, 0x1000, 16, 0x8, 1, 0x8, false⟩
  | .INTC_SRC_SERV => ⟨.intc, 0x1100, 16, 0x8, 1, 0x8, false⟩
  | .INTC_SRC_RAW => ⟨.intc, 0x1200, 16, 0x8, 1, 0x8, false⟩
  | .INTC_SRC_CFG => ⟨.intc, 0x2000, 1024, 0x8, 1, 0x8, false⟩
  | .CHK_CTL => ⟨.chk, 0x0, 8, 0x80, 1, 0x8, false⟩
  | .CHK_SEL => ⟨.chk, 0x8, 8, 0x80, 1, 0x8, false⟩
  | .CHK_POLY => ⟨.chk, 0x10, 8, 0x80, 1, 0x8, false⟩
  | .CHK_INIT => ⟨.chk, 0x18, 8, 0x80, 1, 0x8, false⟩
  | .CHK_XOROUT => ⟨.chk, 0x20, 8, 0x80, 1, 0x8, false⟩
  | .CHK_EXPECT => ⟨.chk, 0x28, 8, 0x80, 1, 0x8, false⟩
  | .CHK_RUN => ⟨.chk, 0x30, 8, 0x80, 1, 0x8, false⟩
  | .CHK_LEN => ⟨.chk, 0x38, 8, 0x80, 1, 0x8, false⟩
  | .CHK_COUNT => ⟨.chk, 0x40, 8, 0x80, 1, 0x8, false⟩
  | .CHK_RESULT => ⟨.chk, 0x48, 8, 0x80, 1, 0x8, false⟩
  | .CHK_STAT => ⟨.chk, 0x50, 8, 0x80, 1, 0x8, false⟩
  | .CHK_CMD => ⟨.chk, 0x58, 8, 0x80, 1, 0x8, false⟩
  | .EVR_CTL => ⟨.evr, 0x0, 1, 0x8, 1, 0x8, false⟩
  | .EVR_STAT => ⟨.evr, 0x8, 1, 0x8, 1, 0x8, false⟩
  | .EVR_OPS => ⟨.evr, 0x10, 1, 0x8, 1, 0x8, false⟩
  | .EVR_TIME => ⟨.evr, 0x18, 1, 0x8, 1, 0x8, false⟩
  | .EVR_CURSOR => ⟨.evr, 0x20, 1, 0x8, 1, 0x8, false⟩
  | .EVR_CNT => ⟨.evr, 0x28, 1, 0x8, 1, 0x8, false⟩
  | .EVR_WIN => ⟨.evr, 0x1000, 512, 0x8, 1, 0x8, false⟩
  | .PWR_CTL => ⟨.pwr, 0x0, 1, 0x8, 1, 0x8, false⟩
  | .PWR_LEVEL => ⟨.pwr, 0x8, 1, 0x8, 1, 0x8, false⟩
  | .PWR_STAT => ⟨.pwr, 0x10, 1, 0x8, 1, 0x8, false⟩
  | .PWR_LIMIT => ⟨.pwr, 0x18, 1, 0x8, 1, 0x8, false⟩
  | .PWR_FAN => ⟨.pwr, 0x20, 1, 0x8, 1, 0x8, false⟩
  | .PWR_THERM => ⟨.pwr, 0x28, 1, 0x8, 1, 0x8, false⟩
  | .PWR_TEMP => ⟨.pwr, 0x30, 1, 0x8, 1, 0x8, false⟩
  | .PWR_LP_CTL => ⟨.pwr, 0x38, 1, 0x8, 1, 0x8, false⟩
  | .PWR_LP_CMD => ⟨.pwr, 0x40, 1, 0x8, 1, 0x8, false⟩
  | .PWR_LP_STAT => ⟨.pwr, 0x48, 1, 0x8, 1, 0x8, false⟩
  | .PWR_STATPIN => ⟨.pwr, 0x50, 1, 0x8, 1, 0x8, false⟩
  | .PWR_RAIL => ⟨.pwr, 0x100, 48, 0x8, 1, 0x8, false⟩
  | .CLK_DOM => ⟨.pwr, 0x400, 60, 0x8, 1, 0x8, false⟩
  | .CLK_STAT => ⟨.pwr, 0x600, 1, 0x8, 1, 0x8, false⟩
  | .TDM_ROLE => ⟨.tdm, 0x0, 1, 0x8, 1, 0x8, false⟩
  | .TDM_CMD => ⟨.tdm, 0x8, 1, 0x8, 1, 0x8, false⟩
  | .TDM_LEASE => ⟨.tdm, 0x10, 1, 0x8, 1, 0x8, false⟩
  | .TDM_HB => ⟨.tdm, 0x18, 1, 0x8, 1, 0x8, false⟩
  | .TDM_ACT0 => ⟨.tdm, 0x20, 2, 0x10, 1, 0x8, false⟩
  | .TDM_ACT1 => ⟨.tdm, 0x28, 2, 0x10, 1, 0x8, false⟩
  | .TDM_ASEQ => ⟨.tdm, 0x40, 1, 0x8, 1, 0x8, false⟩
  | .TDM_STAT => ⟨.tdm, 0x48, 1, 0x8, 1, 0x8, false⟩
  | .TDM_JRNL_A => ⟨.tdm, 0x100, 64, 0x10, 1, 0x8, false⟩
  | .TDM_JRNL_V => ⟨.tdm, 0x108, 64, 0x10, 1, 0x8, false⟩
  | .GLB_ID => ⟨.glb, 0x0, 1, 0x8, 1, 0x8, true⟩
  | .GLB_PART => ⟨.glb, 0x8, 1, 0x8, 1, 0x8, false⟩
  | .GLB_STAT => ⟨.glb, 0x10, 1, 0x8, 1, 0x8, false⟩
  | .GLB_RST_CMD => ⟨.glb, 0x18, 1, 0x8, 1, 0x8, false⟩
  | .GLB_RST_STAT => ⟨.glb, 0x20, 1, 0x8, 1, 0x8, false⟩
  | .GLB_IMG_BASE => ⟨.glb, 0x28, 1, 0x8, 1, 0x8, false⟩
  | .GLB_IMG_LEN => ⟨.glb, 0x30, 1, 0x8, 1, 0x8, false⟩
  | .GLB_IMG_CMD => ⟨.glb, 0x38, 1, 0x8, 1, 0x8, false⟩
  | .GLB_IMG_STAT => ⟨.glb, 0x40, 1, 0x8, 1, 0x8, false⟩
  | .GLB_SCRATCH => ⟨.glb, 0x80, 8, 0x8, 1, 0x8, false⟩

/-- A field of a register: its register, its lowest bit and its width. -/
structure Fld where
  reg : RegName
  lo : Nat
  width : Nat
  deriving DecidableEq, Repr

namespace F

def XLT_CTL_EN : Fld := ⟨.XLT_CTL, 0, 1⟩
def XLT_CTL_FLT_TMO : Fld := ⟨.XLT_CTL, 16, 16⟩
def XLT_CTL_FLT_INT : Fld := ⟨.XLT_CTL, 32, 1⟩
def XLT_QSTAT_WALK_BUSY : Fld := ⟨.XLT_QSTAT, 0, 6⟩
def XLT_QSTAT_MISSQ : Fld := ⟨.XLT_QSTAT, 6, 9⟩
def XLT_QSTAT_FLT_USED : Fld := ⟨.XLT_QSTAT, 15, 8⟩
def XLT_QSTAT_LOG_FULL : Fld := ⟨.XLT_QSTAT, 23, 1⟩
def XLT_QCNT_L2_MISS : Fld := ⟨.XLT_QCNT, 0, 32⟩
def XLT_QCNT_DENY : Fld := ⟨.XLT_QCNT, 32, 32⟩
def XLT_FLT_LOG_BASE_BASE : Fld := ⟨.XLT_FLT_LOG_BASE, 12, 52⟩
def XLT_FLT_LOG_SIZE_LOG2N : Fld := ⟨.XLT_FLT_LOG_SIZE, 0, 5⟩
def XLT_FLT_PROD_PROD : Fld := ⟨.XLT_FLT_PROD, 0, 32⟩
def XLT_FLT_CONS_CONS : Fld := ⟨.XLT_FLT_CONS, 0, 32⟩
def XLT_FLT_RESUME_FID : Fld := ⟨.XLT_FLT_RESUME, 0, 16⟩
def XLT_FLT_RESUME_ACTION : Fld := ⟨.XLT_FLT_RESUME, 16, 2⟩
def XLT_FLT_RSTAT_FID : Fld := ⟨.XLT_FLT_RSTAT, 0, 16⟩
def XLT_FLT_RSTAT_RESULT : Fld := ⟨.XLT_FLT_RSTAT, 16, 2⟩
def XLT_FLT_RSTAT_WAITERS : Fld := ⟨.XLT_FLT_RSTAT, 18, 16⟩
def XLT_RVK_CMD_CTX : Fld := ⟨.XLT_RVK_CMD, 0, 12⟩
def XLT_RVK_CMD_SEG : Fld := ⟨.XLT_RVK_CMD, 12, 3⟩
def XLT_RVK_CMD_TYPE : Fld := ⟨.XLT_RVK_CMD, 15, 3⟩
def XLT_RVK_CMD_TAG : Fld := ⟨.XLT_RVK_CMD, 32, 16⟩
def XLT_RVK_RANGE_FIRST : Fld := ⟨.XLT_RVK_RANGE, 0, 40⟩
def XLT_RVK_RANGE_COUNT : Fld := ⟨.XLT_RVK_RANGE, 40, 24⟩
def XLT_RVK_NEW_ATTR : Fld := ⟨.XLT_RVK_NEW, 0, 64⟩
def XLT_RVK_STAT_BUSY : Fld := ⟨.XLT_RVK_STAT, 0, 1⟩
def XLT_RVK_STAT_QUEUED : Fld := ⟨.XLT_RVK_STAT, 1, 7⟩
def XLT_RVK_STAT_DONE_TAG : Fld := ⟨.XLT_RVK_STAT, 8, 16⟩
def XLT_RVK_STAT_DONE_STATUS : Fld := ⟨.XLT_RVK_STAT, 24, 4⟩
def XLT_EXT_INDEX_INDEX : Fld := ⟨.XLT_EXT_INDEX, 0, 24⟩
def XLT_EXT_DATA0_WORD0 : Fld := ⟨.XLT_EXT_DATA0, 0, 64⟩
def XLT_EXT_DATA1_WORD1 : Fld := ⟨.XLT_EXT_DATA1, 0, 64⟩
def XLT_EXT_OP_OP : Fld := ⟨.XLT_EXT_OP, 0, 1⟩
def XLT_FLT_ENTRY_V : Fld := ⟨.XLT_FLT_ENTRY, 0, 1⟩
def XLT_FLT_ENTRY_SERIAL : Fld := ⟨.XLT_FLT_ENTRY, 1, 7⟩
def XLT_FLT_ENTRY_CTX : Fld := ⟨.XLT_FLT_ENTRY, 8, 12⟩
def XLT_FLT_ENTRY_SEG : Fld := ⟨.XLT_FLT_ENTRY, 20, 3⟩
def XLT_FLT_ENTRY_WAITERS : Fld := ⟨.XLT_FLT_ENTRY, 23, 16⟩
def XLT_FLT_ENTRY_AGE : Fld := ⟨.XLT_FLT_ENTRY, 39, 24⟩
def XLT_FLT_ENTRY_REC : Fld := ⟨.XLT_FLT_ENTRY, 63, 1⟩
def XLT_CTX_BIND_V : Fld := ⟨.XLT_CTX_BIND, 0, 1⟩
def XLT_CTX_BIND_PORT : Fld := ⟨.XLT_CTX_BIND, 1, 4⟩
def XLT_CTX_BIND_SRC_EP : Fld := ⟨.XLT_CTX_BIND, 8, 20⟩
def XLT_CTX_GEN_GEN : Fld := ⟨.XLT_CTX_GEN, 0, 16⟩
def XLT_CTX_GEN_RVK : Fld := ⟨.XLT_CTX_GEN, 16, 1⟩
def XLT_SEG_BASE_BASE_PG : Fld := ⟨.XLT_SEG_BASE, 16, 40⟩
def XLT_SEG_LEN_LEN_PG : Fld := ⟨.XLT_SEG_LEN, 0, 40⟩
def XLT_SEG_HVA_HVA_PG : Fld := ⟨.XLT_SEG_HVA, 16, 48⟩
def XLT_SEG_ATTR_V : Fld := ⟨.XLT_SEG_ATTR, 0, 1⟩
def XLT_SEG_ATTR_RD : Fld := ⟨.XLT_SEG_ATTR, 1, 1⟩
def XLT_SEG_ATTR_WR : Fld := ⟨.XLT_SEG_ATTR, 2, 1⟩
def XLT_SEG_ATTR_X : Fld := ⟨.XLT_SEG_ATTR, 3, 1⟩
def XLT_SEG_ATTR_C : Fld := ⟨.XLT_SEG_ATTR, 4, 1⟩
def XLT_SEG_ATTR_PCLASS : Fld := ⟨.XLT_SEG_ATTR, 5, 2⟩
def XLT_SEG_ATTR_STRICT : Fld := ⟨.XLT_SEG_ATTR, 7, 1⟩
def XLT_SEG_ATTR_REMOTE : Fld := ⟨.XLT_SEG_ATTR, 8, 1⟩
def XLT_SEG_ATTR_EXT_INDEX : Fld := ⟨.XLT_SEG_ATTR, 16, 24⟩
def XLT_SEG_ATTR_EXT_COUNT : Fld := ⟨.XLT_SEG_ATTR, 40, 17⟩
def XLT_ORD_CNT_REFUSE : Fld := ⟨.XLT_ORD_CNT, 0, 32⟩
def XLT_ORD_CNT_ABORT_WON : Fld := ⟨.XLT_ORD_CNT, 32, 32⟩
def XLT_VER_CTL_EN : Fld := ⟨.XLT_VER_CTL, 0, 1⟩
def XLT_VER_CMD_REGION : Fld := ⟨.XLT_VER_CMD, 0, 12⟩
def XLT_VER_CMD_SLOT : Fld := ⟨.XLT_VER_CMD, 12, 4⟩
def XLT_VER_CMD_P : Fld := ⟨.XLT_VER_CMD, 16, 1⟩
def XLT_VER_CMD_OP : Fld := ⟨.XLT_VER_CMD, 17, 2⟩
def XLT_VER_CSTAT_RESULT : Fld := ⟨.XLT_VER_CSTAT, 0, 4⟩
def XLT_VER_REMAP_USED : Fld := ⟨.XLT_VER_REMAP, 0, 23⟩
def XLT_VER_RGN_ID_V : Fld := ⟨.XLT_VER_RGN_ID, 0, 1⟩
def XLT_VER_RGN_ID_CTX : Fld := ⟨.XLT_VER_RGN_ID, 1, 12⟩
def XLT_VER_RGN_ID_SEG : Fld := ⟨.XLT_VER_RGN_ID, 13, 3⟩
def XLT_VER_RGN_ID_SHSEG : Fld := ⟨.XLT_VER_RGN_ID, 16, 3⟩
def XLT_VER_RGN_PG_FIRST_PG : Fld := ⟨.XLT_VER_RGN_PG, 0, 40⟩
def XLT_VER_RGN_PG_NPG_M1 : Fld := ⟨.XLT_VER_RGN_PG, 40, 20⟩
def XLT_VER_RGN_CFG_LIMIT_M1 : Fld := ⟨.XLT_VER_RGN_CFG, 0, 4⟩
def XLT_VER_RGN_CFG_PUBWAIT : Fld := ⟨.XLT_VER_RGN_CFG, 4, 1⟩
def XLT_VER_RGN_CFG_LEASE : Fld := ⟨.XLT_VER_RGN_CFG, 16, 16⟩
def XLT_VER_RGN_STAT_CUR_VER : Fld := ⟨.XLT_VER_RGN_STAT, 0, 32⟩
def XLT_VER_RGN_STAT_RETAINED : Fld := ⟨.XLT_VER_RGN_STAT, 32, 5⟩
def XLT_VER_RGN_STAT_PENDING : Fld := ⟨.XLT_VER_RGN_STAT, 37, 3⟩
def XLT_VER_RGN_STAT_SH_FREE : Fld := ⟨.XLT_VER_RGN_STAT, 40, 20⟩
def MOV_CH_CTX_V : Fld := ⟨.MOV_CH_CTX, 0, 1⟩
def MOV_CH_CTX_CTX : Fld := ⟨.MOV_CH_CTX, 1, 12⟩
def MOV_CH_CTX_EP : Fld := ⟨.MOV_CH_CTX, 13, 20⟩
def MOV_CH_START_HANDLE : Fld := ⟨.MOV_CH_START, 0, 64⟩
def MOV_CH_CMD_OP : Fld := ⟨.MOV_CH_CMD, 0, 2⟩
def MOV_CH_STAT_STATE : Fld := ⟨.MOV_CH_STAT, 0, 3⟩
def MOV_CH_STAT_WBF : Fld := ⟨.MOV_CH_STAT, 3, 1⟩
def MOV_CH_STAT_LAST_STATUS : Fld := ⟨.MOV_CH_STAT, 4, 4⟩
def MOV_CH_STAT_LAST_TAG : Fld := ⟨.MOV_CH_STAT, 8, 16⟩
def MOV_CH_STAT_DONE : Fld := ⟨.MOV_CH_STAT, 24, 32⟩
def MOV_CH_CUR_HANDLE : Fld := ⟨.MOV_CH_CUR, 0, 64⟩
def MOV_CH_BYTES_BYTES : Fld := ⟨.MOV_CH_BYTES, 0, 48⟩
def MOV_QSTAT_RUN : Fld := ⟨.MOV_QSTAT, 0, 16⟩
def MOV_QSTAT_HALT : Fld := ⟨.MOV_QSTAT, 16, 16⟩
def COH_CTL_EN : Fld := ⟨.COH_CTL, 0, 1⟩
def COH_CTL_SLOT : Fld := ⟨.COH_CTL, 1, 3⟩
def COH_CTL_PEERS : Fld := ⟨.COH_CTL, 4, 8⟩
def COH_CTL_SNP_TMO : Fld := ⟨.COH_CTL, 16, 4⟩
def COH_CTL_PLIST_INT : Fld := ⟨.COH_CTL, 20, 1⟩
def COH_STAT_ENTRIES : Fld := ⟨.COH_STAT, 0, 19⟩
def COH_STAT_TRK : Fld := ⟨.COH_STAT, 19, 11⟩
def COH_STAT_RCL : Fld := ⟨.COH_STAT, 30, 1⟩
def COH_CNT_BCAST : Fld := ⟨.COH_CNT, 0, 16⟩
def COH_CNT_STASH_REF : Fld := ⟨.COH_CNT, 16, 16⟩
def COH_CNT_XMATCH : Fld := ⟨.COH_CNT, 32, 16⟩
def COH_CNT_DIR_EVICT : Fld := ⟨.COH_CNT, 48, 16⟩
def COH_DEAD_CMD_AGENT : Fld := ⟨.COH_DEAD_CMD, 0, 9⟩
def COH_RCL_STAT_BUSY : Fld := ⟨.COH_RCL_STAT, 0, 1⟩
def COH_RCL_STAT_AGENT : Fld := ⟨.COH_RCL_STAT, 1, 9⟩
def COH_RCL_STAT_POISONED : Fld := ⟨.COH_RCL_STAT, 10, 32⟩
def COH_RCL_STAT_OVF : Fld := ⟨.COH_RCL_STAT, 42, 1⟩
def COH_PLIST_BASE_BASE : Fld := ⟨.COH_PLIST_BASE, 12, 52⟩
def COH_PLIST_SIZE_LOG2N : Fld := ⟨.COH_PLIST_SIZE, 0, 5⟩
def COH_PLIST_PROD_PROD : Fld := ⟨.COH_PLIST_PROD, 0, 32⟩
def COH_PLIST_CONS_CONS : Fld := ⟨.COH_PLIST_CONS, 0, 32⟩
def COH_PEER_EP_EP : Fld := ⟨.COH_PEER_EP, 0, 20⟩
def COH_AGENT_V : Fld := ⟨.COH_AGENT, 0, 1⟩
def COH_AGENT_STASH : Fld := ⟨.COH_AGENT, 1, 1⟩
def COH_AGENT_DEAD : Fld := ⟨.COH_AGENT, 2, 1⟩
def COH_AGENT_PORT : Fld := ⟨.COH_AGENT, 3, 4⟩
def COH_AGENT_EP : Fld := ⟨.COH_AGENT, 8, 20⟩
def COH_AGENT_CTX : Fld := ⟨.COH_AGENT, 28, 12⟩
def STK_CTL_EN : Fld := ⟨.STK_CTL, 0, 1⟩
def STK_CTL_SLEEP_EN : Fld := ⟨.STK_CTL, 1, 1⟩
def STK_CTL_PRED_THR : Fld := ⟨.STK_CTL, 4, 4⟩
def STK_CTL_IDLE_CLOSE : Fld := ⟨.STK_CTL, 8, 8⟩
def STK_CTL_STREAK : Fld := ⟨.STK_CTL, 16, 5⟩
def STK_CTL_IDLE_MS : Fld := ⟨.STK_CTL, 24, 8⟩
def STK_STAT_STATE : Fld := ⟨.STK_STAT, 0, 4⟩
def STK_STAT_DIES : Fld := ⟨.STK_STAT, 4, 5⟩
def STK_STAT_SIZE_GIB : Fld := ⟨.STK_STAT, 16, 8⟩
def STK_STAT_TEMP : Fld := ⟨.STK_STAT, 24, 8⟩
def STK_STAT_REF_2X : Fld := ⟨.STK_STAT, 32, 1⟩
def STK_STAT_FAILCH : Fld := ⟨.STK_STAT, 33, 6⟩
def STK_STAT_SCAN : Fld := ⟨.STK_STAT, 39, 1⟩
def STK_TIM0_TRCD : Fld := ⟨.STK_TIM0, 0, 8⟩
def STK_TIM0_TRP : Fld := ⟨.STK_TIM0, 8, 8⟩
def STK_TIM0_TRAS : Fld := ⟨.STK_TIM0, 16, 8⟩
def STK_TIM0_TRC : Fld := ⟨.STK_TIM0, 24, 8⟩
def STK_TIM0_TWTR_S : Fld := ⟨.STK_TIM0, 32, 4⟩
def STK_TIM0_TWTR_L : Fld := ⟨.STK_TIM0, 36, 4⟩
def STK_TIM0_TRTW : Fld := ⟨.STK_TIM0, 40, 4⟩
def STK_TIM1_TRRD_S : Fld := ⟨.STK_TIM1, 0, 4⟩
def STK_TIM1_TRRD_L : Fld := ⟨.STK_TIM1, 4, 4⟩
def STK_TIM1_TFAW : Fld := ⟨.STK_TIM1, 8, 8⟩
def STK_TIM1_TCCD_S : Fld := ⟨.STK_TIM1, 16, 4⟩
def STK_TIM1_TCCD_L : Fld := ⟨.STK_TIM1, 20, 4⟩
def STK_TIM1_TXS : Fld := ⟨.STK_TIM1, 24, 12⟩
def STK_REF_TRFCPB : Fld := ⟨.STK_REF, 0, 12⟩
def STK_REF_HOT_C : Fld := ⟨.STK_REF, 12, 8⟩
def STK_REF_POSTPONE : Fld := ⟨.STK_REF, 20, 4⟩
def STK_THROT_COLS : Fld := ⟨.STK_THROT, 0, 7⟩
def STK_RH_THR_LOG2 : Fld := ⟨.STK_RH, 0, 4⟩
def STK_CNT_RH_TRIG : Fld := ⟨.STK_CNT, 0, 16⟩
def STK_CNT_FREF : Fld := ⟨.STK_CNT, 16, 16⟩
def STK_CNT_URG3 : Fld := ⟨.STK_CNT, 32, 16⟩
def STK_CNT_QWAIT : Fld := ⟨.STK_CNT, 48, 16⟩
def STK_TRN_CTL_PER_MS : Fld := ⟨.STK_TRN_CTL, 0, 16⟩
def STK_TRN_CTL_DT : Fld := ⟨.STK_TRN_CTL, 16, 8⟩
def STK_TRN_CTL_SLP_DT : Fld := ⟨.STK_TRN_CTL, 24, 8⟩
def STK_TRN_CTL_START : Fld := ⟨.STK_TRN_CTL, 32, 1⟩
def STK_TRN_STAT_LAST_CH : Fld := ⟨.STK_TRN_STAT, 0, 5⟩
def STK_TRN_STAT_RESULT : Fld := ⟨.STK_TRN_STAT, 5, 2⟩
def STK_TRN_STAT_LANES_REP : Fld := ⟨.STK_TRN_STAT, 8, 8⟩
def STK_TRN_STAT_MARGIN : Fld := ⟨.STK_TRN_STAT, 16, 8⟩
def STK_TRN_STAT_PASSES : Fld := ⟨.STK_TRN_STAT, 24, 32⟩
def STK_CH_FAIL_MASK : Fld := ⟨.STK_CH_FAIL, 0, 32⟩
def STK_PLC_CTL_SRC : Fld := ⟨.STK_PLC_CTL, 0, 1⟩
def STK_PLC_CTL_MIG_EN : Fld := ⟨.STK_PLC_CTL, 1, 1⟩
def STK_PLC_CTL_HOT_THR : Fld := ⟨.STK_PLC_CTL, 8, 8⟩
def STK_PLC_CTL_COLD_THR : Fld := ⟨.STK_PLC_CTL, 16, 8⟩
def STK_PLC_CTL_DECAY_S : Fld := ⟨.STK_PLC_CTL, 24, 8⟩
def STK_PLC_CTL_MIG_RATE : Fld := ⟨.STK_PLC_CTL, 32, 8⟩
def STK_PLC_SCAN_CLASS : Fld := ⟨.STK_PLC_SCAN, 0, 2⟩
def STK_PLC_SCAN_MAX : Fld := ⟨.STK_PLC_SCAN, 8, 21⟩
def STK_PLC_RING_LOG2N : Fld := ⟨.STK_PLC_RING, 0, 5⟩
def STK_PLC_RING_BASE : Fld := ⟨.STK_PLC_RING, 12, 52⟩
def STK_PLC_PROD_PROD : Fld := ⟨.STK_PLC_PROD, 0, 32⟩
def STK_PLC_CONS_CONS : Fld := ⟨.STK_PLC_CONS, 0, 32⟩
def STK_PLC_HIST_HOT : Fld := ⟨.STK_PLC_HIST, 0, 21⟩
def STK_PLC_HIST_COLD : Fld := ⟨.STK_PLC_HIST, 21, 21⟩
def STK_PLC_HIST_PINNED : Fld := ⟨.STK_PLC_HIST, 42, 21⟩
def STK_MIG_ARG0_CTX : Fld := ⟨.STK_MIG_ARG0, 0, 12⟩
def STK_MIG_ARG0_SEG : Fld := ⟨.STK_MIG_ARG0, 12, 3⟩
def STK_MIG_ARG0_PAGE : Fld := ⟨.STK_MIG_ARG0, 15, 40⟩
def STK_MIG_ARG1_DST_PG : Fld := ⟨.STK_MIG_ARG1, 0, 21⟩
def STK_MIG_ARG1_DST_STK : Fld := ⟨.STK_MIG_ARG1, 21, 4⟩
def STK_MIG_ARG1_EXT_INDEX : Fld := ⟨.STK_MIG_ARG1, 25, 24⟩
def STK_MIG_ARG1_LAST : Fld := ⟨.STK_MIG_ARG1, 49, 1⟩
def STK_MIG_CMD_EXT_COUNT : Fld := ⟨.STK_MIG_CMD, 0, 17⟩
def STK_MIG_CMD_TAG : Fld := ⟨.STK_MIG_CMD, 32, 16⟩
def STK_MIG_STAT_STATE : Fld := ⟨.STK_MIG_STAT, 0, 2⟩
def STK_MIG_STAT_STATUS : Fld := ⟨.STK_MIG_STAT, 2, 4⟩
def STK_MIG_STAT_TAG : Fld := ⟨.STK_MIG_STAT, 6, 16⟩
def STK_MIG_STAT_POISONED : Fld := ⟨.STK_MIG_STAT, 22, 11⟩
def STK_PORT_TARGET_NS : Fld := ⟨.STK_PORT, 0, 16⟩
def STK_LAYOUT_A_P1 : Fld := ⟨.STK_LAYOUT, 0, 7⟩
def STK_LAYOUT_A_P2 : Fld := ⟨.STK_LAYOUT, 8, 7⟩
def STK_LAYOUT_B_P1 : Fld := ⟨.STK_LAYOUT, 16, 7⟩
def STK_LAYOUT_B_P2 : Fld := ⟨.STK_LAYOUT, 24, 7⟩
def STK_LAYOUT_CUR_A_P1 : Fld := ⟨.STK_LAYOUT_CUR, 0, 7⟩
def STK_LAYOUT_CUR_A_P2 : Fld := ⟨.STK_LAYOUT_CUR, 8, 7⟩
def STK_LAYOUT_CUR_B_P1 : Fld := ⟨.STK_LAYOUT_CUR, 16, 7⟩
def STK_LAYOUT_CUR_B_P2 : Fld := ⟨.STK_LAYOUT_CUR, 24, 7⟩
def STK_GRP_STAT_A_STATE : Fld := ⟨.STK_GRP_STAT, 0, 2⟩
def STK_GRP_STAT_A_STK : Fld := ⟨.STK_GRP_STAT, 2, 4⟩
def STK_GRP_STAT_B_STATE : Fld := ⟨.STK_GRP_STAT, 6, 2⟩
def STK_GRP_STAT_B_STK : Fld := ⟨.STK_GRP_STAT, 8, 4⟩
def STK_GRP_STAT_PAIR : Fld := ⟨.STK_GRP_STAT, 12, 16⟩
def STK_GRP_STAT_PAIR_MISS : Fld := ⟨.STK_GRP_STAT, 28, 8⟩
def STK_REBUILD_STK : Fld := ⟨.STK_REBUILD, 0, 4⟩
def STK_REB_STAT_BUSY : Fld := ⟨.STK_REB_STAT, 0, 1⟩
def STK_REB_STAT_STK : Fld := ⟨.STK_REB_STAT, 1, 4⟩
def STK_REB_STAT_PTR : Fld := ⟨.STK_REB_STAT, 5, 21⟩
def STK_REB_STAT_STATUS : Fld := ⟨.STK_REB_STAT, 26, 4⟩
def STK_PRT_CTL_REB_RATE : Fld := ⟨.STK_PRT_CTL, 0, 8⟩
def STK_PRT_CTL_AUTO_REB : Fld := ⟨.STK_PRT_CTL, 8, 1⟩
def STK_ECC_CTL_CODE_MS : Fld := ⟨.STK_ECC_CTL, 0, 8⟩
def STK_ECC_CTL_FOLD_MS : Fld := ⟨.STK_ECC_CTL, 8, 8⟩
def STK_ECC_CTL_WB_EN : Fld := ⟨.STK_ECC_CTL, 16, 1⟩
def STK_ECC_STAT_CDQ : Fld := ⟨.STK_ECC_STAT, 0, 13⟩
def STK_ECC_STAT_FOLD_OPEN : Fld := ⟨.STK_ECC_STAT, 13, 11⟩
def STK_ECC_STAT_FCH0 : Fld := ⟨.STK_ECC_STAT, 24, 6⟩
def STK_ECC_STAT_HCH0 : Fld := ⟨.STK_ECC_STAT, 30, 6⟩
def STK_ECC_STAT_FCH1 : Fld := ⟨.STK_ECC_STAT, 36, 6⟩
def STK_ECC_STAT_HCH1 : Fld := ⟨.STK_ECC_STAT, 42, 6⟩
def STK_ECC_STAT_RELOC : Fld := ⟨.STK_ECC_STAT, 48, 1⟩
def STK_ECC_STAT_INIT : Fld := ⟨.STK_ECC_STAT, 49, 1⟩
def STK_SCRUB_CTL_PASS_H : Fld := ⟨.STK_SCRUB_CTL, 0, 8⟩
def STK_SCRUB_CTL_BATCH_MIN : Fld := ⟨.STK_SCRUB_CTL, 8, 8⟩
def STK_SCRUB_CTL_START : Fld := ⟨.STK_SCRUB_CTL, 16, 1⟩
def STK_SCRUB_STAT_PTR : Fld := ⟨.STK_SCRUB_STAT, 0, 21⟩
def STK_SCRUB_STAT_PASSES : Fld := ⟨.STK_SCRUB_STAT, 21, 32⟩
def STK_BKT_CFG_SIZE : Fld := ⟨.STK_BKT_CFG, 0, 16⟩
def STK_BKT_CFG_LEAK_S : Fld := ⟨.STK_BKT_CFG, 16, 16⟩
def STK_BKT_LVL_LINE : Fld := ⟨.STK_BKT_LVL, 0, 16⟩
def STK_BKT_LVL_PAGE : Fld := ⟨.STK_BKT_LVL, 16, 16⟩
def STK_BKT_LVL_GRP : Fld := ⟨.STK_BKT_LVL, 32, 16⟩
def STK_BKT_OVF_LINE : Fld := ⟨.STK_BKT_OVF, 0, 1⟩
def STK_BKT_OVF_PAGE : Fld := ⟨.STK_BKT_OVF, 1, 1⟩
def STK_BKT_OVF_GRP : Fld := ⟨.STK_BKT_OVF, 2, 1⟩
def STK_UE_CNT_UE : Fld := ⟨.STK_UE_CNT, 0, 32⟩
def STK_UE_CNT_PRD : Fld := ⟨.STK_UE_CNT, 32, 32⟩
def STK_UE_LAST_FRAME : Fld := ⟨.STK_UE_LAST, 0, 21⟩
def STK_UE_LAST_LINE : Fld := ⟨.STK_UE_LAST, 21, 10⟩
def STK_UE_LAST_SRC : Fld := ⟨.STK_UE_LAST, 31, 3⟩
def STK_UE_LAST_NW : Fld := ⟨.STK_UE_LAST, 34, 1⟩
def STK_SELFTEST_DONE : Fld := ⟨.STK_SELFTEST, 0, 1⟩
def STK_SELFTEST_PASS : Fld := ⟨.STK_SELFTEST, 1, 1⟩
def STK_SELFTEST_FIRST : Fld := ⟨.STK_SELFTEST, 2, 4⟩
def STN_QCTL_AUTO_FENCE : Fld := ⟨.STN_QCTL, 0, 1⟩
def STN_QCTL_ST_AUTO : Fld := ⟨.STN_QCTL, 1, 1⟩
def STN_QSTAT_ENABLED : Fld := ⟨.STN_QSTAT, 0, 9⟩
def STN_QSTAT_SPARE : Fld := ⟨.STN_QSTAT, 9, 9⟩
def STN_QSTAT_FENCED : Fld := ⟨.STN_QSTAT, 18, 9⟩
def STN_QSTAT_RETIRED : Fld := ⟨.STN_QSTAT, 27, 9⟩
def STN_THROT_DUTY : Fld := ⟨.STN_THROT, 0, 5⟩
def STN_FENCE_CMD_SITE : Fld := ⟨.STN_FENCE_CMD, 0, 9⟩
def STN_FENCE_CMD_OP : Fld := ⟨.STN_FENCE_CMD, 9, 2⟩
def STN_FENCE_STAT_SITE : Fld := ⟨.STN_FENCE_STAT, 0, 9⟩
def STN_FENCE_STAT_RESULT : Fld := ⟨.STN_FENCE_STAT, 9, 4⟩
def STN_FENCE_STAT_ST_DONE : Fld := ⟨.STN_FENCE_STAT, 13, 1⟩
def STN_FENCE_STAT_ST_PASS : Fld := ⟨.STN_FENCE_STAT, 14, 1⟩
def STN_FENCE_STAT_ST_FIRST : Fld := ⟨.STN_FENCE_STAT, 15, 3⟩
def STN_CNT_LS_CE : Fld := ⟨.STN_CNT, 0, 16⟩
def STN_CNT_WEFT_RETRY : Fld := ⟨.STN_CNT, 16, 16⟩
def STN_CNT_IC_PE : Fld := ⟨.STN_CNT, 32, 16⟩
def STN_CNT_FENCES : Fld := ⟨.STN_CNT, 48, 16⟩
def STN_SITE_STATE : Fld := ⟨.STN_SITE, 0, 3⟩
def STN_SITE_LV : Fld := ⟨.STN_SITE, 3, 1⟩
def STN_SITE_CAUSE : Fld := ⟨.STN_SITE, 4, 3⟩
def STN_SITE_CTX : Fld := ⟨.STN_SITE, 8, 12⟩
def STN_SITE_WDROP : Fld := ⟨.STN_SITE, 48, 16⟩
def STN_TRAP0_CAUSE : Fld := ⟨.STN_TRAP0, 0, 4⟩
def STN_TRAP0_STATUS : Fld := ⟨.STN_TRAP0, 4, 4⟩
def STN_TRAP0_CODE : Fld := ⟨.STN_TRAP0, 8, 8⟩
def STN_TRAP0_PC : Fld := ⟨.STN_TRAP0, 16, 32⟩
def STN_TRAP1_INSN : Fld := ⟨.STN_TRAP1, 0, 64⟩
def STN_TRAP2_ADDR : Fld := ⟨.STN_TRAP2, 0, 64⟩
def STN_TRAP3_COUNT : Fld := ⟨.STN_TRAP3, 0, 16⟩
def STN_LOOM_CTL_V : Fld := ⟨.STN_LOOM_CTL, 0, 1⟩
def STN_LOOM_CTL_CTX : Fld := ⟨.STN_LOOM_CTL, 1, 12⟩
def STN_LOOM_CTL_EP : Fld := ⟨.STN_LOOM_CTL, 13, 20⟩
def STN_LOOM_CTL_SET : Fld := ⟨.STN_LOOM_CTL, 33, 3⟩
def STN_LOOM_CTL_SEQN : Fld := ⟨.STN_LOOM_CTL, 36, 9⟩
def STN_LOOM_IMG_HANDLE : Fld := ⟨.STN_LOOM_IMG, 0, 64⟩
def STN_LOOM_SEQT_HANDLE : Fld := ⟨.STN_LOOM_SEQT, 0, 64⟩
def STN_LOOM_KEY_KEY : Fld := ⟨.STN_LOOM_KEY, 0, 64⟩
def STN_LOOM_CMD_OP : Fld := ⟨.STN_LOOM_CMD, 0, 3⟩
def STN_LOOM_STAT_STATE : Fld := ⟨.STN_LOOM_STAT, 0, 3⟩
def STN_LOOM_STAT_ERR : Fld := ⟨.STN_LOOM_STAT, 3, 4⟩
def STN_LOOM_STAT_NSTN : Fld := ⟨.STN_LOOM_STAT, 7, 11⟩
def STN_LOOM_STAT_NDRAFT : Fld := ⟨.STN_LOOM_STAT, 18, 5⟩
def STN_LOOM_STAT_SEQ_USED : Fld := ⟨.STN_LOOM_STAT, 23, 9⟩
def STN_LOOM_STAT_RUN : Fld := ⟨.STN_LOOM_STAT, 32, 16⟩
def STN_LOOM_CNT_ADMIT : Fld := ⟨.STN_LOOM_CNT, 0, 32⟩
def STN_LOOM_CNT_RETRY : Fld := ⟨.STN_LOOM_CNT, 32, 16⟩
def STN_LOOM_CNT_REFUSE : Fld := ⟨.STN_LOOM_CNT, 48, 16⟩
def STN_LOOM_DEV_SEQ_TOTAL : Fld := ⟨.STN_LOOM_DEV, 0, 11⟩
def STN_LOOM_DEV_LOOMS : Fld := ⟨.STN_LOOM_DEV, 11, 7⟩
def STN_MEND_CTL_AUTO : Fld := ⟨.STN_MEND_CTL, 0, 1⟩
def STN_MEND_CTL_PAUSE_US : Fld := ⟨.STN_MEND_CTL, 1, 16⟩
def STN_MEND_CTL_WSTALL_MS : Fld := ⟨.STN_MEND_CTL, 17, 8⟩
def STN_MEND_STAT_LOOM : Fld := ⟨.STN_MEND_STAT, 0, 6⟩
def STN_MEND_STAT_SITE_OLD : Fld := ⟨.STN_MEND_STAT, 6, 9⟩
def STN_MEND_STAT_SITE_NEW : Fld := ⟨.STN_MEND_STAT, 15, 9⟩
def STN_MEND_STAT_QUARTER : Fld := ⟨.STN_MEND_STAT, 24, 2⟩
def STN_MEND_STAT_RESULT : Fld := ⟨.STN_MEND_STAT, 26, 4⟩
def STN_MEND_STAT_DUR_US : Fld := ⟨.STN_MEND_STAT, 30, 16⟩
def PORT_CTL_EN : Fld := ⟨.PORT_CTL, 0, 1⟩
def PORT_CTL_ROLE : Fld := ⟨.PORT_CTL, 1, 3⟩
def PORT_CTL_LISTEN : Fld := ⟨.PORT_CTL, 4, 1⟩
def PORT_CTL_LR_EN : Fld := ⟨.PORT_CTL, 5, 1⟩
def PORT_CTL_W4_EN : Fld := ⟨.PORT_CTL, 6, 1⟩
def PORT_CTL_BEACON : Fld := ⟨.PORT_CTL, 7, 1⟩
def PORT_CTL_RETRAIN_PCT : Fld := ⟨.PORT_CTL, 8, 8⟩
def PORT_CTL_REPLAY_MAX : Fld := ⟨.PORT_CTL, 16, 4⟩
def PORT_CTL_LOSS_MS : Fld := ⟨.PORT_CTL, 20, 4⟩
def PORT_CTL_RTRN_TMO : Fld := ⟨.PORT_CTL, 24, 8⟩
def PORT_LNK_STAT_STATE : Fld := ⟨.PORT_LNK_STAT, 0, 4⟩
def PORT_LNK_STAT_WIDTH4 : Fld := ⟨.PORT_LNK_STAT, 4, 1⟩
def PORT_LNK_STAT_LONG : Fld := ⟨.PORT_LNK_STAT, 5, 1⟩
def PORT_LNK_STAT_CAUSE : Fld := ⟨.PORT_LNK_STAT, 6, 3⟩
def PORT_LNK_STAT_RT_CAUSE : Fld := ⟨.PORT_LNK_STAT, 9, 2⟩
def PORT_LNK_STAT_RT_FAILS : Fld := ⟨.PORT_LNK_STAT, 11, 2⟩
def PORT_LNK_STAT_INCARN : Fld := ⟨.PORT_LNK_STAT, 16, 16⟩
def PORT_TRN_CMD_OP : Fld := ⟨.PORT_TRN_CMD, 0, 2⟩
def PORT_TIMERS_REPLAY_TMO : Fld := ⟨.PORT_TIMERS, 0, 16⟩
def PORT_TIMERS_CR_NS : Fld := ⟨.PORT_TIMERS, 16, 8⟩
def PORT_TIMERS_AUDIT : Fld := ⟨.PORT_TIMERS, 24, 8⟩
def PORT_FIBRE_LEN : Fld := ⟨.PORT_FIBRE, 0, 13⟩
def PORT_FIBRE_RTT_NS : Fld := ⟨.PORT_FIBRE, 16, 16⟩
def PORT_MARGIN_LANE : Fld := ⟨.PORT_MARGIN, 0, 64⟩
def PORT_PARTNER_ID_DEVICE_ID : Fld := ⟨.PORT_PARTNER_ID, 0, 64⟩
def PORT_PARTNER_CAP_CAP1 : Fld := ⟨.PORT_PARTNER_CAP, 0, 64⟩
def PORT_CRD_CFG_UNITS : Fld := ⟨.PORT_CRD_CFG, 0, 64⟩
def PORT_CRD_STAT_WIN_PCT : Fld := ⟨.PORT_CRD_STAT, 0, 7⟩
def PORT_CRD_STAT_WIN_VC : Fld := ⟨.PORT_CRD_STAT, 7, 3⟩
def PORT_CRD_STAT_PEND : Fld := ⟨.PORT_CRD_STAT, 10, 1⟩
def PORT_CRD_STAT_LEAKED : Fld := ⟨.PORT_CRD_STAT, 11, 16⟩
def PORT_CNT_CRC_ERR : Fld := ⟨.PORT_CNT, 0, 16⟩
def PORT_CNT_REPLAY : Fld := ⟨.PORT_CNT, 16, 16⟩
def PORT_CNT_DUP : Fld := ⟨.PORT_CNT, 32, 16⟩
def PORT_CNT_RETRAIN : Fld := ⟨.PORT_CNT, 48, 16⟩
def PORT_FEC_CNT_CORR : Fld := ⟨.PORT_FEC_CNT, 0, 32⟩
def PORT_FEC_CNT_UNCORR : Fld := ⟨.PORT_FEC_CNT, 32, 32⟩
def HUB_CTL_HOP_MAX : Fld := ⟨.HUB_CTL, 0, 5⟩
def HUB_CTL_AUTO_ALT : Fld := ⟨.HUB_CTL, 5, 1⟩
def HUB_CTL_MC_TMO : Fld := ⟨.HUB_CTL, 8, 8⟩
def HUB_CTL_DRAIN_QUIET : Fld := ⟨.HUB_CTL, 16, 8⟩
def HUB_CTL_DRAIN_TMO : Fld := ⟨.HUB_CTL, 24, 8⟩
def HUB_CNT_NOROUTE : Fld := ⟨.HUB_CNT, 0, 16⟩
def HUB_CNT_HOPS : Fld := ⟨.HUB_CNT, 16, 16⟩
def HUB_CNT_LATE : Fld := ⟨.HUB_CNT, 32, 16⟩
def HUB_CNT_DOWNED : Fld := ⟨.HUB_CNT, 48, 16⟩
def HUB_RT_CMD_OP : Fld := ⟨.HUB_RT_CMD, 0, 2⟩
def HUB_RT_STAT_EPOCH : Fld := ⟨.HUB_RT_STAT, 0, 1⟩
def HUB_RT_STAT_LOCK : Fld := ⟨.HUB_RT_STAT, 1, 1⟩
def HUB_RT_STAT_DRAINED : Fld := ⟨.HUB_RT_STAT, 2, 1⟩
def HUB_RT_STAT_TMO : Fld := ⟨.HUB_RT_STAT, 3, 1⟩
def HUB_RT_STAT_BUSY : Fld := ⟨.HUB_RT_STAT, 4, 1⟩
def HUB_RT_STAT_HELD : Fld := ⟨.HUB_RT_STAT, 16, 16⟩
def HUB_RT_STAT_FLIPS : Fld := ⟨.HUB_RT_STAT, 32, 32⟩
def HUB_RT_INDEX_INDEX : Fld := ⟨.HUB_RT_INDEX, 0, 14⟩
def HUB_RT_INDEX_VER : Fld := ⟨.HUB_RT_INDEX, 16, 1⟩
def HUB_RT_DATA_ENTRY : Fld := ⟨.HUB_RT_DATA, 0, 64⟩
def HUB_RT_OP_OP : Fld := ⟨.HUB_RT_OP, 0, 2⟩
def HUB_RT_DEF_PORT : Fld := ⟨.HUB_RT_DEF, 0, 4⟩
def HUB_RT_DEF_V : Fld := ⟨.HUB_RT_DEF, 4, 1⟩
def HUB_MC_INDEX_GROUP : Fld := ⟨.HUB_MC_INDEX, 0, 10⟩
def HUB_MC_INDEX_VER : Fld := ⟨.HUB_MC_INDEX, 16, 1⟩
def HUB_MC_DATA_PMASK : Fld := ⟨.HUB_MC_DATA, 0, 14⟩
def HUB_MC_DATA_LOCAL : Fld := ⟨.HUB_MC_DATA, 14, 1⟩
def HUB_MC_DATA_V : Fld := ⟨.HUB_MC_DATA, 15, 1⟩
def HUB_MC_OP_OP : Fld := ⟨.HUB_MC_OP, 0, 1⟩
def HUB_TIME_CTL_SRC : Fld := ⟨.HUB_TIME_CTL, 0, 2⟩
def HUB_TIME_CTL_SRC_PORT : Fld := ⟨.HUB_TIME_CTL, 2, 4⟩
def HUB_TIME_CTL_DOMAIN : Fld := ⟨.HUB_TIME_CTL, 8, 8⟩
def HUB_TIME_CTL_SYNC_US : Fld := ⟨.HUB_TIME_CTL, 16, 16⟩
def HUB_TIME_STAT_LOCK : Fld := ⟨.HUB_TIME_STAT, 0, 1⟩
def HUB_TIME_STAT_OFFSET : Fld := ⟨.HUB_TIME_STAT, 8, 24⟩
def HUB_TIME_STAT_STEPS : Fld := ⟨.HUB_TIME_STAT, 32, 16⟩
def HUB_TIME_SET_NS : Fld := ⟨.HUB_TIME_SET, 0, 64⟩
def HUB_MC_FMASK_FMASK : Fld := ⟨.HUB_MC_FMASK, 0, 14⟩
def HUB_MC_FMASK_FLOCAL : Fld := ⟨.HUB_MC_FMASK, 14, 1⟩
def HUB_MC_GCNT_FENCED : Fld := ⟨.HUB_MC_GCNT, 0, 32⟩
def HUB_MC_GCNT_LOST : Fld := ⟨.HUB_MC_GCNT, 32, 32⟩
def HUB_POL_CFG_ACTION : Fld := ⟨.HUB_POL_CFG, 0, 2⟩
def HUB_POL_CFG_RATE : Fld := ⟨.HUB_POL_CFG, 2, 24⟩
def HUB_POL_CFG_BURST : Fld := ⟨.HUB_POL_CFG, 26, 25⟩
def HUB_POL_CFG_FILL : Fld := ⟨.HUB_POL_CFG, 51, 1⟩
def HUB_POL_CNT_MARKED : Fld := ⟨.HUB_POL_CNT, 0, 32⟩
def HUB_POL_CNT_DROPPED : Fld := ⟨.HUB_POL_CNT, 32, 32⟩
def HUB_QSEL_QUEUE : Fld := ⟨.HUB_QSEL, 0, 9⟩
def HUB_QSEL_QALT : Fld := ⟨.HUB_QSEL, 16, 9⟩
def PORT_EGR_CTL_GUARD : Fld := ⟨.PORT_EGR_CTL, 0, 1⟩
def PORT_EGR_CTL_SAMPLE : Fld := ⟨.PORT_EGR_CTL, 8, 8⟩
def PORT_GATE_CTL_LEN0 : Fld := ⟨.PORT_GATE_CTL, 0, 9⟩
def PORT_GATE_CTL_LEN1 : Fld := ⟨.PORT_GATE_CTL, 16, 9⟩
def PORT_GATE_CTL_ACT : Fld := ⟨.PORT_GATE_CTL, 32, 1⟩
def PORT_GATE_CTL_PEND : Fld := ⟨.PORT_GATE_CTL, 33, 1⟩
def PORT_GATE_BASE_NS : Fld := ⟨.PORT_GATE_BASE, 0, 64⟩
def PORT_GATE_STAT_ENTRY : Fld := ⟨.PORT_GATE_STAT, 0, 8⟩
def PORT_GATE_STAT_OPEN : Fld := ⟨.PORT_GATE_STAT, 8, 8⟩
def PORT_GATE_STAT_UNLOCKED : Fld := ⟨.PORT_GATE_STAT, 16, 1⟩
def PORT_GATE_STAT_CYCLES : Fld := ⟨.PORT_GATE_STAT, 32, 32⟩
def PORT_Q_CFG_GC : Fld := ⟨.PORT_Q_CFG, 0, 3⟩
def PORT_Q_CFG_SHEN : Fld := ⟨.PORT_Q_CFG, 3, 1⟩
def PORT_Q_CFG_RATE : Fld := ⟨.PORT_Q_CFG, 4, 24⟩
def PORT_Q_CFG_OVH : Fld := ⟨.PORT_Q_CFG, 28, 8⟩
def PORT_Q_CFG_BURST : Fld := ⟨.PORT_Q_CFG, 36, 25⟩
def PORT_Q_CFG_FILL : Fld := ⟨.PORT_Q_CFG, 61, 1⟩
def PORT_Q_STAT_MAXDEPTH : Fld := ⟨.PORT_Q_STAT, 0, 24⟩
def PORT_Q_STAT_MAXDELAY : Fld := ⟨.PORT_Q_STAT, 24, 32⟩
def PORT_GATE_LIST_MASK : Fld := ⟨.PORT_GATE_LIST, 0, 8⟩
def PORT_GATE_LIST_DUR_NS : Fld := ⟨.PORT_GATE_LIST, 8, 32⟩
def PORT_HIST_DEPTH : Fld := ⟨.PORT_HIST, 0, 32⟩
def PORT_HIST_DELAY : Fld := ⟨.PORT_HIST, 32, 32⟩
def PORT_AUTH_CTL_ANY : Fld := ⟨.PORT_AUTH_CTL, 0, 1⟩
def PORT_AUTH_CNT_DENIED : Fld := ⟨.PORT_AUTH_CNT, 0, 32⟩
def PORT_AUTH_CNT_DISCARD : Fld := ⟨.PORT_AUTH_CNT, 32, 32⟩
def PORT_ALLOW_KEY : Fld := ⟨.PORT_ALLOW, 0, 20⟩
def PORT_ALLOW_BLOCK : Fld := ⟨.PORT_ALLOW, 20, 1⟩
def PORT_ALLOW_V : Fld := ⟨.PORT_ALLOW, 63, 1⟩
def TL_CTL_PRI : Fld := ⟨.TL_CTL, 0, 1⟩
def TL_CTL_HRD_TMO : Fld := ⟨.TL_CTL, 8, 8⟩
def TL_CTL_EVT_INT : Fld := ⟨.TL_CTL, 16, 1⟩
def TL_STAT_UP0 : Fld := ⟨.TL_STAT, 0, 1⟩
def TL_STAT_UP1 : Fld := ⟨.TL_STAT, 1, 1⟩
def TL_STAT_ACTIVE : Fld := ⟨.TL_STAT, 2, 1⟩
def TL_STAT_NONE : Fld := ⟨.TL_STAT, 3, 1⟩
def TL_STAT_UNACK : Fld := ⟨.TL_STAT, 4, 11⟩
def TL_STAT_HELD : Fld := ⟨.TL_STAT, 16, 13⟩
def TL_EVT_BASE_BASE : Fld := ⟨.TL_EVT_BASE, 12, 52⟩
def TL_EVT_SIZE_LOG2N : Fld := ⟨.TL_EVT_SIZE, 0, 5⟩
def TL_EVT_PROD_PROD : Fld := ⟨.TL_EVT_PROD, 0, 32⟩
def TL_EVT_CONS_CONS : Fld := ⟨.TL_EVT_CONS, 0, 32⟩
def TL_EVT_STAT_WAITING : Fld := ⟨.TL_EVT_STAT, 0, 11⟩
def TL_EVT_STAT_LOST : Fld := ⟨.TL_EVT_STAT, 11, 32⟩
def TL_CNT_RESENT : Fld := ⟨.TL_CNT, 0, 16⟩
def TL_CNT_RDRETRY : Fld := ⟨.TL_CNT, 16, 16⟩
def TL_CNT_RDFAIL : Fld := ⟨.TL_CNT, 32, 16⟩
def TL_WIN_BASE_BASE : Fld := ⟨.TL_WIN_BASE, 12, 52⟩
def TL_WIN_LEN_LEN_4K : Fld := ⟨.TL_WIN_LEN, 0, 32⟩
def TL_WIN_LEN_RD : Fld := ⟨.TL_WIN_LEN, 32, 1⟩
def TL_WIN_LEN_WR : Fld := ⟨.TL_WIN_LEN, 33, 1⟩
def SEC_CTL_STRICT : Fld := ⟨.SEC_CTL, 0, 1⟩
def SEC_CTL_REL_RATE : Fld := ⟨.SEC_CTL, 6, 10⟩
def SEC_CTL_KEX_S : Fld := ⟨.SEC_CTL, 16, 8⟩
def SEC_STAT_CONF : Fld := ⟨.SEC_STAT, 0, 1⟩
def SEC_STAT_STRICT : Fld := ⟨.SEC_STAT, 1, 1⟩
def SEC_STAT_DEBUG_EFF : Fld := ⟨.SEC_STAT, 2, 1⟩
def SEC_STAT_TRANS : Fld := ⟨.SEC_STAT, 3, 1⟩
def SEC_STAT_AK_READY : Fld := ⟨.SEC_STAT, 4, 1⟩
def SEC_STAT_AK_NEXT : Fld := ⟨.SEC_STAT, 5, 1⟩
def SEC_STAT_QRST : Fld := ⟨.SEC_STAT, 6, 4⟩
def SEC_VER_UGEN : Fld := ⟨.SEC_VER, 0, 32⟩
def SEC_VER_FLOOR : Fld := ⟨.SEC_VER, 32, 12⟩
def SEC_IDX_AK_IDX : Fld := ⟨.SEC_IDX, 0, 32⟩
def SEC_IDX_ID_IDX : Fld := ⟨.SEC_IDX, 32, 32⟩
def SEC_DEBUG_DEBUG : Fld := ⟨.SEC_DEBUG, 0, 1⟩
def SEC_LEDGER_DEBUG_LEFT : Fld := ⟨.SEC_LEDGER, 0, 3⟩
def SEC_LEDGER_LAYOUT_LEFT : Fld := ⟨.SEC_LEDGER, 3, 5⟩
def SEC_LEDGER_OWNER_LEFT : Fld := ⟨.SEC_LEDGER, 8, 4⟩
def SEC_LEDGER_LSEQ : Fld := ⟨.SEC_LEDGER, 32, 32⟩
def SEC_REL_CMD_EXT_INDEX : Fld := ⟨.SEC_REL_CMD, 0, 24⟩
def SEC_REL_CMD_EXT_COUNT : Fld := ⟨.SEC_REL_CMD, 24, 17⟩
def SEC_REL_CMD_TAG : Fld := ⟨.SEC_REL_CMD, 48, 16⟩
def SEC_REL_STAT_BUSY : Fld := ⟨.SEC_REL_STAT, 0, 1⟩
def SEC_REL_STAT_QUEUED : Fld := ⟨.SEC_REL_STAT, 1, 5⟩
def SEC_REL_STAT_DONE_TAG : Fld := ⟨.SEC_REL_STAT, 6, 16⟩
def SEC_REL_STAT_DONE_STATUS : Fld := ⟨.SEC_REL_STAT, 22, 4⟩
def SEC_CNT_COLOUR_DENY : Fld := ⟨.SEC_CNT, 0, 16⟩
def SEC_CNT_REL_HIT : Fld := ⟨.SEC_CNT, 16, 16⟩
def SEC_CNT_KEX_FAIL : Fld := ⟨.SEC_CNT, 32, 16⟩
def SEC_CNT_TAG_FAIL : Fld := ⟨.SEC_CNT, 48, 16⟩
def SEC_SESS_STAT_STATE : Fld := ⟨.SEC_SESS_STAT, 0, 2⟩
def SEC_SESS_STAT_CAUSE : Fld := ⟨.SEC_SESS_STAT, 2, 3⟩
def SEC_SESS_STAT_CTX : Fld := ⟨.SEC_SESS_STAT, 5, 12⟩
def SEC_BNC_RING_LOG2N : Fld := ⟨.SEC_BNC_RING, 0, 5⟩
def SEC_BNC_RING_BASE : Fld := ⟨.SEC_BNC_RING, 12, 52⟩
def SEC_BNC_TAIL_TAIL : Fld := ⟨.SEC_BNC_TAIL, 0, 32⟩
def SEC_BNC_HEAD_HEAD : Fld := ⟨.SEC_BNC_HEAD, 0, 32⟩
def SEC_MR_VALUE : Fld := ⟨.SEC_MR, 0, 64⟩
def SEC_CTX_CEN : Fld := ⟨.SEC_CTX, 0, 1⟩
def SEC_CTX_COLOUR : Fld := ⟨.SEC_CTX, 1, 2⟩
def SEC_OBS_CE : Fld := ⟨.SEC_OBS, 0, 16⟩
def SEC_OBS_CE_SEG : Fld := ⟨.SEC_OBS, 16, 3⟩
def SEC_OBS_CE_PAGE : Fld := ⟨.SEC_OBS, 20, 24⟩
def SEC_OBS_THR_KCYC : Fld := ⟨.SEC_OBS, 44, 20⟩
def INTC_CTL_GDIS : Fld := ⟨.INTC_CTL, 0, 1⟩
def INTC_STAT_READY : Fld := ⟨.INTC_STAT, 0, 32⟩
def INTC_STAT_SERV : Fld := ⟨.INTC_STAT, 32, 32⟩
def INTC_GRP_CMPL_GROUP : Fld := ⟨.INTC_GRP_CMPL, 0, 5⟩
def INTC_SW_SET_N : Fld := ⟨.INTC_SW_SET, 0, 9⟩
def INTC_CORE_MASK : Fld := ⟨.INTC_CORE, 0, 1⟩
def INTC_CORE_ASLEEP : Fld := ⟨.INTC_CORE, 1, 1⟩
def INTC_CORE_PEND : Fld := ⟨.INTC_CORE, 32, 32⟩
def INTC_GRP_CFG_HOLDOFF_US : Fld := ⟨.INTC_GRP_CFG, 0, 16⟩
def INTC_GRP_CFG_TGT : Fld := ⟨.INTC_GRP_CFG, 16, 2⟩
def INTC_GRP_CFG_VEC : Fld := ⟨.INTC_GRP_CFG, 18, 6⟩
def INTC_GRP_CFG_LOOM : Fld := ⟨.INTC_GRP_CFG, 24, 6⟩
def INTC_GRP_CFG_ENTRY : Fld := ⟨.INTC_GRP_CFG, 30, 4⟩
def INTC_GRP_CFG_AUTOC : Fld := ⟨.INTC_GRP_CFG, 34, 1⟩
def INTC_GRP_ARG_HANDLE : Fld := ⟨.INTC_GRP_ARG, 0, 64⟩
def INTC_GRP_STAT_SERV : Fld := ⟨.INTC_GRP_STAT, 0, 1⟩
def INTC_GRP_STAT_ERR : Fld := ⟨.INTC_GRP_STAT, 1, 1⟩
def INTC_GRP_STAT_HOLD_LEFT : Fld := ⟨.INTC_GRP_STAT, 2, 16⟩
def INTC_GRP_STAT_DELIV : Fld := ⟨.INTC_GRP_STAT, 18, 32⟩
def INTC_SRC_PEND_PEND : Fld := ⟨.INTC_SRC_PEND, 0, 64⟩
def INTC_SRC_SERV_SERV : Fld := ⟨.INTC_SRC_SERV, 0, 64⟩
def INTC_SRC_RAW_RAW : Fld := ⟨.INTC_SRC_RAW, 0, 64⟩
def INTC_SRC_CFG_EN : Fld := ⟨.INTC_SRC_CFG, 0, 1⟩
def INTC_SRC_CFG_GRP : Fld := ⟨.INTC_SRC_CFG, 1, 5⟩
def INTC_SRC_CFG_LEVEL : Fld := ⟨.INTC_SRC_CFG, 6, 1⟩
def CHK_CTL_EN : Fld := ⟨.CHK_CTL, 0, 1⟩
def CHK_CTL_REFIN : Fld := ⟨.CHK_CTL, 1, 1⟩
def CHK_CTL_REFOUT : Fld := ⟨.CHK_CTL, 2, 1⟩
def CHK_CTL_AUTO : Fld := ⟨.CHK_CTL, 3, 1⟩
def CHK_CTL_WIDTH_M1 : Fld := ⟨.CHK_CTL, 4, 6⟩
def CHK_SEL_KIND : Fld := ⟨.CHK_SEL, 0, 2⟩
def CHK_SEL_QUARTER : Fld := ⟨.CHK_SEL, 2, 2⟩
def CHK_SEL_IDX : Fld := ⟨.CHK_SEL, 4, 9⟩
def CHK_SEL_DIR : Fld := ⟨.CHK_SEL, 13, 1⟩
def CHK_SEL_CHMASK : Fld := ⟨.CHK_SEL, 14, 8⟩
def CHK_SEL_CTXV : Fld := ⟨.CHK_SEL, 22, 1⟩
def CHK_SEL_CTX : Fld := ⟨.CHK_SEL, 23, 12⟩
def CHK_SEL_EPV : Fld := ⟨.CHK_SEL, 35, 1⟩
def CHK_SEL_EP : Fld := ⟨.CHK_SEL, 36, 20⟩
def CHK_SEL_EPBLK : Fld := ⟨.CHK_SEL, 56, 1⟩
def CHK_POLY_VALUE : Fld := ⟨.CHK_POLY, 0, 64⟩
def CHK_INIT_VALUE : Fld := ⟨.CHK_INIT, 0, 64⟩
def CHK_XOROUT_VALUE : Fld := ⟨.CHK_XOROUT, 0, 64⟩
def CHK_EXPECT_VALUE : Fld := ⟨.CHK_EXPECT, 0, 64⟩
def CHK_RUN_RUN : Fld := ⟨.CHK_RUN, 0, 64⟩
def CHK_LEN_LEN : Fld := ⟨.CHK_LEN, 0, 48⟩
def CHK_COUNT_COUNT : Fld := ⟨.CHK_COUNT, 0, 48⟩
def CHK_RESULT_RESULT : Fld := ⟨.CHK_RESULT, 0, 64⟩
def CHK_STAT_DONE : Fld := ⟨.CHK_STAT, 0, 1⟩
def CHK_STAT_MISMATCH : Fld := ⟨.CHK_STAT, 1, 1⟩
def CHK_STAT_POISON : Fld := ⟨.CHK_STAT, 2, 1⟩
def CHK_STAT_MISMATCHES : Fld := ⟨.CHK_STAT, 16, 16⟩
def CHK_CMD_OP : Fld := ⟨.CHK_CMD, 0, 2⟩
def EVR_CTL_PERIOD_H : Fld := ⟨.EVR_CTL, 0, 8⟩
def EVR_CTL_CKPT_MIN : Fld := ⟨.EVR_CTL, 8, 8⟩
def EVR_STAT_HEAD : Fld := ⟨.EVR_STAT, 0, 14⟩
def EVR_STAT_COUNT : Fld := ⟨.EVR_STAT, 14, 15⟩
def EVR_STAT_CLEARS : Fld := ⟨.EVR_STAT, 29, 7⟩
def EVR_STAT_BUSY : Fld := ⟨.EVR_STAT, 36, 1⟩
def EVR_STAT_CLR_SEQ : Fld := ⟨.EVR_STAT, 48, 16⟩
def EVR_OPS_OP_S : Fld := ⟨.EVR_OPS, 0, 32⟩
def EVR_OPS_PCYC : Fld := ⟨.EVR_OPS, 32, 32⟩
def EVR_TIME_HOURS : Fld := ⟨.EVR_TIME, 0, 21⟩
def EVR_TIME_SECS : Fld := ⟨.EVR_TIME, 21, 12⟩
def EVR_CURSOR_SLOT : Fld := ⟨.EVR_CURSOR, 0, 14⟩
def EVR_CNT_WRAPS : Fld := ⟨.EVR_CNT, 0, 32⟩
def EVR_CNT_NVERR : Fld := ⟨.EVR_CNT, 32, 16⟩
def PWR_CTL_CAP_W : Fld := ⟨.PWR_CTL, 0, 12⟩
def PWR_CTL_HYST_W : Fld := ⟨.PWR_CTL, 12, 8⟩
def PWR_CTL_STEP_W : Fld := ⟨.PWR_CTL, 20, 8⟩
def PWR_CTL_PERIOD_US : Fld := ⟨.PWR_CTL, 28, 8⟩
def PWR_CTL_DOWN_MS : Fld := ⟨.PWR_CTL, 36, 8⟩
def PWR_LEVEL_LEVEL : Fld := ⟨.PWR_LEVEL, 0, 5⟩
def PWR_LEVEL_DUTY_EFF : Fld := ⟨.PWR_LEVEL, 5, 5⟩
def PWR_LEVEL_COLS_EFF : Fld := ⟨.PWR_LEVEL, 10, 7⟩
def PWR_LEVEL_LIMIT : Fld := ⟨.PWR_LEVEL, 17, 1⟩
def PWR_LEVEL_TRIP : Fld := ⟨.PWR_LEVEL, 18, 1⟩
def PWR_STAT_P_IN_W : Fld := ⟨.PWR_STAT, 0, 12⟩
def PWR_STAT_V_IN : Fld := ⟨.PWR_STAT, 12, 13⟩
def PWR_STAT_UV : Fld := ⟨.PWR_STAT, 25, 1⟩
def PWR_STAT_OV : Fld := ⟨.PWR_STAT, 26, 1⟩
def PWR_STAT_OVERCAP : Fld := ⟨.PWR_STAT, 27, 1⟩
def PWR_LIMIT_MAX_W : Fld := ⟨.PWR_LIMIT, 0, 12⟩
def PWR_LIMIT_LIM_DUTY : Fld := ⟨.PWR_LIMIT, 12, 5⟩
def PWR_FAN_DUTY0 : Fld := ⟨.PWR_FAN, 0, 7⟩
def PWR_FAN_DUTY1 : Fld := ⟨.PWR_FAN, 8, 7⟩
def PWR_THERM_DIE_WARN_C : Fld := ⟨.PWR_THERM, 0, 8⟩
def PWR_THERM_STK_WARN_C : Fld := ⟨.PWR_THERM, 8, 8⟩
def PWR_THERM_DIE_TRIP_C : Fld := ⟨.PWR_THERM, 16, 8⟩
def PWR_THERM_STK_TRIP_C : Fld := ⟨.PWR_THERM, 24, 8⟩
def PWR_TEMP_DIE_MAX : Fld := ⟨.PWR_TEMP, 0, 8⟩
def PWR_TEMP_DIE_Q : Fld := ⟨.PWR_TEMP, 8, 2⟩
def PWR_TEMP_STK_MAX : Fld := ⟨.PWR_TEMP, 10, 8⟩
def PWR_TEMP_STK_ID : Fld := ⟨.PWR_TEMP, 18, 4⟩
def PWR_LP_CTL_FW_EN : Fld := ⟨.PWR_LP_CTL, 0, 1⟩
def PWR_LP_CTL_FW_US : Fld := ⟨.PWR_LP_CTL, 1, 16⟩
def PWR_LP_CTL_DEEP_EN : Fld := ⟨.PWR_LP_CTL, 17, 1⟩
def PWR_LP_CTL_DEEP_MS : Fld := ⟨.PWR_LP_CTL, 18, 16⟩
def PWR_LP_CMD_OP : Fld := ⟨.PWR_LP_CMD, 0, 1⟩
def PWR_LP_STAT_GATED : Fld := ⟨.PWR_LP_STAT, 0, 4⟩
def PWR_LP_STAT_WAITING : Fld := ⟨.PWR_LP_STAT, 4, 1⟩
def PWR_LP_STAT_WAKES : Fld := ⟨.PWR_LP_STAT, 16, 32⟩
def PWR_STATPIN_CODE : Fld := ⟨.PWR_STATPIN, 0, 4⟩
def PWR_RAIL_MEAS_MV : Fld := ⟨.PWR_RAIL, 0, 16⟩
def PWR_RAIL_SET_MV : Fld := ⟨.PWR_RAIL, 16, 16⟩
def PWR_RAIL_UV : Fld := ⟨.PWR_RAIL, 32, 1⟩
def PWR_RAIL_OV : Fld := ⟨.PWR_RAIL, 33, 1⟩
def PWR_RAIL_FAULT : Fld := ⟨.PWR_RAIL, 34, 1⟩
def CLK_DOM_GATED : Fld := ⟨.CLK_DOM, 0, 1⟩
def CLK_DOM_LOCK : Fld := ⟨.CLK_DOM, 1, 1⟩
def CLK_DOM_FREQ_KHZ : Fld := ⟨.CLK_DOM, 2, 24⟩
def CLK_DOM_LOSSES : Fld := ⟨.CLK_DOM, 26, 16⟩
def CLK_STAT_REF_OK : Fld := ⟨.CLK_STAT, 0, 1⟩
def CLK_STAT_HOLDOVER : Fld := ⟨.CLK_STAT, 1, 1⟩
def TDM_ROLE_CAPT : Fld := ⟨.TDM_ROLE, 0, 1⟩
def TDM_ROLE_MODE : Fld := ⟨.TDM_ROLE, 1, 2⟩
def TDM_ROLE_SINGLE : Fld := ⟨.TDM_ROLE, 3, 1⟩
def TDM_ROLE_OVL : Fld := ⟨.TDM_ROLE, 4, 1⟩
def TDM_CMD_OP : Fld := ⟨.TDM_CMD, 0, 2⟩
def TDM_LEASE_ACQ : Fld := ⟨.TDM_LEASE, 0, 1⟩
def TDM_LEASE_HOLDER : Fld := ⟨.TDM_LEASE, 1, 2⟩
def TDM_LEASE_LEFT_US : Fld := ⟨.TDM_LEASE, 3, 16⟩
def TDM_HB_HB_US : Fld := ⟨.TDM_HB, 0, 16⟩
def TDM_HB_MISS : Fld := ⟨.TDM_HB, 16, 4⟩
def TDM_HB_BEAT : Fld := ⟨.TDM_HB, 20, 1⟩
def TDM_ACT0_ASEQ : Fld := ⟨.TDM_ACT0, 0, 32⟩
def TDM_ACT0_OFFSET : Fld := ⟨.TDM_ACT0, 32, 26⟩
def TDM_ACT1_VALUE : Fld := ⟨.TDM_ACT1, 0, 64⟩
def TDM_ASEQ_APPLIED : Fld := ⟨.TDM_ASEQ, 0, 32⟩
def TDM_STAT_GAP_US : Fld := ⟨.TDM_STAT, 0, 16⟩
def TDM_STAT_SWITCHES : Fld := ⟨.TDM_STAT, 16, 32⟩
def TDM_STAT_CAUSE : Fld := ⟨.TDM_STAT, 48, 4⟩
def TDM_STAT_STALE : Fld := ⟨.TDM_STAT, 52, 12⟩
def TDM_JRNL_A_ASEQ : Fld := ⟨.TDM_JRNL_A, 0, 32⟩
def TDM_JRNL_A_OFFSET : Fld := ⟨.TDM_JRNL_A, 32, 26⟩
def TDM_JRNL_V_VALUE : Fld := ⟨.TDM_JRNL_V, 0, 64⟩
def GLB_ID_DEVICE_ID : Fld := ⟨.GLB_ID, 0, 64⟩
def GLB_PART_PART : Fld := ⟨.GLB_PART, 0, 16⟩
def GLB_PART_STEPPING : Fld := ⟨.GLB_PART, 16, 8⟩
def GLB_PART_ROM_VER : Fld := ⟨.GLB_PART, 24, 8⟩
def GLB_PART_FW_VER : Fld := ⟨.GLB_PART, 32, 16⟩
def GLB_STAT_READY : Fld := ⟨.GLB_STAT, 0, 1⟩
def GLB_STAT_STEP : Fld := ⟨.GLB_STAT, 1, 4⟩
def GLB_STAT_WAIT_IMG : Fld := ⟨.GLB_STAT, 5, 1⟩
def GLB_STAT_WARM : Fld := ⟨.GLB_STAT, 6, 1⟩
def GLB_STAT_FW_ALT : Fld := ⟨.GLB_STAT, 7, 1⟩
def GLB_STAT_IMG_ERR : Fld := ⟨.GLB_STAT, 8, 4⟩
def GLB_STAT_IMG_CAUSE : Fld := ⟨.GLB_STAT, 12, 4⟩
def GLB_STAT_IMG_ENT : Fld := ⟨.GLB_STAT, 16, 16⟩
def GLB_STAT_QRST : Fld := ⟨.GLB_STAT, 32, 4⟩
def GLB_STAT_QHOLD : Fld := ⟨.GLB_STAT, 36, 4⟩
def GLB_RST_CMD_OP : Fld := ⟨.GLB_RST_CMD, 0, 2⟩
def GLB_RST_CMD_Q : Fld := ⟨.GLB_RST_CMD, 2, 2⟩
def GLB_RST_CMD_CONFIRM : Fld := ⟨.GLB_RST_CMD, 8, 8⟩
def GLB_RST_STAT_PKG_CAUSE : Fld := ⟨.GLB_RST_STAT, 0, 4⟩
def GLB_RST_STAT_WARMS : Fld := ⟨.GLB_RST_STAT, 4, 16⟩
def GLB_RST_STAT_Q_LAST : Fld := ⟨.GLB_RST_STAT, 20, 2⟩
def GLB_RST_STAT_Q_CAUSE : Fld := ⟨.GLB_RST_STAT, 22, 4⟩
def GLB_RST_STAT_QRESETS : Fld := ⟨.GLB_RST_STAT, 26, 16⟩
def GLB_RST_STAT_PKGS : Fld := ⟨.GLB_RST_STAT, 42, 16⟩
def GLB_IMG_BASE_BASE : Fld := ⟨.GLB_IMG_BASE, 12, 52⟩
def GLB_IMG_LEN_LEN : Fld := ⟨.GLB_IMG_LEN, 0, 21⟩
def GLB_IMG_LEN_AUTO : Fld := ⟨.GLB_IMG_LEN, 21, 1⟩
def GLB_IMG_CMD_LOAD : Fld := ⟨.GLB_IMG_CMD, 0, 1⟩
def GLB_IMG_STAT_V : Fld := ⟨.GLB_IMG_STAT, 0, 1⟩
def GLB_IMG_STAT_CONF : Fld := ⟨.GLB_IMG_STAT, 1, 1⟩
def GLB_IMG_STAT_NENT : Fld := ⟨.GLB_IMG_STAT, 2, 16⟩
def GLB_IMG_STAT_IGEN : Fld := ⟨.GLB_IMG_STAT, 18, 32⟩
def GLB_SCRATCH_VALUE : Fld := ⟨.GLB_SCRATCH, 0, 64⟩

end F

/-- The fields of each register with their access types (the field tables). -/
def RegName.fields : RegName → List (Fld × Acc)
  | .XLT_CTL => [(F.XLT_CTL_EN, .rw), (F.XLT_CTL_FLT_TMO, .rw), (F.XLT_CTL_FLT_INT, .rw)]
  | .XLT_QSTAT => [(F.XLT_QSTAT_WALK_BUSY, .ro), (F.XLT_QSTAT_MISSQ, .ro), (F.XLT_QSTAT_FLT_USED, .ro), (F.XLT_QSTAT_LOG_FULL, .ro)]
  | .XLT_QCNT => [(F.XLT_QCNT_L2_MISS, .rc), (F.XLT_QCNT_DENY, .rc)]
  | .XLT_FLT_LOG_BASE => [(F.XLT_FLT_LOG_BASE_BASE, .rw)]
  | .XLT_FLT_LOG_SIZE => [(F.XLT_FLT_LOG_SIZE_LOG2N, .rw)]
  | .XLT_FLT_PROD => [(F.XLT_FLT_PROD_PROD, .ro)]
  | .XLT_FLT_CONS => [(F.XLT_FLT_CONS_CONS, .rw)]
  | .XLT_FLT_RESUME => [(F.XLT_FLT_RESUME_FID, .wo), (F.XLT_FLT_RESUME_ACTION, .wo)]
  | .XLT_FLT_RSTAT => [(F.XLT_FLT_RSTAT_FID, .ro), (F.XLT_FLT_RSTAT_RESULT, .ro), (F.XLT_FLT_RSTAT_WAITERS, .ro)]
  | .XLT_RVK_CMD => [(F.XLT_RVK_CMD_CTX, .wo), (F.XLT_RVK_CMD_SEG, .wo), (F.XLT_RVK_CMD_TYPE, .wo), (F.XLT_RVK_CMD_TAG, .wo)]
  | .XLT_RVK_RANGE => [(F.XLT_RVK_RANGE_FIRST, .rw), (F.XLT_RVK_RANGE_COUNT, .rw)]
  | .XLT_RVK_NEW => [(F.XLT_RVK_NEW_ATTR, .rw)]
  | .XLT_RVK_STAT => [(F.XLT_RVK_STAT_BUSY, .ro), (F.XLT_RVK_STAT_QUEUED, .ro), (F.XLT_RVK_STAT_DONE_TAG, .ro), (F.XLT_RVK_STAT_DONE_STATUS, .ro)]
  | .XLT_EXT_INDEX => [(F.XLT_EXT_INDEX_INDEX, .rw)]
  | .XLT_EXT_DATA0 => [(F.XLT_EXT_DATA0_WORD0, .rw)]
  | .XLT_EXT_DATA1 => [(F.XLT_EXT_DATA1_WORD1, .rw)]
  | .XLT_EXT_OP => [(F.XLT_EXT_OP_OP, .wo)]
  | .XLT_FLT_ENTRY => [(F.XLT_FLT_ENTRY_V, .ro), (F.XLT_FLT_ENTRY_SERIAL, .ro), (F.XLT_FLT_ENTRY_CTX, .ro), (F.XLT_FLT_ENTRY_SEG, .ro), (F.XLT_FLT_ENTRY_WAITERS, .ro), (F.XLT_FLT_ENTRY_AGE, .ro), (F.XLT_FLT_ENTRY_REC, .ro)]
  | .XLT_CTX_BIND => [(F.XLT_CTX_BIND_V, .rw), (F.XLT_CTX_BIND_PORT, .rw), (F.XLT_CTX_BIND_SRC_EP, .rw)]
  | .XLT_CTX_GEN => [(F.XLT_CTX_GEN_GEN, .ro), (F.XLT_CTX_GEN_RVK, .ro)]
  | .XLT_SEG_BASE => [(F.XLT_SEG_BASE_BASE_PG, .rw)]
  | .XLT_SEG_LEN => [(F.XLT_SEG_LEN_LEN_PG, .rw)]
  | .XLT_SEG_HVA => [(F.XLT_SEG_HVA_HVA_PG, .rw)]
  | .XLT_SEG_ATTR => [(F.XLT_SEG_ATTR_V, .rw), (F.XLT_SEG_ATTR_RD, .rw), (F.XLT_SEG_ATTR_WR, .rw), (F.XLT_SEG_ATTR_X, .rw), (F.XLT_SEG_ATTR_C, .rw), (F.XLT_SEG_ATTR_PCLASS, .rw), (F.XLT_SEG_ATTR_STRICT, .rw), (F.XLT_SEG_ATTR_REMOTE, .rw), (F.XLT_SEG_ATTR_EXT_INDEX, .rw), (F.XLT_SEG_ATTR_EXT_COUNT, .rw)]
  | .XLT_ORD_CNT => [(F.XLT_ORD_CNT_REFUSE, .rc), (F.XLT_ORD_CNT_ABORT_WON, .rc)]
  | .XLT_VER_CTL => [(F.XLT_VER_CTL_EN, .rw)]
  | .XLT_VER_CMD => [(F.XLT_VER_CMD_REGION, .wo), (F.XLT_VER_CMD_SLOT, .wo), (F.XLT_VER_CMD_P, .wo), (F.XLT_VER_CMD_OP, .wo)]
  | .XLT_VER_CSTAT => [(F.XLT_VER_CSTAT_RESULT, .ro)]
  | .XLT_VER_REMAP => [(F.XLT_VER_REMAP_USED, .ro)]
  | .XLT_VER_RGN_ID => [(F.XLT_VER_RGN_ID_V, .rw), (F.XLT_VER_RGN_ID_CTX, .rw), (F.XLT_VER_RGN_ID_SEG, .rw), (F.XLT_VER_RGN_ID_SHSEG, .rw)]
  | .XLT_VER_RGN_PG => [(F.XLT_VER_RGN_PG_FIRST_PG, .rw), (F.XLT_VER_RGN_PG_NPG_M1, .rw)]
  | .XLT_VER_RGN_CFG => [(F.XLT_VER_RGN_CFG_LIMIT_M1, .rw), (F.XLT_VER_RGN_CFG_PUBWAIT, .rw), (F.XLT_VER_RGN_CFG_LEASE, .rw)]
  | .XLT_VER_RGN_STAT => [(F.XLT_VER_RGN_STAT_CUR_VER, .ro), (F.XLT_VER_RGN_STAT_RETAINED, .ro), (F.XLT_VER_RGN_STAT_PENDING, .ro), (F.XLT_VER_RGN_STAT_SH_FREE, .ro)]
  | .MOV_CH_CTX => [(F.MOV_CH_CTX_V, .rw), (F.MOV_CH_CTX_CTX, .rw), (F.MOV_CH_CTX_EP, .rw)]
  | .MOV_CH_START => [(F.MOV_CH_START_HANDLE, .wo)]
  | .MOV_CH_CMD => [(F.MOV_CH_CMD_OP, .wo)]
  | .MOV_CH_STAT => [(F.MOV_CH_STAT_STATE, .ro), (F.MOV_CH_STAT_WBF, .ro), (F.MOV_CH_STAT_LAST_STATUS, .ro), (F.MOV_CH_STAT_LAST_TAG, .ro), (F.MOV_CH_STAT_DONE, .ro)]
  | .MOV_CH_CUR => [(F.MOV_CH_CUR_HANDLE, .ro)]
  | .MOV_CH_BYTES => [(F.MOV_CH_BYTES_BYTES, .rc)]
  | .MOV_QSTAT => [(F.MOV_QSTAT_RUN, .ro), (F.MOV_QSTAT_HALT, .ro)]
  | .COH_CTL => [(F.COH_CTL_EN, .rw), (F.COH_CTL_SLOT, .rw), (F.COH_CTL_PEERS, .rw), (F.COH_CTL_SNP_TMO, .rw), (F.COH_CTL_PLIST_INT, .rw)]
  | .COH_STAT => [(F.COH_STAT_ENTRIES, .ro), (F.COH_STAT_TRK, .ro), (F.COH_STAT_RCL, .ro)]
  | .COH_CNT => [(F.COH_CNT_BCAST, .rc), (F.COH_CNT_STASH_REF, .rc), (F.COH_CNT_XMATCH, .rc), (F.COH_CNT_DIR_EVICT, .rc)]
  | .COH_DEAD_CMD => [(F.COH_DEAD_CMD_AGENT, .wo)]
  | .COH_RCL_STAT => [(F.COH_RCL_STAT_BUSY, .ro), (F.COH_RCL_STAT_AGENT, .ro), (F.COH_RCL_STAT_POISONED, .ro), (F.COH_RCL_STAT_OVF, .ro)]
  | .COH_PLIST_BASE => [(F.COH_PLIST_BASE_BASE, .rw)]
  | .COH_PLIST_SIZE => [(F.COH_PLIST_SIZE_LOG2N, .rw)]
  | .COH_PLIST_PROD => [(F.COH_PLIST_PROD_PROD, .ro)]
  | .COH_PLIST_CONS => [(F.COH_PLIST_CONS_CONS, .rw)]
  | .COH_PEER_EP => [(F.COH_PEER_EP_EP, .rw)]
  | .COH_AGENT => [(F.COH_AGENT_V, .rw), (F.COH_AGENT_STASH, .rw), (F.COH_AGENT_DEAD, .ro), (F.COH_AGENT_PORT, .rw), (F.COH_AGENT_EP, .rw), (F.COH_AGENT_CTX, .rw)]
  | .STK_CTL => [(F.STK_CTL_EN, .rw), (F.STK_CTL_SLEEP_EN, .rw), (F.STK_CTL_PRED_THR, .rw), (F.STK_CTL_IDLE_CLOSE, .rw), (F.STK_CTL_STREAK, .rw), (F.STK_CTL_IDLE_MS, .rw)]
  | .STK_STAT => [(F.STK_STAT_STATE, .ro), (F.STK_STAT_DIES, .ro), (F.STK_STAT_SIZE_GIB, .ro), (F.STK_STAT_TEMP, .ro), (F.STK_STAT_REF_2X, .ro), (F.STK_STAT_FAILCH, .ro), (F.STK_STAT_SCAN, .ro)]
  | .STK_TIM0 => [(F.STK_TIM0_TRCD, .rw), (F.STK_TIM0_TRP, .rw), (F.STK_TIM0_TRAS, .rw), (F.STK_TIM0_TRC, .rw), (F.STK_TIM0_TWTR_S, .rw), (F.STK_TIM0_TWTR_L, .rw), (F.STK_TIM0_TRTW, .rw)]
  | .STK_TIM1 => [(F.STK_TIM1_TRRD_S, .rw), (F.STK_TIM1_TRRD_L, .rw), (F.STK_TIM1_TFAW, .rw), (F.STK_TIM1_TCCD_S, .rw), (F.STK_TIM1_TCCD_L, .rw), (F.STK_TIM1_TXS, .rw)]
  | .STK_REF => [(F.STK_REF_TRFCPB, .rw), (F.STK_REF_HOT_C, .rw), (F.STK_REF_POSTPONE, .rw)]
  | .STK_THROT => [(F.STK_THROT_COLS, .rw)]
  | .STK_RH => [(F.STK_RH_THR_LOG2, .rw)]
  | .STK_CNT => [(F.STK_CNT_RH_TRIG, .rc), (F.STK_CNT_FREF, .rc), (F.STK_CNT_URG3, .rc), (F.STK_CNT_QWAIT, .rc)]
  | .STK_TRN_CTL => [(F.STK_TRN_CTL_PER_MS, .rw), (F.STK_TRN_CTL_DT, .rw), (F.STK_TRN_CTL_SLP_DT, .rw), (F.STK_TRN_CTL_START, .w1s)]
  | .STK_TRN_STAT => [(F.STK_TRN_STAT_LAST_CH, .ro), (F.STK_TRN_STAT_RESULT, .ro), (F.STK_TRN_STAT_LANES_REP, .ro), (F.STK_TRN_STAT_MARGIN, .ro), (F.STK_TRN_STAT_PASSES, .ro)]
  | .STK_CH_FAIL => [(F.STK_CH_FAIL_MASK, .ro)]
  | .STK_PLC_CTL => [(F.STK_PLC_CTL_SRC, .rw), (F.STK_PLC_CTL_MIG_EN, .rw), (F.STK_PLC_CTL_HOT_THR, .rw), (F.STK_PLC_CTL_COLD_THR, .rw), (F.STK_PLC_CTL_DECAY_S, .rw), (F.STK_PLC_CTL_MIG_RATE, .rw)]
  | .STK_PLC_SCAN => [(F.STK_PLC_SCAN_CLASS, .wo), (F.STK_PLC_SCAN_MAX, .wo)]
  | .STK_PLC_RING => [(F.STK_PLC_RING_LOG2N, .rw), (F.STK_PLC_RING_BASE, .rw)]
  | .STK_PLC_PROD => [(F.STK_PLC_PROD_PROD, .ro)]
  | .STK_PLC_CONS => [(F.STK_PLC_CONS_CONS, .rw)]
  | .STK_PLC_HIST => [(F.STK_PLC_HIST_HOT, .ro), (F.STK_PLC_HIST_COLD, .ro), (F.STK_PLC_HIST_PINNED, .ro)]
  | .STK_MIG_ARG0 => [(F.STK_MIG_ARG0_CTX, .rw), (F.STK_MIG_ARG0_SEG, .rw), (F.STK_MIG_ARG0_PAGE, .rw)]
  | .STK_MIG_ARG1 => [(F.STK_MIG_ARG1_DST_PG, .rw), (F.STK_MIG_ARG1_DST_STK, .rw), (F.STK_MIG_ARG1_EXT_INDEX, .rw), (F.STK_MIG_ARG1_LAST, .rw)]
  | .STK_MIG_CMD => [(F.STK_MIG_CMD_EXT_COUNT, .wo), (F.STK_MIG_CMD_TAG, .wo)]
  | .STK_MIG_STAT => [(F.STK_MIG_STAT_STATE, .ro), (F.STK_MIG_STAT_STATUS, .ro), (F.STK_MIG_STAT_TAG, .ro), (F.STK_MIG_STAT_POISONED, .ro)]
  | .STK_PORT => [(F.STK_PORT_TARGET_NS, .rw)]
  | .STK_LAYOUT => [(F.STK_LAYOUT_A_P1, .rwl), (F.STK_LAYOUT_A_P2, .rwl), (F.STK_LAYOUT_B_P1, .rwl), (F.STK_LAYOUT_B_P2, .rwl)]
  | .STK_LAYOUT_CUR => [(F.STK_LAYOUT_CUR_A_P1, .ro), (F.STK_LAYOUT_CUR_A_P2, .ro), (F.STK_LAYOUT_CUR_B_P1, .ro), (F.STK_LAYOUT_CUR_B_P2, .ro)]
  | .STK_GRP_STAT => [(F.STK_GRP_STAT_A_STATE, .ro), (F.STK_GRP_STAT_A_STK, .ro), (F.STK_GRP_STAT_B_STATE, .ro), (F.STK_GRP_STAT_B_STK, .ro), (F.STK_GRP_STAT_PAIR, .ro), (F.STK_GRP_STAT_PAIR_MISS, .ro)]
  | .STK_REBUILD => [(F.STK_REBUILD_STK, .wo)]
  | .STK_REB_STAT => [(F.STK_REB_STAT_BUSY, .ro), (F.STK_REB_STAT_STK, .ro), (F.STK_REB_STAT_PTR, .ro), (F.STK_REB_STAT_STATUS, .ro)]
  | .STK_PRT_CTL => [(F.STK_PRT_CTL_REB_RATE, .rw), (F.STK_PRT_CTL_AUTO_REB, .rw)]
  | .STK_ECC_CTL => [(F.STK_ECC_CTL_CODE_MS, .rw), (F.STK_ECC_CTL_FOLD_MS, .rw), (F.STK_ECC_CTL_WB_EN, .rw)]
  | .STK_ECC_STAT => [(F.STK_ECC_STAT_CDQ, .ro), (F.STK_ECC_STAT_FOLD_OPEN, .ro), (F.STK_ECC_STAT_FCH0, .ro), (F.STK_ECC_STAT_HCH0, .ro), (F.STK_ECC_STAT_FCH1, .ro), (F.STK_ECC_STAT_HCH1, .ro), (F.STK_ECC_STAT_RELOC, .ro), (F.STK_ECC_STAT_INIT, .ro)]
  | .STK_SCRUB_CTL => [(F.STK_SCRUB_CTL_PASS_H, .rw), (F.STK_SCRUB_CTL_BATCH_MIN, .rw), (F.STK_SCRUB_CTL_START, .w1s)]
  | .STK_SCRUB_STAT => [(F.STK_SCRUB_STAT_PTR, .ro), (F.STK_SCRUB_STAT_PASSES, .ro)]
  | .STK_BKT_CFG => [(F.STK_BKT_CFG_SIZE, .rw), (F.STK_BKT_CFG_LEAK_S, .rw)]
  | .STK_BKT_LVL => [(F.STK_BKT_LVL_LINE, .ro), (F.STK_BKT_LVL_PAGE, .ro), (F.STK_BKT_LVL_GRP, .ro)]
  | .STK_BKT_OVF => [(F.STK_BKT_OVF_LINE, .w1c), (F.STK_BKT_OVF_PAGE, .w1c), (F.STK_BKT_OVF_GRP, .w1c)]
  | .STK_UE_CNT => [(F.STK_UE_CNT_UE, .rc), (F.STK_UE_CNT_PRD, .rc)]
  | .STK_UE_LAST => [(F.STK_UE_LAST_FRAME, .ro), (F.STK_UE_LAST_LINE, .ro), (F.STK_UE_LAST_SRC, .ro), (F.STK_UE_LAST_NW, .ro)]
  | .STK_SELFTEST => [(F.STK_SELFTEST_DONE, .ro), (F.STK_SELFTEST_PASS, .ro), (F.STK_SELFTEST_FIRST, .ro)]
  | .STN_QCTL => [(F.STN_QCTL_AUTO_FENCE, .rw), (F.STN_QCTL_ST_AUTO, .rw)]
  | .STN_QSTAT => [(F.STN_QSTAT_ENABLED, .ro), (F.STN_QSTAT_SPARE, .ro), (F.STN_QSTAT_FENCED, .ro), (F.STN_QSTAT_RETIRED, .ro)]
  | .STN_THROT => [(F.STN_THROT_DUTY, .rw)]
  | .STN_FENCE_CMD => [(F.STN_FENCE_CMD_SITE, .wo), (F.STN_FENCE_CMD_OP, .wo)]
  | .STN_FENCE_STAT => [(F.STN_FENCE_STAT_SITE, .ro), (F.STN_FENCE_STAT_RESULT, .ro), (F.STN_FENCE_STAT_ST_DONE, .ro), (F.STN_FENCE_STAT_ST_PASS, .ro), (F.STN_FENCE_STAT_ST_FIRST, .ro)]
  | .STN_CNT => [(F.STN_CNT_LS_CE, .rc), (F.STN_CNT_WEFT_RETRY, .rc), (F.STN_CNT_IC_PE, .rc), (F.STN_CNT_FENCES, .rc)]
  | .STN_SITE => [(F.STN_SITE_STATE, .ro), (F.STN_SITE_LV, .ro), (F.STN_SITE_CAUSE, .ro), (F.STN_SITE_CTX, .ro), (F.STN_SITE_WDROP, .ro)]
  | .STN_TRAP0 => [(F.STN_TRAP0_CAUSE, .ro), (F.STN_TRAP0_STATUS, .ro), (F.STN_TRAP0_CODE, .ro), (F.STN_TRAP0_PC, .ro)]
  | .STN_TRAP1 => [(F.STN_TRAP1_INSN, .ro)]
  | .STN_TRAP2 => [(F.STN_TRAP2_ADDR, .ro)]
  | .STN_TRAP3 => [(F.STN_TRAP3_COUNT, .ro)]
  | .STN_LOOM_CTL => [(F.STN_LOOM_CTL_V, .rw), (F.STN_LOOM_CTL_CTX, .rw), (F.STN_LOOM_CTL_EP, .rw), (F.STN_LOOM_CTL_SET, .rw), (F.STN_LOOM_CTL_SEQN, .rw)]
  | .STN_LOOM_IMG => [(F.STN_LOOM_IMG_HANDLE, .rw)]
  | .STN_LOOM_SEQT => [(F.STN_LOOM_SEQT_HANDLE, .rw)]
  | .STN_LOOM_KEY => [(F.STN_LOOM_KEY_KEY, .wo)]
  | .STN_LOOM_CMD => [(F.STN_LOOM_CMD_OP, .wo)]
  | .STN_LOOM_STAT => [(F.STN_LOOM_STAT_STATE, .ro), (F.STN_LOOM_STAT_ERR, .ro), (F.STN_LOOM_STAT_NSTN, .ro), (F.STN_LOOM_STAT_NDRAFT, .ro), (F.STN_LOOM_STAT_SEQ_USED, .ro), (F.STN_LOOM_STAT_RUN, .ro)]
  | .STN_LOOM_CNT => [(F.STN_LOOM_CNT_ADMIT, .rc), (F.STN_LOOM_CNT_RETRY, .rc), (F.STN_LOOM_CNT_REFUSE, .rc)]
  | .STN_LOOM_DEV => [(F.STN_LOOM_DEV_SEQ_TOTAL, .ro), (F.STN_LOOM_DEV_LOOMS, .ro)]
  | .STN_MEND_CTL => [(F.STN_MEND_CTL_AUTO, .rw), (F.STN_MEND_CTL_PAUSE_US, .rw), (F.STN_MEND_CTL_WSTALL_MS, .rw)]
  | .STN_MEND_STAT => [(F.STN_MEND_STAT_LOOM, .ro), (F.STN_MEND_STAT_SITE_OLD, .ro), (F.STN_MEND_STAT_SITE_NEW, .ro), (F.STN_MEND_STAT_QUARTER, .ro), (F.STN_MEND_STAT_RESULT, .ro), (F.STN_MEND_STAT_DUR_US, .ro)]
  | .PORT_CTL => [(F.PORT_CTL_EN, .rw), (F.PORT_CTL_ROLE, .rw), (F.PORT_CTL_LISTEN, .rw), (F.PORT_CTL_LR_EN, .rw), (F.PORT_CTL_W4_EN, .rw), (F.PORT_CTL_BEACON, .rw), (F.PORT_CTL_RETRAIN_PCT, .rw), (F.PORT_CTL_REPLAY_MAX, .rw), (F.PORT_CTL_LOSS_MS, .rw), (F.PORT_CTL_RTRN_TMO, .rw)]
  | .PORT_LNK_STAT => [(F.PORT_LNK_STAT_STATE, .ro), (F.PORT_LNK_STAT_WIDTH4, .ro), (F.PORT_LNK_STAT_LONG, .ro), (F.PORT_LNK_STAT_CAUSE, .ro), (F.PORT_LNK_STAT_RT_CAUSE, .ro), (F.PORT_LNK_STAT_RT_FAILS, .ro), (F.PORT_LNK_STAT_INCARN, .ro)]
  | .PORT_TRN_CMD => [(F.PORT_TRN_CMD_OP, .wo)]
  | .PORT_TIMERS => [(F.PORT_TIMERS_REPLAY_TMO, .rw), (F.PORT_TIMERS_CR_NS, .rw), (F.PORT_TIMERS_AUDIT, .rw)]
  | .PORT_FIBRE => [(F.PORT_FIBRE_LEN, .ro), (F.PORT_FIBRE_RTT_NS, .ro)]
  | .PORT_MARGIN => [(F.PORT_MARGIN_LANE, .ro)]
  | .PORT_PARTNER_ID => [(F.PORT_PARTNER_ID_DEVICE_ID, .ro)]
  | .PORT_PARTNER_CAP => [(F.PORT_PARTNER_CAP_CAP1, .ro)]
  | .PORT_CRD_CFG => [(F.PORT_CRD_CFG_UNITS, .rw)]
  | .PORT_CRD_STAT => [(F.PORT_CRD_STAT_WIN_PCT, .ro), (F.PORT_CRD_STAT_WIN_VC, .ro), (F.PORT_CRD_STAT_PEND, .ro), (F.PORT_CRD_STAT_LEAKED, .ro)]
  | .PORT_CNT => [(F.PORT_CNT_CRC_ERR, .rc), (F.PORT_CNT_REPLAY, .rc), (F.PORT_CNT_DUP, .rc), (F.PORT_CNT_RETRAIN, .rc)]
  | .PORT_FEC_CNT => [(F.PORT_FEC_CNT_CORR, .rc), (F.PORT_FEC_CNT_UNCORR, .rc)]
  | .HUB_CTL => [(F.HUB_CTL_HOP_MAX, .rw), (F.HUB_CTL_AUTO_ALT, .rw), (F.HUB_CTL_MC_TMO, .rw), (F.HUB_CTL_DRAIN_QUIET, .rw), (F.HUB_CTL_DRAIN_TMO, .rw)]
  | .HUB_CNT => [(F.HUB_CNT_NOROUTE, .rc), (F.HUB_CNT_HOPS, .rc), (F.HUB_CNT_LATE, .rc), (F.HUB_CNT_DOWNED, .rc)]
  | .HUB_RT_CMD => [(F.HUB_RT_CMD_OP, .wo)]
  | .HUB_RT_STAT => [(F.HUB_RT_STAT_EPOCH, .ro), (F.HUB_RT_STAT_LOCK, .ro), (F.HUB_RT_STAT_DRAINED, .ro), (F.HUB_RT_STAT_TMO, .ro), (F.HUB_RT_STAT_BUSY, .ro), (F.HUB_RT_STAT_HELD, .ro), (F.HUB_RT_STAT_FLIPS, .ro)]
  | .HUB_RT_INDEX => [(F.HUB_RT_INDEX_INDEX, .rw), (F.HUB_RT_INDEX_VER, .rw)]
  | .HUB_RT_DATA => [(F.HUB_RT_DATA_ENTRY, .rw)]
  | .HUB_RT_OP => [(F.HUB_RT_OP_OP, .wo)]
  | .HUB_RT_DEF => [(F.HUB_RT_DEF_PORT, .rw), (F.HUB_RT_DEF_V, .rw)]
  | .HUB_MC_INDEX => [(F.HUB_MC_INDEX_GROUP, .rw), (F.HUB_MC_INDEX_VER, .rw)]
  | .HUB_MC_DATA => [(F.HUB_MC_DATA_PMASK, .rw), (F.HUB_MC_DATA_LOCAL, .rw), (F.HUB_MC_DATA_V, .rw)]
  | .HUB_MC_OP => [(F.HUB_MC_OP_OP, .wo)]
  | .HUB_TIME_CTL => [(F.HUB_TIME_CTL_SRC, .rw), (F.HUB_TIME_CTL_SRC_PORT, .rw), (F.HUB_TIME_CTL_DOMAIN, .rw), (F.HUB_TIME_CTL_SYNC_US, .rw)]
  | .HUB_TIME_STAT => [(F.HUB_TIME_STAT_LOCK, .ro), (F.HUB_TIME_STAT_OFFSET, .ro), (F.HUB_TIME_STAT_STEPS, .ro)]
  | .HUB_TIME_SET => [(F.HUB_TIME_SET_NS, .wo)]
  | .HUB_MC_FMASK => [(F.HUB_MC_FMASK_FMASK, .rw), (F.HUB_MC_FMASK_FLOCAL, .rw)]
  | .HUB_MC_GCNT => [(F.HUB_MC_GCNT_FENCED, .rc), (F.HUB_MC_GCNT_LOST, .rc)]
  | .HUB_POL_CFG => [(F.HUB_POL_CFG_ACTION, .rw), (F.HUB_POL_CFG_RATE, .rw), (F.HUB_POL_CFG_BURST, .rw), (F.HUB_POL_CFG_FILL, .rw)]
  | .HUB_POL_CNT => [(F.HUB_POL_CNT_MARKED, .rc), (F.HUB_POL_CNT_DROPPED, .rc)]
  | .HUB_QSEL => [(F.HUB_QSEL_QUEUE, .rw), (F.HUB_QSEL_QALT, .rw)]
  | .PORT_EGR_CTL => [(F.PORT_EGR_CTL_GUARD, .rw), (F.PORT_EGR_CTL_SAMPLE, .rw)]
  | .PORT_GATE_CTL => [(F.PORT_GATE_CTL_LEN0, .rw), (F.PORT_GATE_CTL_LEN1, .rw), (F.PORT_GATE_CTL_ACT, .ro), (F.PORT_GATE_CTL_PEND, .w1s)]
  | .PORT_GATE_BASE => [(F.PORT_GATE_BASE_NS, .rw)]
  | .PORT_GATE_STAT => [(F.PORT_GATE_STAT_ENTRY, .ro), (F.PORT_GATE_STAT_OPEN, .ro), (F.PORT_GATE_STAT_UNLOCKED, .ro), (F.PORT_GATE_STAT_CYCLES, .ro)]
  | .PORT_Q_CFG => [(F.PORT_Q_CFG_GC, .rw), (F.PORT_Q_CFG_SHEN, .rw), (F.PORT_Q_CFG_RATE, .rw), (F.PORT_Q_CFG_OVH, .rw), (F.PORT_Q_CFG_BURST, .rw), (F.PORT_Q_CFG_FILL, .rw)]
  | .PORT_Q_STAT => [(F.PORT_Q_STAT_MAXDEPTH, .rc), (F.PORT_Q_STAT_MAXDELAY, .rc)]
  | .PORT_GATE_LIST => [(F.PORT_GATE_LIST_MASK, .rw), (F.PORT_GATE_LIST_DUR_NS, .rw)]
  | .PORT_HIST => [(F.PORT_HIST_DEPTH, .rc), (F.PORT_HIST_DELAY, .rc)]
  | .PORT_AUTH_CTL => [(F.PORT_AUTH_CTL_ANY, .rw)]
  | .PORT_AUTH_CNT => [(F.PORT_AUTH_CNT_DENIED, .rc), (F.PORT_AUTH_CNT_DISCARD, .rc)]
  | .PORT_ALLOW => [(F.PORT_ALLOW_KEY, .rw), (F.PORT_ALLOW_BLOCK, .rw), (F.PORT_ALLOW_V, .rw)]
  | .TL_CTL => [(F.TL_CTL_PRI, .rw), (F.TL_CTL_HRD_TMO, .rw), (F.TL_CTL_EVT_INT, .rw)]
  | .TL_STAT => [(F.TL_STAT_UP0, .ro), (F.TL_STAT_UP1, .ro), (F.TL_STAT_ACTIVE, .ro), (F.TL_STAT_NONE, .ro), (F.TL_STAT_UNACK, .ro), (F.TL_STAT_HELD, .ro)]
  | .TL_EVT_BASE => [(F.TL_EVT_BASE_BASE, .rw)]
  | .TL_EVT_SIZE => [(F.TL_EVT_SIZE_LOG2N, .rw)]
  | .TL_EVT_PROD => [(F.TL_EVT_PROD_PROD, .ro)]
  | .TL_EVT_CONS => [(F.TL_EVT_CONS_CONS, .rw)]
  | .TL_EVT_STAT => [(F.TL_EVT_STAT_WAITING, .ro), (F.TL_EVT_STAT_LOST, .ro)]
  | .TL_CNT => [(F.TL_CNT_RESENT, .rc), (F.TL_CNT_RDRETRY, .rc), (F.TL_CNT_RDFAIL, .rc)]
  | .TL_WIN_BASE => [(F.TL_WIN_BASE_BASE, .rw)]
  | .TL_WIN_LEN => [(F.TL_WIN_LEN_LEN_4K, .rw), (F.TL_WIN_LEN_RD, .rw), (F.TL_WIN_LEN_WR, .rw)]
  | .SEC_CTL => [(F.SEC_CTL_STRICT, .rw), (F.SEC_CTL_REL_RATE, .rw), (F.SEC_CTL_KEX_S, .rw)]
  | .SEC_STAT => [(F.SEC_STAT_CONF, .ro), (F.SEC_STAT_STRICT, .ro), (F.SEC_STAT_DEBUG_EFF, .ro), (F.SEC_STAT_TRANS, .ro), (F.SEC_STAT_AK_READY, .ro), (F.SEC_STAT_AK_NEXT, .ro), (F.SEC_STAT_QRST, .ro)]
  | .SEC_VER => [(F.SEC_VER_UGEN, .ro), (F.SEC_VER_FLOOR, .ro)]
  | .SEC_IDX => [(F.SEC_IDX_AK_IDX, .ro), (F.SEC_IDX_ID_IDX, .ro)]
  | .SEC_DEBUG => [(F.SEC_DEBUG_DEBUG, .rwl)]
  | .SEC_LEDGER => [(F.SEC_LEDGER_DEBUG_LEFT, .ro), (F.SEC_LEDGER_LAYOUT_LEFT, .ro), (F.SEC_LEDGER_OWNER_LEFT, .ro), (F.SEC_LEDGER_LSEQ, .ro)]
  | .SEC_REL_CMD => [(F.SEC_REL_CMD_EXT_INDEX, .wo), (F.SEC_REL_CMD_EXT_COUNT, .wo), (F.SEC_REL_CMD_TAG, .wo)]
  | .SEC_REL_STAT => [(F.SEC_REL_STAT_BUSY, .ro), (F.SEC_REL_STAT_QUEUED, .ro), (F.SEC_REL_STAT_DONE_TAG, .ro), (F.SEC_REL_STAT_DONE_STATUS, .ro)]
  | .SEC_CNT => [(F.SEC_CNT_COLOUR_DENY, .rc), (F.SEC_CNT_REL_HIT, .rc), (F.SEC_CNT_KEX_FAIL, .rc), (F.SEC_CNT_TAG_FAIL, .rc)]
  | .SEC_SESS_STAT => [(F.SEC_SESS_STAT_STATE, .ro), (F.SEC_SESS_STAT_CAUSE, .ro), (F.SEC_SESS_STAT_CTX, .ro)]
  | .SEC_BNC_RING => [(F.SEC_BNC_RING_LOG2N, .rw), (F.SEC_BNC_RING_BASE, .rw)]
  | .SEC_BNC_TAIL => [(F.SEC_BNC_TAIL_TAIL, .rw)]
  | .SEC_BNC_HEAD => [(F.SEC_BNC_HEAD_HEAD, .ro)]
  | .SEC_MR => [(F.SEC_MR_VALUE, .ro)]
  | .SEC_CTX => [(F.SEC_CTX_CEN, .rw), (F.SEC_CTX_COLOUR, .rw)]
  | .SEC_OBS => [(F.SEC_OBS_CE, .rc), (F.SEC_OBS_CE_SEG, .rc), (F.SEC_OBS_CE_PAGE, .rc), (F.SEC_OBS_THR_KCYC, .rc)]
  | .INTC_CTL => [(F.INTC_CTL_GDIS, .rw)]
  | .INTC_STAT => [(F.INTC_STAT_READY, .ro), (F.INTC_STAT_SERV, .ro)]
  | .INTC_GRP_CMPL => [(F.INTC_GRP_CMPL_GROUP, .wo)]
  | .INTC_SW_SET => [(F.INTC_SW_SET_N, .wo)]
  | .INTC_CORE => [(F.INTC_CORE_MASK, .rw), (F.INTC_CORE_ASLEEP, .ro), (F.INTC_CORE_PEND, .ro)]
  | .INTC_GRP_CFG => [(F.INTC_GRP_CFG_HOLDOFF_US, .rw), (F.INTC_GRP_CFG_TGT, .rw), (F.INTC_GRP_CFG_VEC, .rw), (F.INTC_GRP_CFG_LOOM, .rw), (F.INTC_GRP_CFG_ENTRY, .rw), (F.INTC_GRP_CFG_AUTOC, .rw)]
  | .INTC_GRP_ARG => [(F.INTC_GRP_ARG_HANDLE, .rw)]
  | .INTC_GRP_STAT => [(F.INTC_GRP_STAT_SERV, .ro), (F.INTC_GRP_STAT_ERR, .ro), (F.INTC_GRP_STAT_HOLD_LEFT, .ro), (F.INTC_GRP_STAT_DELIV, .ro)]
  | .INTC_SRC_PEND => [(F.INTC_SRC_PEND_PEND, .w1c)]
  | .INTC_SRC_SERV => [(F.INTC_SRC_SERV_SERV, .ro)]
  | .INTC_SRC_RAW => [(F.INTC_SRC_RAW_RAW, .ro)]
  | .INTC_SRC_CFG => [(F.INTC_SRC_CFG_EN, .rw), (F.INTC_SRC_CFG_GRP, .rw), (F.INTC_SRC_CFG_LEVEL, .ro)]
  | .CHK_CTL => [(F.CHK_CTL_EN, .rw), (F.CHK_CTL_REFIN, .rw), (F.CHK_CTL_REFOUT, .rw), (F.CHK_CTL_AUTO, .rw), (F.CHK_CTL_WIDTH_M1, .rw)]
  | .CHK_SEL => [(F.CHK_SEL_KIND, .rw), (F.CHK_SEL_QUARTER, .rw), (F.CHK_SEL_IDX, .rw), (F.CHK_SEL_DIR, .rw), (F.CHK_SEL_CHMASK, .rw), (F.CHK_SEL_CTXV, .rw), (F.CHK_SEL_CTX, .rw), (F.CHK_SEL_EPV, .rw), (F.CHK_SEL_EP, .rw), (F.CHK_SEL_EPBLK, .rw)]
  | .CHK_POLY => [(F.CHK_POLY_VALUE, .rw)]
  | .CHK_INIT => [(F.CHK_INIT_VALUE, .rw)]
  | .CHK_XOROUT => [(F.CHK_XOROUT_VALUE, .rw)]
  | .CHK_EXPECT => [(F.CHK_EXPECT_VALUE, .rw)]
  | .CHK_RUN => [(F.CHK_RUN_RUN, .rw)]
  | .CHK_LEN => [(F.CHK_LEN_LEN, .rw)]
  | .CHK_COUNT => [(F.CHK_COUNT_COUNT, .rw)]
  | .CHK_RESULT => [(F.CHK_RESULT_RESULT, .ro)]
  | .CHK_STAT => [(F.CHK_STAT_DONE, .ro), (F.CHK_STAT_MISMATCH, .w1c), (F.CHK_STAT_POISON, .w1c), (F.CHK_STAT_MISMATCHES, .rc)]
  | .CHK_CMD => [(F.CHK_CMD_OP, .wo)]
  | .EVR_CTL => [(F.EVR_CTL_PERIOD_H, .rw), (F.EVR_CTL_CKPT_MIN, .rw)]
  | .EVR_STAT => [(F.EVR_STAT_HEAD, .ro), (F.EVR_STAT_COUNT, .ro), (F.EVR_STAT_CLEARS, .ro), (F.EVR_STAT_BUSY, .ro), (F.EVR_STAT_CLR_SEQ, .ro)]
  | .EVR_OPS => [(F.EVR_OPS_OP_S, .ro), (F.EVR_OPS_PCYC, .ro)]
  | .EVR_TIME => [(F.EVR_TIME_HOURS, .ro), (F.EVR_TIME_SECS, .ro)]
  | .EVR_CURSOR => [(F.EVR_CURSOR_SLOT, .rw)]
  | .EVR_CNT => [(F.EVR_CNT_WRAPS, .rc), (F.EVR_CNT_NVERR, .rc)]
  | .EVR_WIN => []
  | .PWR_CTL => [(F.PWR_CTL_CAP_W, .rw), (F.PWR_CTL_HYST_W, .rw), (F.PWR_CTL_STEP_W, .rw), (F.PWR_CTL_PERIOD_US, .rw), (F.PWR_CTL_DOWN_MS, .rw)]
  | .PWR_LEVEL => [(F.PWR_LEVEL_LEVEL, .rw), (F.PWR_LEVEL_DUTY_EFF, .ro), (F.PWR_LEVEL_COLS_EFF, .ro), (F.PWR_LEVEL_LIMIT, .ro), (F.PWR_LEVEL_TRIP, .ro)]
  | .PWR_STAT => [(F.PWR_STAT_P_IN_W, .ro), (F.PWR_STAT_V_IN, .ro), (F.PWR_STAT_UV, .ro), (F.PWR_STAT_OV, .ro), (F.PWR_STAT_OVERCAP, .ro)]
  | .PWR_LIMIT => [(F.PWR_LIMIT_MAX_W, .rw), (F.PWR_LIMIT_LIM_DUTY, .rw)]
  | .PWR_FAN => [(F.PWR_FAN_DUTY0, .rw), (F.PWR_FAN_DUTY1, .rw)]
  | .PWR_THERM => [(F.PWR_THERM_DIE_WARN_C, .rw), (F.PWR_THERM_STK_WARN_C, .rw), (F.PWR_THERM_DIE_TRIP_C, .rw), (F.PWR_THERM_STK_TRIP_C, .rw)]
  | .PWR_TEMP => [(F.PWR_TEMP_DIE_MAX, .ro), (F.PWR_TEMP_DIE_Q, .ro), (F.PWR_TEMP_STK_MAX, .ro), (F.PWR_TEMP_STK_ID, .ro)]
  | .PWR_LP_CTL => [(F.PWR_LP_CTL_FW_EN, .rw), (F.PWR_LP_CTL_FW_US, .rw), (F.PWR_LP_CTL_DEEP_EN, .rw), (F.PWR_LP_CTL_DEEP_MS, .rw)]
  | .PWR_LP_CMD => [(F.PWR_LP_CMD_OP, .wo)]
  | .PWR_LP_STAT => [(F.PWR_LP_STAT_GATED, .ro), (F.PWR_LP_STAT_WAITING, .ro), (F.PWR_LP_STAT_WAKES, .ro)]
  | .PWR_STATPIN => [(F.PWR_STATPIN_CODE, .rw)]
  | .PWR_RAIL => [(F.PWR_RAIL_MEAS_MV, .ro), (F.PWR_RAIL_SET_MV, .rw), (F.PWR_RAIL_UV, .ro), (F.PWR_RAIL_OV, .ro), (F.PWR_RAIL_FAULT, .w1c)]
  | .CLK_DOM => [(F.CLK_DOM_GATED, .ro), (F.CLK_DOM_LOCK, .ro), (F.CLK_DOM_FREQ_KHZ, .ro), (F.CLK_DOM_LOSSES, .ro)]
  | .CLK_STAT => [(F.CLK_STAT_REF_OK, .ro), (F.CLK_STAT_HOLDOVER, .ro)]
  | .TDM_ROLE => [(F.TDM_ROLE_CAPT, .ro), (F.TDM_ROLE_MODE, .ro), (F.TDM_ROLE_SINGLE, .ro), (F.TDM_ROLE_OVL, .ro)]
  | .TDM_CMD => [(F.TDM_CMD_OP, .wo)]
  | .TDM_LEASE => [(F.TDM_LEASE_ACQ, .w1s), (F.TDM_LEASE_HOLDER, .ro), (F.TDM_LEASE_LEFT_US, .ro)]
  | .TDM_HB => [(F.TDM_HB_HB_US, .rw), (F.TDM_HB_MISS, .rw), (F.TDM_HB_BEAT, .wo)]
  | .TDM_ACT0 => [(F.TDM_ACT0_ASEQ, .rw), (F.TDM_ACT0_OFFSET, .rw)]
  | .TDM_ACT1 => [(F.TDM_ACT1_VALUE, .wo)]
  | .TDM_ASEQ => [(F.TDM_ASEQ_APPLIED, .ro)]
  | .TDM_STAT => [(F.TDM_STAT_GAP_US, .ro), (F.TDM_STAT_SWITCHES, .ro), (F.TDM_STAT_CAUSE, .ro), (F.TDM_STAT_STALE, .ro)]
  | .TDM_JRNL_A => [(F.TDM_JRNL_A_ASEQ, .ro), (F.TDM_JRNL_A_OFFSET, .ro)]
  | .TDM_JRNL_V => [(F.TDM_JRNL_V_VALUE, .ro)]
  | .GLB_ID => [(F.GLB_ID_DEVICE_ID, .ro)]
  | .GLB_PART => [(F.GLB_PART_PART, .ro), (F.GLB_PART_STEPPING, .ro), (F.GLB_PART_ROM_VER, .ro), (F.GLB_PART_FW_VER, .ro)]
  | .GLB_STAT => [(F.GLB_STAT_READY, .ro), (F.GLB_STAT_STEP, .ro), (F.GLB_STAT_WAIT_IMG, .ro), (F.GLB_STAT_WARM, .ro), (F.GLB_STAT_FW_ALT, .ro), (F.GLB_STAT_IMG_ERR, .ro), (F.GLB_STAT_IMG_CAUSE, .ro), (F.GLB_STAT_IMG_ENT, .ro), (F.GLB_STAT_QRST, .ro), (F.GLB_STAT_QHOLD, .ro)]
  | .GLB_RST_CMD => [(F.GLB_RST_CMD_OP, .wo), (F.GLB_RST_CMD_Q, .wo), (F.GLB_RST_CMD_CONFIRM, .wo)]
  | .GLB_RST_STAT => [(F.GLB_RST_STAT_PKG_CAUSE, .ro), (F.GLB_RST_STAT_WARMS, .ro), (F.GLB_RST_STAT_Q_LAST, .ro), (F.GLB_RST_STAT_Q_CAUSE, .ro), (F.GLB_RST_STAT_QRESETS, .ro), (F.GLB_RST_STAT_PKGS, .ro)]
  | .GLB_IMG_BASE => [(F.GLB_IMG_BASE_BASE, .rw)]
  | .GLB_IMG_LEN => [(F.GLB_IMG_LEN_LEN, .rw), (F.GLB_IMG_LEN_AUTO, .rw)]
  | .GLB_IMG_CMD => [(F.GLB_IMG_CMD_LOAD, .wo)]
  | .GLB_IMG_STAT => [(F.GLB_IMG_STAT_V, .ro), (F.GLB_IMG_STAT_CONF, .ro), (F.GLB_IMG_STAT_NENT, .ro), (F.GLB_IMG_STAT_IGEN, .ro)]
  | .GLB_SCRATCH => [(F.GLB_SCRATCH_VALUE, .rws)]

/-- Every register, for the search of an offset, in pieces. -/
def regList0 : List RegName := [.XLT_CTL, .XLT_QSTAT, .XLT_QCNT, .XLT_FLT_LOG_BASE, .XLT_FLT_LOG_SIZE, .XLT_FLT_PROD, .XLT_FLT_CONS, .XLT_FLT_RESUME, .XLT_FLT_RSTAT, .XLT_RVK_CMD, .XLT_RVK_RANGE, .XLT_RVK_NEW, .XLT_RVK_STAT, .XLT_EXT_INDEX, .XLT_EXT_DATA0, .XLT_EXT_DATA1, .XLT_EXT_OP, .XLT_FLT_ENTRY, .XLT_CTX_BIND, .XLT_CTX_GEN, .XLT_SEG_BASE, .XLT_SEG_LEN, .XLT_SEG_HVA, .XLT_SEG_ATTR, .XLT_ORD_CNT, .XLT_VER_CTL, .XLT_VER_CMD, .XLT_VER_CSTAT, .XLT_VER_REMAP, .XLT_VER_RGN_ID, .XLT_VER_RGN_PG, .XLT_VER_RGN_CFG, .XLT_VER_RGN_STAT, .MOV_CH_CTX, .MOV_CH_START, .MOV_CH_CMD, .MOV_CH_STAT, .MOV_CH_CUR, .MOV_CH_BYTES, .MOV_QSTAT]
def regList1 : List RegName := [.COH_CTL, .COH_STAT, .COH_CNT, .COH_DEAD_CMD, .COH_RCL_STAT, .COH_PLIST_BASE, .COH_PLIST_SIZE, .COH_PLIST_PROD, .COH_PLIST_CONS, .COH_PEER_EP, .COH_AGENT, .STK_CTL, .STK_STAT, .STK_TIM0, .STK_TIM1, .STK_REF, .STK_THROT, .STK_RH, .STK_CNT, .STK_TRN_CTL, .STK_TRN_STAT, .STK_CH_FAIL, .STK_PLC_CTL, .STK_PLC_SCAN, .STK_PLC_RING, .STK_PLC_PROD, .STK_PLC_CONS, .STK_PLC_HIST, .STK_MIG_ARG0, .STK_MIG_ARG1, .STK_MIG_CMD, .STK_MIG_STAT, .STK_PORT, .STK_LAYOUT, .STK_LAYOUT_CUR, .STK_GRP_STAT, .STK_REBUILD, .STK_REB_STAT, .STK_PRT_CTL, .STK_ECC_CTL]
def regList2 : List RegName := [.STK_ECC_STAT, .STK_SCRUB_CTL, .STK_SCRUB_STAT, .STK_BKT_CFG, .STK_BKT_LVL, .STK_BKT_OVF, .STK_UE_CNT, .STK_UE_LAST, .STK_SELFTEST, .STN_QCTL, .STN_QSTAT, .STN_THROT, .STN_FENCE_CMD, .STN_FENCE_STAT, .STN_CNT, .STN_SITE, .STN_TRAP0, .STN_TRAP1, .STN_TRAP2, .STN_TRAP3, .STN_LOOM_CTL, .STN_LOOM_IMG, .STN_LOOM_SEQT, .STN_LOOM_KEY, .STN_LOOM_CMD, .STN_LOOM_STAT, .STN_LOOM_CNT, .STN_LOOM_DEV, .STN_MEND_CTL, .STN_MEND_STAT, .PORT_CTL, .PORT_LNK_STAT, .PORT_TRN_CMD, .PORT_TIMERS, .PORT_FIBRE, .PORT_MARGIN, .PORT_PARTNER_ID, .PORT_PARTNER_CAP, .PORT_CRD_CFG, .PORT_CRD_STAT]
def regList3 : List RegName := [.PORT_CNT, .PORT_FEC_CNT, .HUB_CTL, .HUB_CNT, .HUB_RT_CMD, .HUB_RT_STAT, .HUB_RT_INDEX, .HUB_RT_DATA, .HUB_RT_OP, .HUB_RT_DEF, .HUB_MC_INDEX, .HUB_MC_DATA, .HUB_MC_OP, .HUB_TIME_CTL, .HUB_TIME_STAT, .HUB_TIME_SET, .HUB_MC_FMASK, .HUB_MC_GCNT, .HUB_POL_CFG, .HUB_POL_CNT, .HUB_QSEL, .PORT_EGR_CTL, .PORT_GATE_CTL, .PORT_GATE_BASE, .PORT_GATE_STAT, .PORT_Q_CFG, .PORT_Q_STAT, .PORT_GATE_LIST, .PORT_HIST, .PORT_AUTH_CTL, .PORT_AUTH_CNT, .PORT_ALLOW, .TL_CTL, .TL_STAT, .TL_EVT_BASE, .TL_EVT_SIZE, .TL_EVT_PROD, .TL_EVT_CONS, .TL_EVT_STAT, .TL_CNT]
def regList4 : List RegName := [.TL_WIN_BASE, .TL_WIN_LEN, .SEC_CTL, .SEC_STAT, .SEC_VER, .SEC_IDX, .SEC_DEBUG, .SEC_LEDGER, .SEC_REL_CMD, .SEC_REL_STAT, .SEC_CNT, .SEC_SESS_STAT, .SEC_BNC_RING, .SEC_BNC_TAIL, .SEC_BNC_HEAD, .SEC_MR, .SEC_CTX, .SEC_OBS, .INTC_CTL, .INTC_STAT, .INTC_GRP_CMPL, .INTC_SW_SET, .INTC_CORE, .INTC_GRP_CFG, .INTC_GRP_ARG, .INTC_GRP_STAT, .INTC_SRC_PEND, .INTC_SRC_SERV, .INTC_SRC_RAW, .INTC_SRC_CFG, .CHK_CTL, .CHK_SEL, .CHK_POLY, .CHK_INIT, .CHK_XOROUT, .CHK_EXPECT, .CHK_RUN, .CHK_LEN, .CHK_COUNT, .CHK_RESULT]
def regList5 : List RegName := [.CHK_STAT, .CHK_CMD, .EVR_CTL, .EVR_STAT, .EVR_OPS, .EVR_TIME, .EVR_CURSOR, .EVR_CNT, .EVR_WIN, .PWR_CTL, .PWR_LEVEL, .PWR_STAT, .PWR_LIMIT, .PWR_FAN, .PWR_THERM, .PWR_TEMP, .PWR_LP_CTL, .PWR_LP_CMD, .PWR_LP_STAT, .PWR_STATPIN, .PWR_RAIL, .CLK_DOM, .CLK_STAT, .TDM_ROLE, .TDM_CMD, .TDM_LEASE, .TDM_HB, .TDM_ACT0, .TDM_ACT1, .TDM_ASEQ, .TDM_STAT, .TDM_JRNL_A, .TDM_JRNL_V, .GLB_ID, .GLB_PART, .GLB_STAT, .GLB_RST_CMD, .GLB_RST_STAT, .GLB_IMG_BASE, .GLB_IMG_LEN]
def regList6 : List RegName := [.GLB_IMG_CMD, .GLB_IMG_STAT, .GLB_SCRATCH]
def allRegs : List RegName := regList0 ++ regList1 ++ regList2 ++ regList3 ++ regList4 ++ regList5 ++ regList6

/-- The reset value of a register that the summary tables give as one number; the others read 0 here (see `resetVal`). -/
def RegName.resetNum : RegName → Nat
  | .XLT_CTL => 0x103E80000
  | .XLT_VER_RGN_CFG => 0x1F
  | .COH_CTL => 0x1A0000
  | .STK_CTL => 0xA108050
  | .STK_TIM0 => 0x6844C351717
  | .STK_TIM1 => 0x1E0211A64
  | .STK_REF => 0x8551C0
  | .STK_THROT => 0x40
  | .STK_RH => 0xA
  | .STK_TRN_CTL => 0x5050080
  | .STK_PLC_CTL => 0xA01004000
  | .STK_PRT_CTL => 0x114
  | .STK_ECC_CTL => 0x1200A
  | .STK_SCRUB_CTL => 0x3C18
  | .STK_BKT_CFG => 0x3C0100
  | .STN_QCTL => 0x3
  | .STN_THROT => 0x10
  | .STN_MEND_CTL => 0x207D1
  | .PORT_CTL => 0x28144BD6
  | .PORT_TIMERS => 0xA4005F6
  | .PORT_CRD_CFG => 0xC0C180818108020
  | .HUB_CTL => 0x32140A30
  | .HUB_TIME_CTL => 0x3E80000
  | .PORT_EGR_CTL => 0xA01
  | .PORT_AUTH_CTL => 0x1
  | .TL_CTL => 0x10A00
  | .SEC_CTL => 0xA0640
  | .EVR_CTL => 0x3C18
  | .PWR_CTL => 0x1643232708
  | .PWR_LIMIT => 0x8834
  | .PWR_FAN => 0x6464
  | .PWR_THERM => 0x69735A64
  | .PWR_LP_CTL => 0x19000C8
  | .TDM_HB => 0x50064
  | _ => 0

/-- Nominal set-point of rail `r` in millivolts (Table 15-2, R374). -/
def railNominal (r : Nat) : Nat :=
  if r < 4 then 6000 else if r < 8 then 750 else if r < 12 then 800 else if r < 16 then 850
  else if r < 32 then 1100 else if r < 46 then 1800 else if r < 47 then 750 else 850

/-- Default latency target of requester port `k` in ns (Table 5-2, R121). -/
def stkPortTarget : Nat → Nat
  | 0 => 200 | 1 => 250 | 2 => 400 | 3 => 2000 | 4 => 150 | 5 => 300 | 6 => 20000 | _ => 1000

/-- The level sources of Tables 14-1 and 15-10 (R352, R398); every other source is an edge source or reserved. -/
def srcLevel (n : Nat) : Bool :=
  if n < 0x40 then n % 4 == 0
  else if n < 0x140 then (n - 0x40) % 0x40 == 2 || (16 ≤ (n - 0x40) % 0x40 && (n - 0x40) % 0x40 < 32)
  else if n < 0x1B0 then (n - 0x140) % 8 == 2
  else n == 0x1C1 || n == 0x1C5 || n == 0x1D0 || n == 0x1D1 || n == 0x1D2 || n == 0x1D3 || n == 0x1D7 || n == 0x1D8

/-- The sources Tables 14-1 and 15-10 mark reserved. -/
def srcReserved (n : Nat) : Bool :=
  if n < 0x40 then false
  else if n < 0x140 then (11 ≤ (n - 0x40) % 0x40 && (n - 0x40) % 0x40 < 16) || 32 ≤ (n - 0x40) % 0x40
  else if n < 0x1B0 then 6 ≤ (n - 0x140) % 8 || ((n - 0x140) % 8 == 5 && (n - 0x140) / 8 < 12)
  else n == 0x1B6 || n == 0x1B7 || (0x1CD ≤ n && n ≤ 0x1CF) || (0x1DB ≤ n && n ≤ 0x1FF)

/-- Reset value of register `r`, first index `i` (the summary tables; Tables 5-2, 11-8, 14-1, 15-2; the shipment value of
`STK_LAYOUT`, and the whole budgets of Table 13-13 in `SEC_LEDGER`; log 11). -/
def RegName.resetVal (r : RegName) (i : Nat) : Nat :=
  match r with
  | .STK_PORT => stkPortTarget i
  | .PORT_Q_CFG => if 504 ≤ i then 7 else if 496 ≤ i then 6 else 0
  | .INTC_SRC_CFG => if srcLevel i then 0x40 else 0
  | .PWR_RAIL => railNominal i * 0x10000
  | .STK_LAYOUT => 0x5A5A5A5A
  | .STK_LAYOUT_CUR => 0x5A5A5A5A
  | .SEC_LEDGER => 0x884
  | r => r.resetNum

/-- First offset of block `b` and the distance between its instances (Table 16-6, R412). -/
def Block.origin : Block → Nat × Nat
  | .glb => (0x0000000, 0) | .tdm => (0x0100000, 0) | .intc => (0x0200000, 0) | .evr => (0x0300000, 0)
  | .pwr => (0x0400000, 0) | .sec => (0x0800000, 0)
  | .xlt => (0x1000000, 0x400000) | .coh => (0x1000000, 0x400000)
  | .stn => (0x1000000, 0x400000) | .mov => (0x1000000, 0x400000)
  | .stk => (0x2000000, 0x40000) | .port => (0x3000000, 0x20000)
  | .hub => (0x31C0000, 0) | .chk => (0x3F00000, 0)

/-- The block an offset lies in, with its instance and the offset the block's register map uses (Table 16-6; the XLT, COH, STN
and MOV maps count from the start of the quarter block). None: outside every block window (R412). -/
def blockAt (a : Nat) : Option (Block × Nat × Nat) :=
  if a < 0x0100000 then some (.glb, 0, a)
  else if a < 0x0200000 then some (.tdm, 0, a - 0x0100000)
  else if a < 0x0300000 then some (.intc, 0, a - 0x0200000)
  else if a < 0x0400000 then some (.evr, 0, a - 0x0300000)
  else if a < 0x0500000 then some (.pwr, 0, a - 0x0400000)
  else if a < 0x0800000 then none
  else if a < 0x1000000 then some (.sec, 0, a - 0x0800000)
  else if a < 0x2000000 then
    let q := (a - 0x1000000) / 0x400000
    let o := (a - 0x1000000) % 0x400000
    if o < 0x200000 then some (.xlt, q, o)
    else if o < 0x300000 then some (.coh, q, o)
    else if o < 0x380000 then some (.stn, q, o)
    else some (.mov, q, o)
  else if a < 0x2400000 then some (.stk, (a - 0x2000000) / 0x40000, (a - 0x2000000) % 0x40000)
  else if a < 0x3000000 then none
  else if a < 0x31C0000 then some (.port, (a - 0x3000000) / 0x20000, (a - 0x3000000) % 0x20000)
  else if a < 0x3200000 then some (.hub, 0, a - 0x31C0000)
  else if a < 0x3F00000 then none
  else if a < 0x4000000 then some (.chk, 0, a - 0x3F00000)
  else none

/-- The instance whose block keeps a register of instance `inst`: device registers are kept in the first block of their kind,
Thrumlink's in the block of TL0, port 12 (R63, R325). -/
def RegName.home (r : RegName) (inst : Nat) : Nat :=
  if r.spec.device then (if r.spec.block = .port then 12 else 0) else inst

/-- Configuration-space offset of register `r` in block instance `inst`, indexes `i` and `j`. -/
def RegName.addr (r : RegName) (inst i j : Nat) : Nat :=
  r.spec.block.origin.1 + r.home inst * r.spec.block.origin.2 + r.spec.base + i * r.spec.s1 + j * r.spec.s2

/-- A register met at an offset: its name, block instance and indexes. -/
structure RegRef where
  reg : RegName
  inst : Nat
  i : Nat
  j : Nat
  deriving DecidableEq, Repr

/-- Whether register `r` lies at offset `o` of a block, and with which indexes. -/
def RegName.matchAt (r : RegName) (o : Nat) : Option (Nat × Nat) :=
  if o < r.spec.base then none
  else
    let d := o - r.spec.base
    let i := d / r.spec.s1
    let j := d % r.spec.s1 / r.spec.s2
    if r.spec.n1 = 1 then (if d = 0 then some (0, 0) else none)
    else if i < r.spec.n1 ∧ j < r.spec.n2 ∧ d = i * r.spec.s1 + j * r.spec.s2 then some (i, j) else none

/-- First register of the list that lies at offset `o` of block `b`. -/
def findReg (b : Block) (o : Nat) : List RegName → Option (RegName × Nat × Nat)
  | [] => none
  | r :: rest =>
    if r.spec.block = b then
      match r.matchAt o with
      | some (i, j) => some (r, i, j)
      | none => findReg b o rest
    else findReg b o rest

/-- What stands at a configuration-space offset: nothing a block window covers (R412), an unimplemented offset inside a block
(R5), or a register. -/
inductive AtOffset where
  | outside
  | unimplemented
  | reg (r : RegRef)
  deriving DecidableEq, Repr

/-- The Thrumlink registers lie in the blocks of TL0 and TL1 only (R325). -/
def RegName.inBlock (r : RegName) (inst : Nat) : Bool :=
  if r.spec.block = .port ∧ r.spec.device then inst == 12 || inst == 13 else true

/-- Resolves an offset (R412). -/
def regAt (a : Nat) : AtOffset :=
  match blockAt a with
  | none => .outside
  | some (b, inst, o) =>
    match findReg b o allRegs with
    | some (r, i, j) => if r.inBlock inst then .reg ⟨r, inst, i, j⟩ else .unimplemented
    | none => .unimplemented

/-- Bits of register `r` whose access type satisfies `p`. -/
def RegName.mask (r : RegName) (p : Acc → Bool) : Nat :=
  r.fields.foldl (fun m fa => if p fa.2 then m ||| ((2 ^ fa.1.width - 1) <<< fa.1.lo) else m) 0

end Sys2Proof.Machine
end

