-- ==== Sys2Proof/Machine/Sparse.lean ====
section
/-!
DEFINITION. Sparse maps from a number to a value: a list of pairs with strictly rising keys in which no pair holds what an
unlisted key reads as. Every memory, table and register file of State is one of these, so that equal contents are equal data.
-/
namespace Sys2Proof.Machine

/-- The value at key `k`; an unlisted key reads as `d`. -/
def smGet {β : Type} (d : β) : List (Nat × β) → Nat → β
  | [], _ => d
  | (k', v) :: rest, k => if k' = k then v else smGet d rest k

/-- The map without key `k`. -/
def smErase {β : Type} : List (Nat × β) → Nat → List (Nat × β)
  | [], _ => []
  | (k', v) :: rest, k => if k' = k then smErase rest k else (k', v) :: smErase rest k

/-- The map with a pair put before the first higher key. -/
def smInsert {β : Type} : List (Nat × β) → Nat → β → List (Nat × β)
  | [], k, v => [(k, v)]
  | (k', v') :: rest, k, v => if k < k' then (k, v) :: (k', v') :: rest else (k', v') :: smInsert rest k v

/-- The map with key `k` set to `v`; setting what an unlisted key reads as removes the pair. -/
def smSet {β : Type} [DecidableEq β] (d : β) (m : List (Nat × β)) (k : Nat) (v : β) : List (Nat × β) :=
  if v = d then smErase m k else smInsert (smErase m k) k v

/-- The canonical form above a bound: keys strictly rising, the first at least `lo`, no value equal to `d`. -/
def smWfFrom {β : Type} [DecidableEq β] (d : β) : Nat → List (Nat × β) → Bool
  | _, [] => true
  | lo, (k, v) :: rest => decide (lo ≤ k) && decide (v ≠ d) && smWfFrom d (k + 1) rest

/-- The canonical form. -/
def smWf {β : Type} [DecidableEq β] (d : β) (m : List (Nat × β)) : Bool := smWfFrom d 0 m

end Sys2Proof.Machine
end

