-- ==== Sys2Proof/Machine/State.lean ====
section
/-!
DEFINITION. The state of the block: every register, table, queue, buffer, mode and pin the spec gives the PX-HX16-A, as plain data,
with the queue of commands that wait; and the state right after reset.
-/
namespace Sys2Proof.Machine
open Sys2Proof

/-- Why the machine stops. No meaning of the model stops: every row of the table has an effect in the spec. -/
inductive Fault where
  /-- Raised by nobody: the block has no stop of its own. Safe, since it cannot occur. -/
  | halted
  deriving DecidableEq, Repr

/-- Why a command has no meaning. -/
inductive Refusal where
  /-- Raised by an arm of `exec` whose command has no meaning in the model yet. Safe: nothing is claimed of it. -/
  | notModelled (mnemonic : String)
  deriving DecidableEq, Repr

/-- A packet waiting in an egress queue, with the time it entered (R301, R306). -/
structure QPkt where
  pkt : Packet
  since : Nat
  deriving DecidableEq, Repr

/-- The link-layer, egress and gate state of one port (R265 to R284, R301 to R304). Its settings, states and counts stand in
its registers. -/
structure Link where
  /-- Next SEQ to send (R271). -/
  sendSeq : Nat := 0
  /-- Sequenced flits sent and not acknowledged, oldest first: the replay buffer (R274). -/
  unacked : List Flit := []
  /-- Expected SEQ, E (R272). -/
  expect : Nat := 0
  /-- A sequenced flit has been received since training (ACKV). -/
  ackv : Bool := false
  /-- Credits held per VC (R277). -/
  cred : List (Nat × Nat) := []
  /-- Credits received per VC since training, G_v (R278). -/
  got : List (Nat × Nat) := []
  /-- Credits returned per VC since training, R_v (R278). -/
  ret : List (Nat × Nat) := []
  /-- Buffers freed and not yet returned, per VC (R277). -/
  owed : List (Nat × Nat) := []
  /-- Receive buffers in use, per VC (R277). -/
  used : List (Nat × Nat) := []
  /-- The partner's allocation, as ALLOC of its last CAP (R268). -/
  palloc : BitVec 64 := 0
  /-- The partner's INCARN stored at full training (R268). -/
  pincarn : BitVec 16 := 0
  /-- The last CAP received, not yet used by a training or retrain (R268). -/
  capSeen : Option CapBlock := none
  /-- A packet received in part, and its data flits still to come. -/
  part : Option (Packet × Nat) := none
  /-- Whole packets that wait for the hub, in arrival order (R287). -/
  ingress : List Packet := []
  /-- The 512 egress queues that are not empty (R301). -/
  queues : List (Nat × List QPkt) := []
  /-- Queue served last, per gate class (R302). -/
  rr : List (Nat × Nat) := []
  /-- Shaper tokens in thousandths of a byte, and when they were counted, per queue (R304). -/
  toks : List (Nat × (Int × Nat)) := []
  /-- Start of the replay timer and timeouts in a row (R275). -/
  replayAt : Nat := 0
  replays : Nat := 0
  /-- When the last flit passed its CRC (loss lasts since then, R280), the retrain in progress started, the last full training
  started, the port went DOWN, and the first wake burst left. -/
  goodAt : Nat := 0
  retrainAt : Nat := 0
  trainAt : Nat := 0
  downAt : Nat := 0
  wakeAt : Nat := 0
  /-- Round trips measured by ECHO exchanges of this training (R267). -/
  echoes : List Nat := []
  /-- When the pending leak retrain was set, and when the port was last busy (R278). -/
  leakAt : Nat := 0
  busyAt : Nat := 0
  /-- A SLEEP_REQ has been sent and not answered (R283). -/
  sleepReq : Bool := false
  /-- Last AUDIT sent, last beacon, last queue sample, last SYNC. -/
  auditAt : Nat := 0
  beaconAt : Nat := 0
  sampleAt : Nat := 0
  syncAt : Nat := 0
  /-- Gate list (R303): end of the entry in force (0 = no list runs), start of the pending switch, and that a step of time holds the
  entry to the next cycle start. -/
  gateEnd : Int := 0
  gateSwitch : Int := 0
  gateHold : Bool := false
  deriving DecidableEq, Repr

/-- An event of Table 14-15 with its header (R28): the eight words of its ring slot. -/
structure EventRec where
  src : Nat
  cls : Nat
  words : List Nat
  deriving DecidableEq, Repr

/-- The rings whose records travel as host writes (R316). -/
inductive RingId where
  | fault | plist | placement | event
  deriving DecidableEq, Repr

/-- What an acknowledged host message announces (R316, R355, R94, R345). -/
inductive Announce where
  | none
  | ring (r : RingId) (src : Nat)
  | group (g : Nat)
  | mover (q k piece : Nat)
  | bounce (id : Nat)
  deriving DecidableEq, Repr

/-- A host message: a host write or an interrupt message (Table 12-4). -/
structure HostMsg where
  addr : Nat
  data : List (BitVec 8)
  vector : Option Nat
  ann : Announce
  deriving DecidableEq, Repr

/-- Who waits for a host read (R318). -/
inductive HrdUse where
  | mover (q k piece : Nat)
  | slot (id : Nat)
  | bounce (id off : Nat)
  deriving DecidableEq, Repr

/-- An outstanding host read (R318). -/
structure Hrd where
  tag : Nat
  addr : Nat
  len : Nat
  use : HrdUse
  since : Nat
  tries : Nat
  sent : Option Nat
  deriving DecidableEq, Repr

/-- Thrumlink: the host-message stream, host reads, waiting events, ring acknowledgements (R315 to R319). -/
structure Tl where
  held : List HostMsg := []
  unack : List (Nat × HostMsg) := []
  nextTag : Nat := 0
  active : Nat := 0
  events : List EventRec := []
  hrds : List Hrd := []
  /-- Ring records sent in order, true once acknowledged, of which the producer register has not counted the first (R316). -/
  outFault : List (Bool × Nat) := []
  outPlist : List (Bool × Nat) := []
  outPlc : List (Bool × Nat) := []
  outEvt : List (Bool × Nat) := []
  /-- Events each source has emitted since its number restarted (R24, R27). -/
  seqs : List (Nat × Nat) := []
  deriving DecidableEq, Repr

/-- A multicast report entry (R297). -/
structure Report where
  rid : Nat
  group : Nat
  arrPort : Nat
  requester : Packet
  upRid : Option Nat
  wait : List Nat
  locals : Nat
  delivered : Nat
  fenced : Nat
  lost : Nat
  refused : Nat
  since : Nat
  deriving DecidableEq, Repr

/-- A request that entered the fabric at this device and is not answered yet (R70, R291, R295): its arrival and egress ports, its
first packet, and the replies held behind earlier completions of its channel, each with its egress queue. -/
structure Flow where
  arr : Nat
  out : Nat
  pkt : Packet
  replies : List (Nat × Packet) := []
  fin : Bool := false
  /-- The request entered the fabric here, so its completions are put in issue order; else it is only forwarded. -/
  ordered : Bool := true
  deriving DecidableEq, Repr

/-- The hub: routing versions, groups, reports, drain state, policers, deliveries to the device (R287 to R305). -/
structure Hub where
  /-- Routing entries, key VER × 16,384 + INDEX (Table 11-1). -/
  rt : List (Nat × BitVec 64) := []
  /-- Group entries, key VER × 1,024 + GROUP. -/
  mc : List (Nat × BitVec 64) := []
  /-- COPY or CLEAR in progress: until when (R292). -/
  opEnd : Option Nat := none
  /-- When the last flip happened, when the drain check started, when an old-epoch packet last arrived (R293). -/
  flipAt : Nat := 0
  oldAt : Nat := 0
  reports : List Report := []
  flows : List Flow := []
  /-- VC2 and VC3 packets of the device that wait for DRAINED (R295): egress port, queue, packet. -/
  heldCoh : List (Nat × Nat × Packet) := []
  /-- Policer tokens in thousandths of a byte, and when they were counted, per context (R305). -/
  pol : List (Nat × (Int × Nat)) := []
  /-- Packets handed to the device, by arrival port (15 = local), that no command has taken yet. -/
  delivered : List (Nat × Packet) := []
  /-- Local multicast deliveries in progress: report, packet (R297). -/
  mcPool : List (Nat × Packet) := []
  /-- Entries that failover moved to their alternates, as port and index, and whether its second COPY is still due (R294). -/
  moved : List (Nat × Nat) := []
  copyDue : Bool := false
  deriving DecidableEq, Repr

/-- Network time (R299, R300). -/
structure NetTime where
  /-- Network time minus local time, ns. -/
  off : Int := 0
  /-- Correction still to be slewed, ns. -/
  slew : Int := 0
  /-- Consecutive offsets inside and outside 50 ns. -/
  good : Nat := 0
  bad : Nat := 0
  /-- The SYNC whose FOLLOW_UP has not arrived: domain, sequence and arrival time. -/
  sync : Option (Nat × Nat × Int) := none
  deriving DecidableEq, Repr

/-- The interrupt controller (R352 to R358). -/
structure Intc where
  pend : BitVec 1024 := 0
  /-- Sources in the snapshot of each group that is in service (R354). -/
  snap : List (Nat × List Nat) := []
  serv : BitVec 32 := 0
  err : BitVec 32 := 0
  core0 : BitVec 32 := 0
  core1 : BitVec 32 := 0
  /-- End of the hold-off, per group; deliveries; when a refused loom call may be sent again. -/
  holdEnd : List (Nat × Nat) := []
  deliv : List (Nat × Nat) := []
  retryAt : List (Nat × Nat) := []
  /-- `INTC_GRP_CFG` and `INTC_GRP_ARG` of each group's last delivery: the delivery completes, and its call is sent again, as they said. -/
  sent : List (Nat × (Nat × Nat)) := []
  /-- Bits of W1C registers that hardware set in this cycle, by the register's address: a clear of the same cycle leaves them set (R4). -/
  wet : List (Nat × Nat) := []
  /-- The time after the last compare that a check-value unit made for reaching LEN (R363). -/
  chkAt : List (Nat × Nat) := []
  deriving DecidableEq, Repr

/-- An open record of the recorder (R367): kind, instance, ring slot, the OP_S at which its period ends, and its 256 bytes as
accumulated so far. -/
structure OpenRec where
  kind : Nat
  inst : Nat
  slot : Nat
  till : Nat
  data : BitVec 2048
  deriving DecidableEq, Repr

/-- The event recorder's nonvolatile store and counters (R366 to R371). -/
structure Evr where
  slots : List (Nat × BitVec 2048) := []
  opens : List OpenRec := []
  head : Nat := 63
  count : Nat := 0
  clears : Nat := 0
  clrSeq : Nat := 0
  /-- OP_S at power-on; OP_S adds the seconds of `now` (R366). -/
  opBase : Nat := 0
  pcyc : Nat := 0
  writeNo : Nat := 0
  ckptAt : Nat := 0
  /-- The ring slot taken last. -/
  ringAt : Nat := 16383
  deriving DecidableEq, Repr

/-- What leaves the device, in order: the model's record of its outputs. -/
inductive Emission where
  | packet (p : Nat) (k : Packet)
  | flits (p : Nat) (fs : List Flit)
  | lctl (p : Nat) (sub cause : Nat)
  | capFlit (p : Nat) (c : CapBlock)
  | echo (p : Nat) (t1 : BitVec 64) (turn : Option (BitVec 64))
  | audit (p : Nat) (counts : List Nat)
  | beacon (p : Nat) (c : CapBlock)
  | wakeBurst (p : Nat)
  | frame (bytes : List (BitVec 8))
  deriving DecidableEq, Repr
/-- An engine that issues pool accesses (R46, R64). -/
inductive Engine where
  | port (p : Nat)
  | station (q i : Nat)
  | mover (q k : Nat)
  | loom (n : Nat)
  deriving DecidableEq, Repr

/-- An order channel (R64). -/
structure Chan where
  ctx : Nat
  eng : Engine
  ch : Nat
  deriving DecidableEq, Repr

/-- What a request asks (Table 10-8, Table 3-7). -/
inductive ReqKind where
  | read | write | fetch | vread | vwrite | vopen | vclose | vbegin | vpublish | vdiscard | rdShared | rdOwn | upgrade | hint | call
  deriving DecidableEq, Repr

/-- Where a request's outcome and data go. -/
inductive Dest where
  | port (p : Nat) (k : Packet)
  | station (key n : Nat)
  | refill (key : Nat)
  | chain (n : Nat)
  | load (serial part : Nat)
  | slot (n : Nat)
  | descr (q k : Nat)
  | outcome (q k serial : Nat)
  | moverRead (q k serial off : Nat)
  | moverWrite (q k serial off : Nat)
  | mcast (rid : Nat)
  | bounce (id : Nat)
  deriving DecidableEq, Repr

/-- How far a piece has come (R34, R51, R58, R73). -/
inductive PieceState where
  | waiting          -- not translated yet
  | missed           -- in the miss queue of its engine's quarter
  | held (q e : Nat) -- a waiter of fault-table entry e of quarter q
  | started          -- at the stacks
  | remote (port tag : Nat)  -- sent to the home device of a REMOTE segment
  | served           -- its stack or home device has served it
  | done             -- folded into its request
  deriving DecidableEq, Repr

/-- One piece of a request, within one pool page (R34). -/
structure Piece where
  off : Nat
  len : Nat
  seg : Nat
  page : Nat
  inPage : Nat
  state : PieceState := .waiting
  status : Status := .ok
  /-- Failed sectors of the request, by number (R73). -/
  failed : List Nat := []
  /-- Frame key of the page once started, and the generation under which it started. -/
  frame : Nat := 0
  gen : Nat := 0
  /-- Lines of the piece not served yet. -/
  todo : Nat := 0
  /-- Queued at the invalidate point of a revoke that has not reached its step 4 (R58). -/
  rvk : Bool := false
  /-- Start of the current hold by a fault (R53). -/
  heldAt : Nat := 0
  /-- When a resume released it from its fault, or a revoke ended it: an abort in that cycle comes too late (Table 3-5). -/
  retried : Option Nat := none
  /-- It has started (R34 step 5). -/
  begun : Bool := false
  /-- A stack controller has served a line of it: its frame has counted it (R138). -/
  seen : Bool := false
  deriving DecidableEq, Repr

/-- A pool request (R34, R64 to R74). -/
structure Req where
  id : Nat
  chan : Chan
  tag : Nat
  kind : ReqKind
  seg : Nat
  addr : Nat
  len : Nat
  vh : Nat := 0
  data : List (BitVec 8) := []
  /-- Bytes of write data received so far (R282). -/
  have_ : Nat := 0
  pieces : List Piece := []
  fold : Bool := false
  stash : Option Nat := none
  /-- Source lines known lost: a mover write that must leave poison (R94), by sector. -/
  lostSrc : List Nat := []
  /-- Status fixed without pieces, the ABT bit, INFO and RESULT (Table 3-2). -/
  fixed : Option Status := none
  abt : Bool := false
  info : Nat := 0
  result : Nat := 0
  /-- Refused by R68: it holds no place in its channel. -/
  refused : Bool := false
  marked : Bool := false
  /-- Its link was lost: its completion is discarded (R70). -/
  mute : Bool := false
  /-- Offset of the request's first byte in what its sectors are counted from: the descriptor, for a mover (R94). -/
  base : Nat := 0
  /-- Source endpoint of forwarded pieces (R39). -/
  ep : Nat := 0
  dest : Dest
  deriving DecidableEq, Repr

/-- A completed outcome block (Table 3-2). -/
structure Outcome16 where
  tag : Nat
  ch : Nat
  abt : Bool
  status : Status
  worst : Status
  maskv : Bool
  info : Nat
  word1 : Nat
  deriving DecidableEq, Repr

/-- A translation-buffer entry: one extent run (R46). -/
structure TlbEntry where
  ctx : Nat
  seg : Nat
  first : Nat
  count : Nat
  framePg : Nat
  frameStk : Nat
  spread : Nat
  /-- R, W, X and C of the segment as the entry was filled. -/
  perm : Nat
  gen : Nat
  deriving DecidableEq, Repr

/-- A second-level entry: the pages of one aligned 16-page block that lie in one extent (R47). -/
structure L2Entry where
  block : Nat
  mask : Nat
  run : TlbEntry
  deriving DecidableEq, Repr

/-- A miss that waits in its quarter's miss queue (R48). `fault` marks one whose fault waits for a table entry (R53). -/
structure Miss where
  q : Nat
  req : Nat
  piece : Nat
  ctx : Nat
  seg : Nat
  page : Nat
  fault : Bool := false
  deriving DecidableEq, Repr

/-- A walk in progress: its walker, what it walks for, the generation it recorded, and the entries that cover pages of its
16-page block in the table as it stood when the walk started, as their two words (R38, R48, R50). -/
structure Walk where
  q : Nat
  walker : Nat
  ctx : Nat
  seg : Nat
  block : Nat
  gen : Nat
  ents : List (Nat × Nat)
  /-- Entries whose lines are still to be read, in the order of the bisection (R48). -/
  probes : List Nat := []
  deriving DecidableEq, Repr

/-- A fault-table entry in use (R51, R52). -/
structure FaultEntry where
  q : Nat
  e : Nat
  ctx : Nat
  seg : Nat
  page : Nat
  kind : Nat
  ch : Nat
  port : Nat
  gen : Nat
  waiters : List (Nat × Nat)
  /-- Accesses joined so far (Table 2-16). -/
  joined : Nat
  since : Nat
  /-- Its record is written to the log: acknowledged (Table 2-16, R316). -/
  recorded : Bool
  deriving DecidableEq, Repr

/-- A stamped record that waits for the fault log (R53): the quarter of its source, the fault it describes with the waiters it
held when it freed, and its words. -/
structure LogRec where
  q : Nat
  entry : Option (Nat × Nat)
  waiters : Nat
  words : List Nat
  deriving DecidableEq, Repr

/-- A revoke command with the range and image of its write (R57). -/
structure Revoke where
  ctx : Nat
  seg : Nat
  typ : Nat
  first : Nat
  count : Nat
  new : Nat
  tag : Nat
  /-- Migration slots (stack, slot) a migration's own REMAP frees at step 5 (R141). -/
  slots : List (Nat × Nat) := []
  /-- Step 4 is done, and how many requests it ended; step 5 waits until the movers of the context are idle (R58, R92). -/
  ended : Option Nat := none
  /-- Attributes of the segments it touches, as they stood before step 1. -/
  old : List (Nat × Nat) := []
  deriving DecidableEq, Repr

/-- Translation (R46 to R62). -/
structure Xlt where
  tlb : List (Engine × List TlbEntry) := []
  /-- Second level of each quarter, key QUARTER. -/
  l2 : List (Nat × List L2Entry) := []
  missQ : List Miss := []
  walks : List Walk := []
  faults : List FaultEntry := []
  /-- Serial of fault-table entry QUARTER × 128 + ENTRY. -/
  serials : List (Nat × Nat) := []
  recQ : List LogRec := []
  rvkQ : List Revoke := []
  rvkRun : List Revoke := []
  deriving DecidableEq, Repr

/-- Who asked for an abort and is told how it went: a packet of a port in a context, or ticket `n` of a station, which waits for operation
number `serial` (R75, R224). -/
inductive Aborter where
  | port (p : Nat) (k : Packet) (ctx : Nat)
  | ticket (key n serial : Nat)
  deriving DecidableEq, Repr

/-- What a cycle decides at its end, after the other events of the cycle (Tables 2-5, 3-5 and 3-8): the lease of a version, the timeout of
a fault-table entry of a quarter, an abort, the replay of a link, the lease of the tandem. -/
inductive Late where
  | lease (region slot : Nat)
  | timeout (q e : Nat)
  | abort (c : Chan) (tag : Nat) (from_ : Aborter)
  | replay (p : Nat)
  | token
  deriving DecidableEq, Repr

/-- A completed request of an engine of the device, whose engine has not taken it yet. -/
structure Done where
  dest : Dest
  out : Outcome16
  failed : List Nat
  data : List (BitVec 8)
  deriving DecidableEq, Repr

/-- What a line access is for: a piece of a request; the read of the directory's open transaction of its line; a write of the directory, of data
an owner returned or of poison; probe `i` of a walk (R48, R121, R415). -/
inductive LineFor where
  | piece
  | grant
  | back
  | probe (q walker i : Nat)
  deriving DecidableEq, Repr

/-- A line access on its way to or in a stack controller (R121 to R123). Bytes `off ..` of the line are read, or written when
`wr`; `req` and `piece` name the piece it serves, where it is for one. -/
structure LineReq where
  req : Nat
  piece : Nat
  port : Nat
  frame : Nat
  line : Nat
  wr : Bool
  off : Nat
  len : Nat
  bytes : List (BitVec 8)
  fold : Bool := false
  strict : Bool := false
  /-- Part of a full-page streaming write, whose page code is written inline (R85, R157). -/
  whole : Bool := false
  poison : Bool := false
  gen : Nat := 0
  /-- Arrival cycle, T and the order of arrival (R122). -/
  arr : Nat := 0
  target : Nat := 0
  src : LineFor := .piece
  /-- The line under a write, where an owner returned it (R106). -/
  under : Option (List (BitVec 8)) := none
  /-- It has met a full bank queue (R123). -/
  waited : Bool := false
  deriving DecidableEq, Repr

/-- Outstanding requests and refusals (R64 to R70). -/
structure Ord where
  /-- In issue order within each channel. -/
  reqs : List Req := []
  nextId : Nat := 0
  /-- Lines of started pieces of stations that wait for a place among the 384 of their pool path, with their stash targets (R183). -/
  path : List (LineReq × Option Nat) := []
  /-- Channels in refusal, each with the number of the first request refused (R68). -/
  refusing : List (Chan × Nat) := []
  nextTag : Nat := 0
  done : List Done := []
  /-- Versioned operations, by request, that have reached their version unit and are not applied; rotating pointer of each unit (R78). -/
  atUnit : List Nat := []
  turn : List (Nat × Nat) := []
  /-- What the cycle decides at its end. -/
  late : List Late := []
  deriving DecidableEq, Repr

/-- A retained version in a slot of its region (R81, R84). -/
structure VSlot where
  used : Bool := false
  ver : Nat := 0
  opens : Nat := 0
  serial : Nat := 0
  /-- Remap list: region page to shadow page. -/
  remap : List (Nat × Nat) := []
  /-- When the version stopped being current. -/
  stopped : Option Nat := none
  /-- Serials whose opens ended by lease or force-close (R79). -/
  ended : List Nat := []
  deriving DecidableEq, Repr

/-- A pending version (R82). -/
structure PSlot where
  used : Bool := false
  base : Nat := 0
  serial : Nat := 0
  remap : List (Nat × Nat) := []
  /-- Its own pages, by region page. -/
  own : List Nat := []
  deriving DecidableEq, Repr

/-- The versions of one region (R78 to R84). -/
structure RegionSt where
  cur : Nat := 0
  curSlot : Nat := 0
  slots : List VSlot := List.replicate 16 {}
  pends : List PSlot := List.replicate 4 {}
  deriving DecidableEq, Repr

/-- A descriptor in flight on a mover channel (R93, R94). -/
structure Desc where
  serial : Nat
  handle : Nat
  words : List Nat
  /-- It failed its checks. -/
  denied : Bool
  /-- Next byte to issue, bytes finished, failed sectors, worst status. -/
  issued : Nat
  finished : Nat
  failed : List Nat
  worst : Status
  /-- Its outcome write has been issued. -/
  written : Bool := false
  /-- Bytes fed to the check-value units, and written chunks not fed yet: offset, bytes, whether failed sectors are among them (R361). -/
  fed : Nat := 0
  chunks : List (Nat × List (BitVec 8) × Bool) := []
  deriving DecidableEq, Repr

/-- A mover channel (R91 to R96). Its state, context, outcome and counts stand in its registers. -/
structure Mover where
  /-- Handle of the next descriptor to start; 0 = none. -/
  next : Nat := 0
  descs : List Desc := []
  serial : Nat := 0
  /-- The handle of the descriptor fetch that is outstanding or waits to be taken. -/
  fetching : Option Nat := none
  /-- A RETRY is to rerun the descriptor at CUR before the chain goes on. -/
  retry : Bool := false
  /-- The first failure that will halt the channel: handle, status, WBF, tag. -/
  failing : Option (Nat × Status × Bool × Nat) := none
  /-- A STOP waits for started work; V is then cleared when a CONTEXT revoke asked for it (R92). -/
  stopping : Bool := false
  clearV : Bool := false
  /-- When the STOP was accepted (R96). -/
  stopAt : Option Nat := none
  deriving DecidableEq, Repr

/-- The pool: memory, extent tables, line sidebands, page-state words, placement words, release map. Memory keys are
((stack × 1,572,864 + page) × 65,536 + byte); line keys are (frame key × 1,024 + line); frame keys are stack × 1,572,864 + page. -/
structure Pool where
  mem : List Host.Cell := []
  /-- Extent entry words, key 2 × INDEX + word (R41). -/
  ext : List (Nat × BitVec 64) := []
  /-- Sideband of a line, by line key: check bytes C0 to C2, the tag byte (bit 24 POISON, bit 25 COW, bit 26 MIG) and the CTRL bytes (R145). -/
  side : List (Nat × BitVec 64) := []
  /-- Page-state word by frame key (R151). -/
  pstate : List (Nat × BitVec 64) := []
  /-- Placement word by frame key (R138). -/
  place : List (Nat × BitVec 16) := []
  /-- Frames whose release bit is set, by frame key (R328). -/
  release : List (Nat × Bool) := []
  /-- When the last copy of a migration used up the device's copy rate (R141). -/
  copyAt : Nat := 0
  deriving DecidableEq, Repr
/-- State of a directory entry (Table 4-1); a line without an entry is in I, an open transaction makes it Busy. -/
inductive DirState where
  | shared | broad | owned
  deriving DecidableEq, Repr

/-- A directory entry: up to four pointers of agent and GTAG, and when it was last used (R101, R103). -/
structure DirEntry where
  state : DirState
  ptrs : List (Nat × Nat)
  used : Nat
  deriving DecidableEq, Repr

/-- Why a transaction is open (R415, R106, R107, R103, R115, R102). -/
inductive TxnWhy where
  | rdShared (req : Nat)
  | rdOwn (req : Nat)
  | upgrade (req : Nat)
  | engRead (l : LineReq)
  | engWrite (l : LineReq) (target : Option Nat)
  | recall
  deriving DecidableEq, Repr

/-- A snoop not answered yet: agent, GTAG, when it left, and an RspI with EVS = 1 seen (R109). -/
structure Snoop where
  agent : Nat
  gtag : Nat
  since : Nat
  evs : Bool := false
  deriving DecidableEq, Repr

/-- An open transaction of a slice (R105). -/
structure Txn where
  line : Nat
  why : TxnWhy
  snoops : List Snoop := []
  /-- Peer slots whose BAck is awaited, with the time of their BInv (R102). -/
  backs : List (Nat × Nat) := []
  /-- The stash target whose answer is awaited, and since when (R106). -/
  stash : Option (Nat × Nat) := none
  /-- The stash timed out: the snoop to the target discards returned data. -/
  stashLate : Bool := false
  /-- Data an owner returned. -/
  data : Option (List (BitVec 8)) := none
  /-- The line whose new entry a capacity recall makes room for (R103). -/
  room : Option Nat := none
  /-- The memory line is read through port 5; what the read gave, its data and whether it is poison (R121). -/
  reading : Bool := false
  got : Option (List (BitVec 8) × Bool) := none
  deriving DecidableEq, Repr

/-- A broadcast this device answers for a home on another device (R102): the BInv, its port, and the snoops of local agents. -/
structure PeerInv where
  lid : BitVec 64
  home : BitVec 20
  port : Nat
  snoops : List Snoop
  deriving DecidableEq, Repr

/-- A reclaim sweep: quarter, agent, lines poisoned, start, and the lines whose entries named the agent when it was declared dead, with the
grant tags of its pointers (R113). -/
structure Sweep where
  q : Nat
  agent : Nat
  lines : Nat
  since : Nat
  held : List (Nat × Nat) := []
  deriving DecidableEq, Repr

/-- The coherence directory (R98 to R116). -/
structure Coh where
  /-- Entries by line key. -/
  dir : List (Nat × Option DirEntry) := []
  txns : List Txn := []
  /-- Accesses that reached the slices in this cycle, and those that wait for their line's transaction, in arrival order (R105). -/
  arrived : List (Nat × TxnWhy) := []
  waiting : List (Nat × TxnWhy) := []
  /-- Grants of each line so far (R101). -/
  grants : List (Nat × Nat) := []
  /-- Rotating pointer of each slice (R105). -/
  rr : List (Nat × Nat) := []
  clock : Nat := 0
  peers : List PeerInv := []
  sweeps : List Sweep := []
  /-- Poison-list entries that wait for the ring (R114). -/
  plist : List Nat := []
  /-- When a peer slot's route was last seen to exist (R112). -/
  routeAt : List (Nat × Nat) := []
  /-- Owned lines of a slice that was reset without its recall, with their owners and the owners' contexts: poison once the quarter returns
  (R116). -/
  lost : List (Nat × Nat × Nat) := []
  /-- Agents that broke R100, to be declared dead (R100, R415). -/
  condemned : List Nat := []
  deriving DecidableEq, Repr

/-- A bank (R126, R127, R131, R132). -/
structure Bank where
  row : Option Nat := none
  hist : Nat := 0
  /-- Consecutive hits served while a request for another row waited, and their row (R127). -/
  streak : Nat := 0
  streakRow : Option Nat := none
  /-- Cycles of the last activate, precharge and refresh (Table 5-3). -/
  act : Option Nat := none
  pre : Option Nat := none
  ref : Option Nat := none
  /-- The row-hammer table, lowest-numbered entry first, and its spill count. -/
  rh : List (Nat × Nat) := []
  spill : Nat := 0
  debt : Int := 0
  /-- Rows of neighbour refreshes queued. -/
  nref : List Nat := []
  /-- Cycle of the last access, or of the activate (R126). -/
  lastHit : Nat := 0
  dueAt : Nat := 0
  /-- No access has been served since the row was activated. -/
  fresh : Bool := false
  /-- When the row-hammer table may next clear. -/
  clearAt : Nat := 0
  deriving DecidableEq, Repr

/-- A channel: its bank-group pointer, last direction, column budget, failed passes, the first cycle in which its row bus and its column bus are free,
its last four activates, newest first, and the last read and write of each bank group (R124, R125, R129, R135, Table 5-3). -/
structure ChanSt where
  bgp : List (Nat × Nat) := []
  lastWr : List (Nat × Bool) := []
  window : Nat := 0
  cols : Nat := 0
  fails : Nat := 0
  rowFree : Nat := 0
  colFree : Nat := 0
  acts : List Nat := []
  rdAt : List (Nat × Nat) := []
  wrAt : List (Nat × Nat) := []
  deriving DecidableEq, Repr

/-- A migration slot (Table 5-8). Its STATE, STATUS, TAG and POISONED stand in `STK_MIG_STAT`. -/
structure MigSlot where
  ctx : Nat := 0
  seg : Nat := 0
  page : Nat := 0
  src : Nat := 0
  dst : Nat := 0
  extIndex : Nat := 0
  extCount : Nat := 0
  last : Bool := false
  /-- The batch it belongs to (R141). -/
  batch : Nat := 0
  /-- When its command came: its copy starts then at the earliest. -/
  since : Nat := 0
  deriving DecidableEq, Repr

/-- A fold slot: its frame key, the lines it holds, when it opened and when it was last written (R159, R160). -/
structure Fold where
  frame : Nat
  /-- The lines it holds, each as the 72 symbols of its line code. -/
  lines : List (Nat × List (BitVec 8))
  since : Nat
  lastWr : Nat
  /-- Context of the write that opened it. -/
  ctx : Option Nat := none
  deriving DecidableEq, Repr

/-- A placement scan in progress: class, entries left (0 = no limit counted down as none), next frame (R139). -/
structure Scan where
  cls : Nat
  left : Option Nat
  next : Nat
  deriving DecidableEq, Repr

/-- One stack controller (R118 to R171). -/
structure Stk where
  /-- Line accesses on their way, and port buffers, by requester port. -/
  coming : List (Nat × List LineReq) := []
  bufs : List (Nat × List LineReq) := []
  /-- Bank queues and banks, key channel × 32 + bank group × 4 + bank. -/
  queues : List (Nat × List LineReq) := []
  banks : List (Nat × Bank) := []
  chans : List (Nat × ChanSt) := []
  mig : List MigSlot := List.replicate 4 {}
  scan : Option Scan := none
  folds : List Fold := []
  cdq : List (Nat × Nat) := []
  lastReq : Nat := 0
  entryAt : Nat := 0
  exitAt : Nat := 0
  /-- When the row-hammer period started (R132, Table 5-6). -/
  rhAt : Nat := 0
  /-- COLS as it acts in the present window (R129). -/
  cols : Nat := 64
  /-- The training pass that runs, and when it started (R135). -/
  pass : Option (TrainPass × Nat) := none
  /-- Cached placement words by page, least recently used first, and hints that came while the stack slept (R138, R139). -/
  plc : List (Nat × BitVec 16) := []
  hints : List (Nat × Nat) := []
  /-- A wake came while it entered self-refresh: it leaves it again at once (R33). -/
  wakeAfter : Bool := false
  entryTemp : Nat := 0
  passAt : Nat := 0
  passTemp : Nat := 0
  batchAt : Nat := 0
  decayAt : Nat := 0
  leakAt : Nat := 0
  /-- Frames of the P0 zone below this hold untrusted contents, written as poison by a rebuild (R165). -/
  untrusted : Nat := 0
  /-- The stack returned from being missing and awaits rebuild in its P1 group, its pair (R164). -/
  awaitP1 : Bool := false
  awaitP2 : Bool := false
  missing : Bool := false
  /-- Frames below this have been rebuilt since the stack returned (R165, R166). -/
  rebTo : Nat := 0
  /-- When the rebuild last moved on, and the lines it could not reconstruct in the unit (R165). -/
  rebAt : Nat := 0
  rebLost : Nat := 0
  deriving DecidableEq, Repr
/-- A ticket of a station (R201, R223): the pool operation it waits for, and the outcome it holds. -/
structure Ticket where
  op : Option Nat := none
  ch : Nat := 0
  status : Status := .ok
  worst : Status := .ok
  abt : Bool := false
  maskv : Bool := false
  info : Nat := 0
  word1 : Nat := 0
  deriving DecidableEq, Repr

/-- What holds an entry of the range scoreboard (R207): a queued mma, a pool operation, a send, a receive, by serial. -/
inductive RangeOf where
  | mma (n : Nat)
  | op (n : Nat)
  | send (n : Nat)
  | recv (n : Nat)
  deriving DecidableEq, Repr

/-- A tracked range of local-store bytes, in whole 64-byte lines (R207). -/
structure Range where
  lo : Nat
  hi : Nat
  dst : Bool
  of : RangeOf
  deriving DecidableEq, Repr

/-- A pool operation of a station that has not landed (R222, R223): ticket 15 = untracked; `req` is its request while it is issued,
`tries` the refusals it has met and `at` when it met the last. -/
structure PoolOp where
  serial : Nat
  ticket : Nat
  ch : Nat
  kind : ReqKind
  ls : Nat := 0
  addr : Nat := 0
  len : Nat := 0
  vh : Nat := 0
  data : List (BitVec 8) := []
  fold : Bool := false
  stash : Option Nat := none
  hint : Nat := 0
  req : Option Nat := none
  tries : Nat := 0
  at_ : Nat := 0
  deriving DecidableEq, Repr

/-- An mma in the array queue (R216, R217): accumulator, formats, tile addresses, reduction length, AU, WU, WT and row stride. -/
structure MmaOp where
  serial : Nat
  acc : Nat
  zero : Bool
  fa : Nat
  fw : Nat
  a : Nat
  w : Nat
  len : Nat
  au : Bool
  wu : Bool
  wt : Bool
  stride : Nat
  deriving DecidableEq, Repr

/-- A send whose flits have not all left (R219). -/
structure Send where
  serial : Nat
  route : Nat
  scalar : Bool
  data : List (BitVec 8)
  deriving DecidableEq, Repr

/-- A posted receive (R219, R220): of `len` bytes into address `addr`, or of a scalar into register `reg`; the instruction it came from. -/
structure Recv where
  serial : Nat
  route : Nat
  scalar : Bool
  reg : Nat := 0
  addr : Nat := 0
  len : Nat := 0
  got : Nat := 0
  pc : Nat
  insn : BitVec 64
  deriving DecidableEq, Repr

/-- A weft flit in a switch (R182, R241): sender, route, kind, 32 bytes; whether a copy is still to be delivered at this site, the hops
left (direction, deliver at the site it enters), failed receptions of the next hop, when it came and whether its stall was reported. -/
structure WFlit where
  src : Nat
  route : Nat
  scalar : Bool
  data : List (BitVec 8)
  here_ : Bool
  path : List (Nat × Bool)
  fails : Nat := 0
  since : Nat
  stalled : Bool := false
  deriving DecidableEq, Repr

/-- A station (R173 to R234). Its site state, cause, context, drop count and trap record stand in `STN_SITE` and `STN_TRAP0` to `3`. -/
structure Stn where
  /-- The loom and draft that hold it; the stage program's handle and the program in the instruction cache (R177). -/
  loom : Option Nat := none
  draft : Nat := 0
  prog : Nat := 0
  code : List (BitVec 64) := []
  /-- The cache line being refilled after a parity error (R177). -/
  refill : Option Nat := none
  /-- Machine state (Table 8-1): s0–s31; lanes of v, key 64 × register + lane; elements of acc, key (16 × tile + row) × 64 + column;
  p0–p7; bytes of the local store and written bits of its 1 KiB blocks. -/
  s : List (Nat × BitVec 64) := []
  v : List (Nat × BitVec 32) := []
  acc : List (Nat × BitVec 32) := []
  p : List (Nat × BitVec 64) := []
  ls : List Host.Cell := []
  written : List (Nat × Bool) := []
  pc : Nat := 0
  tickets : List (Nat × Ticket) := []
  chst : List (Nat × Status) := []
  ranges : List Range := []
  queue : List MmaOp := []
  routes : List (Nat × BitVec 64) := []
  rctr : BitVec 64 := 0
  key : BitVec 64 := 0
  /-- System registers (Table 8-13). -/
  beats : Nat := 0
  loadAt : Nat := 0
  entry : Nat := 0
  arg : BitVec 64 := 0
  /-- The sequencer runs; it is blocked in a wait or a receive; a pause of its loom is pending (R227). -/
  run : Bool := false
  blocked : Bool := false
  pausing : Bool := false
  /-- Asynchronous work, oldest first, and the serial of the next. -/
  ops : List PoolOp := []
  sends : List Send := []
  recvs : List Recv := []
  serial : Nat := 0
  /-- The cause of the fence that is draining (R195); when the last fault or fence cause of the site was recorded (R199); a self-test runs
  (R197). -/
  fence : Option Nat := none
  causeAt : Option Nat := none
  selftest : Bool := false
  /-- Switch queues: flits received from N, E, S, W (0 to 3) and from the site's own core (4). -/
  sw : List (Nat × List WFlit) := []
  deriving DecidableEq, Repr

/-- A call (R244 to R250): the fields of its packet, its draft and entry pcs, its start, what `cmpl` recorded, the stations that have not
halted, the status that is ending it, whether it ends only when its loom set resumes (Table 9-11), and the interrupt group it was sent for
(R353). -/
structure Call where
  loom : Nat
  entry : Nat
  tag : Nat
  ch : Nat
  arg : Nat
  rmode : Nat
  failv : Bool
  repEp : Nat
  failEp : Nat
  jid : Nat
  slots : Nat
  draft : Nat
  pcsel : Nat
  start : Nat := 0
  cmpl : Option (Nat × Nat) := none
  wait : List Nat := []
  ending : Option Status := none
  held : Bool := false
  group : Option Nat := none
  deriving DecidableEq, Repr

/-- A draft (R239): its rectangle, the running call and the queue, and whether it lost a stage it cannot mend. -/
structure Draft where
  q : Nat
  row : Nat
  col : Nat
  rows : Nat
  cols : Nat
  run : Option Call := none
  queue : List Call := []
  lost : Bool := false
  deriving DecidableEq, Repr

/-- A station entry of a draft image (Table 9-3). The site is QUARTER × 324 + SITE. -/
structure StnEnt where
  site : Nat
  draft : Nat
  ninsn : Nat
  prog : Nat
  pcs : List Nat
  deriving DecidableEq, Repr

/-- Word 0 of a sequence slot (Table 9-9). -/
structure SeqSlot where
  st : Nat := 0
  draft : Nat := 0
  retries : Nat := 0
  tag : Nat := 0
  deriving DecidableEq, Repr

/-- A loom (R235 to R252). Its state and counts stand in `STN_LOOM_STAT`. -/
structure LoomSt where
  drafts : List Draft := []
  entries : List Nat := []
  stns : List StnEnt := []
  slots : List (Nat × SeqSlot) := []
  /-- Sites it holds, those without a stage program among them. -/
  sites : List Nat := []
  /-- A PAUSE command paused it; a RESET waits for the started requests of its stations (R238). -/
  byCmd : Bool := false
  resetting : Bool := false
  deriving DecidableEq, Repr

/-- A chained call (R248): the call it follows, the handle A, the packet once it has been sent, and the port it left by, if by one. -/
structure Chain where
  serial : Nat
  call : Call
  a : Nat
  sent : Option Packet := none
  port : Option Nat := none
  deriving DecidableEq, Repr

/-- A fence-and-mend request (R257, R258): the fenced site, its loom and draft, its replacement once the captain has acted and when it
did, and whether firmware has stopped waiting for the set. -/
structure Mend where
  site : Nat
  loom : Nat
  draft : Nat
  prog : Nat := 0
  code : List (BitVec 64) := []
  routes : List (Nat × BitVec 64) := []
  dst : Option Nat := none
  start : Nat := 0
  waited : Bool := false
  deriving DecidableEq, Repr

/-- A LOAD that reads its draft image (R237 step 1): 0 = the header, 1 = its tables, 2 = the stage programs; the reads still out, what has come
with its status, by part, and the words of the header and of the four tables. -/
structure Load where
  serial : Nat
  loom : Nat
  phase : Nat := 0
  out : Nat := 1
  got : List (Nat × (Status × List (BitVec 8))) := []
  head : List Nat := []
  tabs : List (List Nat) := []
  deriving DecidableEq, Repr

/-- The looms of the device (R235 to R261). -/
structure Looms where
  looms : List (Nat × LoomSt) := []
  loads : List Load := []
  chains : List Chain := []
  mends : List Mend := []
  serial : Nat := 0
  deriving DecidableEq, Repr

/-- How far a bounce slot has come (R345): its slot is being read; read; its IN data are being read; its pool request runs; its OUT
data are being written; its outcome is known; its completion is being written. -/
inductive BncStage where
  | slot | read | data | pool | out | ended | completion
  deriving DecidableEq, Repr

/-- A bounce slot at work (R345). -/
structure BSlot where
  id : Nat
  /-- SEQ expected of the slot, and the host address of the slot. -/
  seq : Nat
  host : Nat
  words : List Nat := []
  stage : BncStage := .slot
  /-- IN data with their tag as read so far, or the plaintext of an OUT transfer. -/
  data : List (BitVec 8) := []
  /-- Bytes of `data` read, and host writes of the slot not acknowledged yet. -/
  got : Nat := 0
  acks : Nat := 0
  status : Status := .ok
  worst : Status := .ok
  failed : List Nat := []
  deriving DecidableEq, Repr

/-- A confidential session (R344, R345). STATE, CAUSE and CTX stand in `SEC_SESS_STAT`. -/
structure Sess where
  /-- The pending key: its number, the nonce it was issued for, the quote body, and when it was issued. -/
  ek : Option Nat := none
  nonce : List Nat := []
  body : List Nat := []
  ekAt : Nat := 0
  /-- K_in, K_out and K_cfm, 96 bytes, while ACTIVE. -/
  key : List (BitVec 8) := []
  /-- SEQ of the next slot to read, and the slots at work in SEQ order. -/
  next : Nat := 0
  slots : List BSlot := []
  deriving DecidableEq, Repr

/-- A release: its extent range and tag (R328). -/
structure Release where
  first : Nat
  count : Nat
  tag : Nat
  deriving DecidableEq, Repr

/-- A release that runs: its frames, and whether an entry could not be read. -/
structure RelRun where
  rel : Release
  frames : List Nat
  bad : Bool
  /-- When its fill began. -/
  since : Nat := 0
  deriving DecidableEq, Repr

/-- Settings of the ledger (Table 13-13). -/
inductive Setting where
  | debug | layout | floor | owner | retire
  deriving DecidableEq, Repr

/-- A record of the ledger's change log (R349). -/
structure LedgerRec where
  lseq : Nat
  setting : Setting
  old : Nat
  new : Nat
  opS : Nat
  pcyc : Nat
  digest : List (BitVec 8)
  deriving DecidableEq, Repr

/-- An AUTH held for the next change of its setting (R348, Table 13-14). -/
structure AuthHeld where
  setting : Setting
  value : Nat
  digest : List (BitVec 8)
  deriving DecidableEq, Repr

/-- A management command of which only the first packet has come, and the requester of a firmware update (R349, R395). -/
structure MgtPart where
  port : Nat
  pkt : Packet
  data : List (BitVec 8)
  deriving DecidableEq, Repr

/-- The SEC block (R328 to R349). -/
structure Sec where
  /-- Sessions, by TL port. -/
  sess : List (Nat × Sess) := []
  nextSlot : Nat := 0
  /-- Encapsulation keys issued so far. -/
  keks : Nat := 0
  relQ : List Release := []
  relRun : Option RelRun := none
  /-- The ledger: owner-key digest (empty = unset), change log, retired sites (quarter × 324 + site). -/
  owner : List (BitVec 8) := []
  log : List LedgerRec := []
  retired : List (Nat × Bool) := []
  auths : List AuthHeld := []
  /-- Working copy of the measurement registers while a transition is in progress (R338). -/
  mrWork : Option (List (List (BitVec 8))) := none
  /-- A firmware transition is in progress; the staged image; the image of the current and the previous firmware slot (none = the
  one set at manufacture); the command to answer. -/
  fwTrans : Bool := false
  staged : Option (List (BitVec 8)) := none
  fw : Option (List (BitVec 8)) := none
  fwPrev : Option (List (BitVec 8)) := none
  fwCmd : Option (Nat × Packet) := none
  /-- Attestation keys made so far; the number and identity leaf of the current and of the next one (R339). -/
  akMade : Nat := 0
  ak : Option (Nat × Nat) := none
  akNext : Option (Nat × Nat) := none
  /-- First packets of multi-packet commands that wait for the rest. -/
  parts : List MgtPart := []
  deriving DecidableEq, Repr

/-- Power, clocks and pins (R374 to R397). Measurements and settings stand in their registers. -/
structure Power where
  /-- `PORST_N` is low; the input is lost until a restart (R376). -/
  porst : Bool := true
  off : Bool := false
  /-- Straps sampled from STAT[2:0] while `PORST_N` was low (R396). -/
  straps : Nat := 0
  /-- `TAMPER_N` is low (R397). -/
  tamper : Bool := false
  /-- Firmware has written `PWR_FAN` since `PORST_N` was released (R381). -/
  fans : Bool := false
  /-- Last change of the throttle level, and the last run of the loop (R378). -/
  lastChange : Nat := 0
  loopAt : Nat := 0
  /-- The time after a site of each quarter was last busy (R385), and after the conditions for deep idle last failed (R386). -/
  busyAt : List (Nat × Nat) := []
  idleFrom : Nat := 0
  /-- Array duty of each quarter in the present window of 16 station cycles (R193), and array cycles of each context that the throttle held and
  `SEC_OBS.THR_KCYC` has not counted (R331). -/
  duty : List (Nat × Nat) := []
  arrayHeld : List (Nat × Nat) := []
  /-- Deep idle: 0 = awake, 1 = entering, 2 = deep idle (R386). -/
  deep : Nat := 0
  /-- Bridges declared down, bit by bridge, and failed retrains in a row (R12, R13). -/
  bridgeDown : Nat := 0
  bridgeFails : List (Nat × Nat) := []
  /-- Status of the last sideband WRITE (R396). -/
  smb : Option Status := none
  /-- Instruction in the test access port (R397). -/
  tap : TapCode := .bypass
  deriving DecidableEq, Repr

/-- How far a firmware update has come (R395): the stoker's core restarts; the former captain's core restarts; both run the new
image; a core failed. -/
inductive FwStep where
  | stoker | captain | both | failed
  deriving DecidableEq, Repr

/-- The management tandem (R387 to R396). Its roles, counts and journal stand in its registers. -/
structure Tandem where
  /-- The core whose writes are refused: it lost the captain role and has no role yet, with the time its role ended (R391). -/
  former : Option (Nat × Nat) := none
  /-- Cores that run firmware or boot ROM: bit 0 = core Q0, bit 1 = core Q3. -/
  up : Nat := 0
  /-- Cores verified at start-up step 3. -/
  verified : Nat := 0
  /-- The captain's last heartbeat, and heartbeats missed in a row (R390). -/
  beatAt : Nat := 0
  missed : Nat := 0
  /-- Actions journalled so far, and the last action of a captain. -/
  jrnl : Nat := 0
  actAt : Nat := 0
  /-- The captain is new: its first action is numbered APPLIED + 65,536 (R390). -/
  newCapt : Bool := false
  /-- When the lease runs out (R393), and when core Q3 last took a free or expired token: core Q0 wins it in the same cycle (Table 15-11). -/
  leaseEnd : Nat := 0
  tookAt : Option Nat := none
  /-- Since when there is no captain, and whether its 100 ms have passed (R394). -/
  noneAt : Nat := 0
  noneOver : Bool := false
  fw : Option FwStep := none
  /-- Lease mode follows a period with no captain (R393, R394). -/
  recovery : Bool := false
  deriving DecidableEq, Repr

/-- A configuration image (Table 16-2): its bytes, and how far its entries have been applied (R403, R404). -/
structure ImgRun where
  bytes : List (BitVec 8)
  next : Nat
  /-- Start of the POLL that waits, and when it reads next. -/
  pollAt : Option (Nat × Nat)
  /-- It is the kept copy of a warm start. -/
  kept : Bool
  deriving DecidableEq, Repr

/-- Start-up and resets (R401 to R411). -/
structure Start where
  /-- A LOAD held until step 7: the image its host reads give, or none where one of them fails. -/
  held : Option (Option (List (BitVec 8))) := none
  run : Option ImgRun := none
  /-- The kept copy of the image in force (R404). -/
  kept : Option (List (BitVec 8)) := none
  /-- Ports whose EN takes effect at step 8. -/
  fabric : Nat := 0
  waitAt : Nat := 0
  /-- Quarters whose return failed, with the number of failures in a row (R409). -/
  fails : List (Nat × Nat) := []
  /-- A warm reset prepares the device; quarters whose reset is prepared (R407); quarters that the captain's half lost with their bridges
  (R13). -/
  warm : Bool := false
  prep : Nat := 0
  away : Nat := 0
  /-- When the last reset command was accepted (Table 16-5). -/
  cmdAt : Option Nat := none
  deriving DecidableEq, Repr

/-- The whole state. -/
structure State where
  /-- Commands that wait, first in, first out. -/
  pending : List Instr := []
  /-- Configuration registers: value by configuration-space offset; an unlisted register holds its reset value (R3, R412). -/
  regs : List (Nat × BitVec 64) := []
  /-- Local time since power-on, ns. -/
  now : Nat := 0
  time : NetTime := {}
  /-- Link, egress and gate state, by port. -/
  links : List (Nat × Link) := []
  hub : Hub := {}
  tl : Tl := {}
  intc : Intc := {}
  evr : Evr := {}
  pool : Pool := {}
  xlt : Xlt := {}
  ord : Ord := {}
  /-- Version regions, by number (R78). -/
  ver : List (Nat × RegionSt) := []
  /-- Mover channels, key QUARTER × 16 + k (R91). -/
  movers : List (Nat × Mover) := []
  coh : Coh := {}
  /-- Stack controllers, by stack (R118). -/
  stks : List (Nat × Stk) := []
  /-- Stations, key QUARTER × 324 + site (R173). -/
  stns : List (Nat × Stn) := []
  lm : Looms := {}
  sec : Sec := {}
  power : Power := {}
  tdm : Tandem := {}
  start : Start := {}
  /-- Status and data of the last register access: what CFG_RSP, STATUS or the firmware's completion carries. -/
  rsp : Status × BitVec 64 := (.ok, 0)
  /-- What has left the device, oldest first. -/
  wire : List Emission := []
  /-- Free values drawn so far (the model's own counter). -/
  free : Nat := 0
  deriving DecidableEq, Repr

/-- The machine right after reset: every field at the value the spec gives for reset, or at the value the assumption log names. -/
def State.reset : State := {}

end Sys2Proof.Machine
end

