-- ==== Sys2Proof/Machine/Ops.lean ====
section
/-!
DEFINITION. The named operations over State that every family uses: registers and their fields, links, counts, events and their
stamps, interrupt sources, host messages, and what leaves the device.
-/
namespace Sys2Proof.Machine
open Sys2Proof

/-- What a step answers. -/
abbrev Res := Host.Outcome State Fault Refusal

/-- Value a register holds (R3). Device registers are kept once (R63). -/
def State.regVal (s : State) (r : RegName) (inst : Nat := 0) (i : Nat := 0) (j : Nat := 0) : Nat :=
  (smGet (BitVec.ofNat 64 (r.resetVal i)) s.regs (r.addr inst i j)).toNat

/-- Stores a register's value. -/
def State.setReg (s : State) (r : RegName) (v : Nat) (inst : Nat := 0) (i : Nat := 0) (j : Nat := 0) : State :=
  { s with regs := smSet (BitVec.ofNat 64 (r.resetVal i)) s.regs (r.addr inst i j) (BitVec.ofNat 64 v) }

/-- Value of a register field. -/
def State.fld (s : State) (f : Fld) (inst : Nat := 0) (i : Nat := 0) (j : Nat := 0) : Nat :=
  bits (s.regVal f.reg inst i j) f.lo f.width

/-- Stores a register field, leaving the register's other bits. -/
def State.setFld (s : State) (f : Fld) (v : Nat) (inst : Nat := 0) (i : Nat := 0) (j : Nat := 0) : State :=
  s.setReg f.reg (setBits (s.regVal f.reg inst i j) f.lo f.width v) inst i j

/-- A one-bit field as a truth value. -/
def State.flag (s : State) (f : Fld) (inst : Nat := 0) (i : Nat := 0) (j : Nat := 0) : Bool :=
  s.fld f inst i j == 1

/-- Adds to a counting field, which saturates at its largest value. -/
def State.count (s : State) (f : Fld) (n : Nat := 1) (inst : Nat := 0) (i : Nat := 0) (j : Nat := 0) : State :=
  s.setFld f (min (s.fld f inst i j + n) (2 ^ f.width - 1)) inst i j

/-- Adds to a field that counts modulo its width. -/
def State.bump (s : State) (f : Fld) (n : Nat := 1) (inst : Nat := 0) (i : Nat := 0) (j : Nat := 0) : State :=
  s.setFld f (s.fld f inst i j + n) inst i j

/-- A field whose value 0 acts as 1. -/
def State.fld1 (s : State) (f : Fld) (inst : Nat := 0) (i : Nat := 0) (j : Nat := 0) : Nat :=
  max 1 (s.fld f inst i j)

/-- The link state of port `p`. -/
def State.link (s : State) (p : Nat) : Link := smGet {} s.links p

/-- Stores the link state of port `p`. -/
def State.setLink (s : State) (p : Nat) (l : Link) : State := { s with links := smSet {} s.links p l }

/-- Records an output. -/
def State.emit (s : State) (e : Emission) : State := { s with wire := s.wire ++ [e] }

/-- Draws a value that the spec leaves open (log 2). -/
def State.draw (s : State) : BitVec 64 × State := (Config.freeValue s.free, { s with free := s.free + 1 })

/-- Sets what CFG_RSP, STATUS or the firmware's completion carries. -/
def State.respond (s : State) (st : Status) (d : BitVec 64 := 0) : State := { s with rsp := (st, d) }

/-- A status from its code; the values 0xD to 0xF are never returned (R6). -/
def statusOf : Nat → Status
  | 0 => .ok | 1 => .alreadyComplete | 2 => .busy | 3 => .inTransition | 4 => .conflict | 5 => .seqRetry
  | 6 => .partialFail | 7 => .poison | 8 => .revoked | 9 => .faultTimeout | 10 => .accessDenied | 11 => .noRoute
  | _ => .linkLost

/-! ### Places (Tables 0-3 and 1-9) -/

/-- The quarter that owns a port (Table 0-3). -/
def portQuarter (p : Nat) : Nat := if p < 12 then p / 3 else if p = 12 then 0 else 2

/-- The quarter that owns a stack (Table 0-3). -/
def stackQuarter (k : Nat) : Nat := k / 4

/-- The quarters that bridge `b` joins. -/
def bridgeEnds (b : Nat) : Nat × Nat := if b = 0 then (0, 1) else if b = 1 then (2, 3) else if b = 2 then (0, 2) else (1, 3)

/-- The bridges that a list of quarters crosses, in order. -/
def hopBridges : List Nat → List Nat
  | a :: b :: rest => ((List.range 4).filter (fun n => bridgeEnds n == (min a b, max a b))) ++ hopBridges (b :: rest)
  | _ => []

/-- The quarters that traffic from quarter `a` to quarter `b` passes, and those of its detour (R11, R12). Diagonal traffic goes through the
quarter in the source's row, or the one in its column; between neighbours the detour goes through the other two quarters. -/
def pathsOf (row : Bool) (a b : Nat) : List (List Nat) :=
  if a = b then [[a]]
  else if a / 2 ≠ b / 2 ∧ a % 2 ≠ b % 2 then
    let r := [a, a / 2 * 2 + b % 2, b]
    let c := [a, b / 2 * 2 + a % 2, b]
    if row then [r, c] else [c, r]
  else [[a, b], [a, 3 - b, 3 - a, b]]

/-- The bridges that traffic crosses now: its path, or its detour once a bridge of the path is down (R11, R12). -/
def State.bridgePath (s : State) (row : Bool) (a b : Nat) : Option (List Nat) :=
  ((pathsOf row a b).map hopBridges).find? (fun p => p.all (fun n => !s.power.bridgeDown.testBit n))

/-- A bridge that failed a retrain and has neither retrained nor been declared down carries nothing: traffic for it is held (R12). -/
def State.bridgeHolds (s : State) (b : Nat) : Bool := smGet 0 s.power.bridgeFails b ≠ 0 && !s.power.bridgeDown.testBit b

/-- Traffic from quarter `a` to quarter `b` is held at a bridge (R12 step 1). -/
def State.bridgeWait (s : State) (row : Bool) (a b : Nat) : Bool :=
  match s.bridgePath row a b with
  | some p => p.any s.bridgeHolds
  | none => false

/-- Source identifiers of Table 1-9 (R29). -/
def srcId (kind quarter n : Nat) : Nat := kind * 4096 + quarter * 1024 + n
def srcStation (x : SiteId) : Nat := srcId 0 x.q.val x.i.val
def srcStack (k : Nat) : Nat := srcId 1 (k / 4) (k % 4)
def srcPort (p : Nat) : Nat := srcId 2 (portQuarter p) p
def srcXlt (q : Nat) : Nat := srcId 4 q 0
def srcCoh (q : Nat) : Nat := srcId 5 q 0
def srcHub : Nat := srcId 6 0 0
def srcCore (k : Nat) : Nat := srcId 7 0 k
def srcPower : Nat := srcId 8 0 0
def srcChk (u : Nat) : Nat := srcId 10 0 u
def srcEvr : Nat := srcId 11 0 0
def srcBridge (b : Nat) : Nat := srcId 12 0 b

/-- Whether quarter `q` is under reset or held (GLB_STAT, R409). -/
def State.quarterDown (s : State) (q : Nat) : Bool :=
  (s.fld F.GLB_STAT_QRST).testBit q || (s.fld F.GLB_STAT_QHOLD).testBit q

/-- Whether quarter `q` takes no new work: under reset or held, or a warm reset prepares the device (R407). -/
def State.closed (s : State) (q : Nat) : Bool := s.quarterDown q || s.start.warm

/-- The station clocks of quarter `q` run again (R385). -/
def State.ungate (s : State) (q : Nat) : State :=
  s.setFld F.PWR_LP_STAT_GATED (s.fld F.PWR_LP_STAT_GATED &&& (15 - 2 ^ q))

/-! ### Time and events (R24 to R28, R299, R319) -/

/-- Network time in ns (R299). -/
def State.netNow (s : State) : Nat := ((s.now : Int) + s.time.off).toNat

/-- Network time is locked (R300). -/
def State.locked (s : State) : Bool := s.flag F.HUB_TIME_STAT_LOCK

/-- The eight words of an event of source `src`: the header of Table 1-8 and five payload words (R28, R417). -/
def State.eventWords (s : State) (src cls : Nat) (payload : List Nat) : List Nat :=
  let n := smGet 0 s.tl.seqs src
  let t := if s.locked then s.netNow else s.now
  let w0 := src + cls * 2 ^ 16 + (if n = 0 then 2 ^ 24 else 0) + (if s.locked then 0 else 2 ^ 25) + (n % 2 ^ 32) * 2 ^ 32
  let sec := t / 1000000000
  [w0, t % 1000000000 + (sec % 2 ^ 32) * 2 ^ 32, sec / 2 ^ 32 % 2 ^ 16] ++ (payload ++ [0, 0, 0, 0, 0]).take 5

/-- Advances the sequence number of a source (R24). -/
def State.nextSeq (s : State) (src : Nat) : State :=
  { s with tl := { s.tl with seqs := smSet 0 s.tl.seqs src (smGet 0 s.tl.seqs src + 1) } }

/-- A source emits an event: it is stamped, the number advances, and the event waits for the event ring; events that find the
buffer of 1,024 full are discarded and counted (R24, R28, R319). -/
def State.event (s : State) (src cls : Nat) (payload : List Nat := []) : State :=
  let e : EventRec := ⟨src, cls, s.eventWords src cls payload⟩
  let s := s.nextSeq src
  if s.tl.events.length < 1024 then { s with tl := { s.tl with events := s.tl.events ++ [e] } }
  else s.count F.TL_EVT_STAT_LOST

/-- Restarts the sequence numbers of the sources `p` names (R27). -/
def State.restartSeqs (s : State) (p : Nat → Bool) : State :=
  { s with tl := { s.tl with seqs := s.tl.seqs.filter (fun e => !p e.1) } }

/-! ### Interrupt sources (R352) -/

/-- The quarter an interrupt source belongs to, if it belongs to one (Table 14-1). -/
def srcQuarter (n : Nat) : Option Nat :=
  if n < 0x40 then some (n / 16)
  else if n < 0x140 then some ((n - 0x40) / 0x40)
  else if n < 0x1B0 then some (portQuarter ((n - 0x140) / 8))
  else none

/-- Bits of a W1C register have been set in this cycle (R4). -/
def State.wetBits (s : State) (r : RegName) (m : Nat) (inst : Nat := 0) (i : Nat := 0) : State :=
  let a := r.addr inst i 0
  { s with intc := { s.intc with wet := smSet 0 s.intc.wet a (smGet 0 s.intc.wet a ||| m) } }

/-- Hardware sets a W1C field (R4). -/
def State.setSticky (s : State) (f : Fld) (inst : Nat := 0) (i : Nat := 0) : State := (s.setFld f 1 inst i).wetBits f.reg (2 ^ f.lo) inst i

/-- The bits that a write of `v` clears among the W1C bits `m` of a register: those written 1 that were not set in this cycle (R4). -/
def State.clears (s : State) (r : RegName) (m v : Nat) (inst : Nat := 0) (i : Nat := 0) : Nat :=
  m &&& v &&& (2 ^ 64 - 1 - smGet 0 s.intc.wet (r.addr inst i 0))

/-- The pending bit of a source is set. -/
def State.pends (s : State) (n : Nat) : State :=
  let s := s.wetBits .INTC_SRC_PEND (2 ^ (n % 64)) 0 (n / 64)
  { s with intc := { s.intc with pend := s.intc.pend ||| BitVec.ofNat 1024 (2 ^ n) } }

/-- The event of an edge source occurs: its pending bit is set (R352). The sources of a quarter under reset are held at 0
(Table 14-3). -/
def State.raise (s : State) (n : Nat) : State :=
  if srcLevel n || srcReserved n then s
  else match srcQuarter n with
    | some q => if s.quarterDown q then s else s.pends n
    | none => s.pends n

/-! ### Bytes and words (R3: little-endian) -/

/-- The bytes of a number, lowest first. -/
def toBytes : Nat → Nat → List (BitVec 8)
  | 0, _ => []
  | n + 1, v => BitVec.ofNat 8 v :: toBytes n (v / 256)

/-- The number that bytes spell, lowest first. -/
def ofBytes : List (BitVec 8) → Nat
  | [] => 0
  | b :: rest => b.toNat + 256 * ofBytes rest

/-- The bytes of 64-bit words. -/
def wordBytes (ws : List Nat) : List (BitVec 8) := ws.flatMap (toBytes 8)

/-- `n` bytes from offset `o`, padded with zeros. -/
def sliceBytes (bs : List (BitVec 8)) (o n : Nat) : List (BitVec 8) :=
  let x := (bs.drop o).take n
  x ++ List.replicate (n - x.length) 0

/-- The 64-bit word at byte offset `o`. -/
def wordAt (bs : List (BitVec 8)) (o : Nat) : Nat := ofBytes (sliceBytes bs o 8)

/-- A list with element `i` replaced. -/
def setAt {α : Type} (l : List α) (i : Nat) (x : α) : List α := l.set i x

/-! ### Host messages (R315, R316) -/

/-- Room in the device buffer of 4,096 messages (R316). -/
def State.msgRoom (s : State) : Bool := s.tl.held.length < 4096

/-- Puts a message at the end of the stream (R316). The callers hold their message while there is no room. -/
def State.queueMsg (s : State) (m : HostMsg) : State := { s with tl := { s.tl with held := s.tl.held ++ [m] } }

/-- Slots of a ring of size field `logN` in `lo .. hi`; other values act as no ring. -/
def ringSlots (logN lo hi : Nat) : Nat := if lo ≤ logN ∧ logN ≤ hi then 2 ^ logN else 0

/-- The captain, or in lease mode the holder of the token, runs firmware (R388, R393). -/
def State.firmware (s : State) : Bool :=
  s.fld F.TDM_ROLE_MODE == 0 || (s.fld F.TDM_ROLE_MODE == 1 && s.fld F.TDM_LEASE_HOLDER != 0)

/-! ### Ports -/

/-- Link states of Table 10-2. -/
def stDark : Nat := 0
def stBeacon : Nat := 1
def stTraining : Nat := 2
def stUp : Nat := 3
def stRetrain : Nat := 4
def stSleep : Nat := 5
def stWaking : Nat := 6
def stDown : Nat := 7

/-- STATE of a port. -/
def State.portState (s : State) (p : Nat) : Nat := s.fld F.PORT_LNK_STAT_STATE p

/-- A port that is UP. -/
def State.portUp (s : State) (p : Nat) : Bool := s.portState p == stUp

/-- A port whose packets are sent or held, not refused (Table 10-2). -/
def State.portLive (s : State) (p : Nat) : Bool :=
  let st := s.portState p
  st == stUp || st == stRetrain || st == stSleep || st == stWaking

/-- Puts a packet at the end of egress queue `q` of port `p` (R301); a port that offers no route takes none (R265). -/
def State.enqueue (s : State) (p q : Nat) (k : Packet) : State :=
  if s.portLive p then
    let l := s.link p
    s.setLink p { l with queues := smSet [] l.queues q (smGet [] l.queues q ++ [⟨k, s.now⟩]), busyAt := s.now }
  else s

end Sys2Proof.Machine
end

