-- ==== Sys2Proof/Machine/EvrOps.lean ====
section
/-!
DEFINITION. The event recorder as the other units use it: operating time, and what an event or a sample adds to an open record (R366, R367,
Table 14-10).
-/
namespace Sys2Proof.Machine
open Sys2Proof

def State.setEvr (s : State) (x : Evr) : State := { s with evr := x }

/-- OP_S: seconds of operation since manufacture (R366). -/
def State.opS (s : State) : Nat := (s.evr.opBase + s.now / 1000000000) % 2 ^ 32

/-- A field of word `w` of a record. -/
def recGet (d : BitVec 2048) (w lo n : Nat) : Nat := bits d.toNat (64 * w + lo) n
def recSet (d : BitVec 2048) (w lo n v : Nat) : BitVec 2048 := BitVec.ofNat 2048 (setBits d.toNat (64 * w + lo) n v)

/-- Adds to a count of a record, which saturates. -/
def recAdd (d : BitVec 2048) (w lo n k : Nat) : BitVec 2048 := recSet d w lo n (min (2 ^ n - 1) (recGet d w lo n + k))
def recMax (d : BitVec 2048) (w lo n v : Nat) : BitVec 2048 := recSet d w lo n (max (recGet d w lo n) (min v (2 ^ n - 1)))

/-- Samples a record has taken. -/
def recSamples (d : BitVec 2048) : Nat := recGet d 2 32 32

/-- The quarter a record's unit belongs to, if it belongs to one. -/
def recQuarter (kind inst : Nat) : Option Nat :=
  if kind = 1 ∨ kind = 3 then some (stackQuarter inst) else if kind = 4 ∨ kind = 6 then some (portQuarter inst) else none

/-- One sample enters the open record of a kind and instance. A quarter under reset contributes none (Table 14-12). -/
def State.evrNote (s : State) (kind inst : Nat) (f : BitVec 2048 → BitVec 2048) : State :=
  let down := match recQuarter kind inst with | some q => s.quarterDown q | none => false
  if down then s
  else s.setEvr { s.evr with opens := s.evr.opens.map (fun (o : OpenRec) =>
    if o.kind = kind ∧ o.inst = inst then { o with data := recAdd (f o.data) 2 32 32 1 } else o) }

/-- Counts bin `k` of the 32 bins of words 3 to 18. -/
def recBin (d : BitVec 2048) (k : Nat) : BitVec 2048 := recAdd d (3 + k / 2) (32 * (k % 2)) 32 1

/-- STK_CE: a correctable error by its bucket (0 = LINE, 1 = PAGE, 2 = GRP); LINE also counts in its hour of the period. -/
def State.evrCE (s : State) (x b : Nat) : State :=
  let t := s.opS
  s.evrNote 3 x (fun d =>
    let d := recAdd d (if b = 2 then 4 else 3) (if b = 1 then 32 else 0) 32 1
    let h := (t + 2 ^ 32 - recGet d 1 0 32) % 2 ^ 32 / 3600
    if b = 0 ∧ h < 24 then recAdd d (5 + h / 4) (16 * (h % 4)) 16 1 else d)

/-- STK_CE: an uncorrectable line. -/
def State.evrUE (s : State) (x : Nat) : State := s.evrNote 3 x (fun d => recAdd d 4 32 32 1)

/-- LINK_ERR: a codeword with `k` corrected symbols, or one beyond correction. -/
def State.evrCodeword (s : State) (p k : Nat) (uncorr : Bool) : State :=
  s.evrNote 4 p (fun d => if uncorr then recAdd d 19 0 64 1 else recAdd d (3 + min k 15) 0 64 1)

/-- LINK_ERR: an event that the port counts: CRC_ERR, REPLAY, RETRAIN or DOWN. -/
inductive LinkErr where
  | crc | replay | retrain | down
  deriving DecidableEq, Repr

/-- Counts a link event in the port's register and in the recorder. -/
def State.linkErr (s : State) (p : Nat) (e : LinkErr) : State :=
  match e with
  | .crc => (s.count F.PORT_CNT_CRC_ERR 1 p).evrNote 4 p (fun d => recAdd d 20 0 32 1)
  | .replay => (s.count F.PORT_CNT_REPLAY 1 p).evrNote 4 p (fun d => recAdd d 20 32 32 1)
  | .retrain => (s.count F.PORT_CNT_RETRAIN 1 p).evrNote 4 p (fun d => recAdd d 21 0 32 1)
  | .down => s.evrNote 4 p (fun d => recAdd d 21 32 32 1)

/-- QDELAY: a queue of gate class `k` found with a head delay in ns and a depth in 256-byte units. -/
def recQueue (d : BitVec 2048) (k delay depth : Nat) : BitVec 2048 :=
  recMax (recMax d (3 + k) 0 32 delay) (3 + k) 32 24 depth

end Sys2Proof.Machine
end

