-- ==== Sys2Proof/Machine/Memory.lean ====
section
/-!
DEFINITION. Pool memory: frames, lines and bytes, sidebands, page-state words, protection zones, check lines, what a read of a line yields through the
line code, the page code and the stack protection, and how a write of a line keeps all three (R119, R144 to R165, R169, R170).
-/
namespace Sys2Proof.Machine
open Sys2Proof

/-- Frames of a stack, usable frames, and frame keys (Table 5-1, R119). -/
def framesPerStack : Nat := 1572864
def usableFrames : Nat := 1474560
def frameKey (stack page : Nat) : Nat := stack * framesPerStack + page
def keyStack (f : Nat) : Nat := f / framesPerStack
def keyPage (f : Nat) : Nat := f % framesPerStack
def lineKey (frame line : Nat) : Nat := frame * 1024 + line

/-- The stack controller `x`. -/
def State.stk (s : State) (x : Nat) : Stk := smGet {} s.stks x
def State.setStk (s : State) (x : Nat) (k : Stk) : State := { s with stks := smSet {} s.stks x k }
def State.setPool (s : State) (p : Pool) : State := { s with pool := p }

/-- `n` bytes of memory from byte key `a` up. -/
def readMem (m : List Host.Cell) : Nat → Nat → List (BitVec 8)
  | _, 0 => []
  | a, n + 1 => smGet 0 m a :: readMem m (a + 1) n

/-- Memory with bytes stored from byte key `a` up. -/
def writeMem (m : List Host.Cell) : Nat → List (BitVec 8) → List Host.Cell
  | _, [] => m
  | a, b :: rest => writeMem (smSet 0 m a b) (a + 1) rest

/-- Memory is in its canonical form: addresses strictly rising, and no byte listed that reads as an unlisted one does (log 2). -/
def Memory.wf (m : List Host.Cell) : Bool := smWf 0 m

def State.readPool (s : State) (frame byte n : Nat) : List (BitVec 8) := readMem s.pool.mem (frame * 65536 + byte) n
def State.writePool (s : State) (frame byte : Nat) (bs : List (BitVec 8)) : State :=
  s.setPool { s.pool with mem := writeMem s.pool.mem (frame * 65536 + byte) bs }

/-! ### Layout (R161 to R163) -/

/-- The boundaries of a stack's group as they act, in frames: P1, P2 (R161). -/
def layoutBounds (v stack : Nat) : Nat × Nat :=
  let sh := if stack < 8 then 0 else 16
  let p1 := min 90 (bits v sh 7)
  let p2 := max p1 (min 90 (bits v (sh + 8) 7))
  (p1 * 16384, p2 * 16384)

/-- `STK_LAYOUT` with each boundary as it acts (R161). -/
def layoutActs (v : Nat) : Nat :=
  let a := layoutBounds v 0
  let b := layoutBounds v 8
  a.1 / 16384 + a.2 / 16384 * 2 ^ 8 + b.1 / 16384 * 2 ^ 16 + b.2 / 16384 * 2 ^ 24

/-- Protection class of a frame in the layout in force: 0, 1 or 2 (R161). -/
def State.frameClass (s : State) (frame : Nat) : Nat :=
  let b := layoutBounds (s.regVal .STK_LAYOUT_CUR) (keyStack frame)
  if keyPage frame < b.1 then 0 else if keyPage frame < b.2 then 1 else 2

/-- Frames the layout keeps for parity or mirrors (R162, R163). -/
def State.frameReserved (s : State) (frame : Nat) : Bool :=
  let st := keyStack frame
  match s.frameClass frame with
  | 0 => false
  | 1 => st % 8 == keyPage frame % 8
  | _ => st / 4 % 2 != keyPage frame % 2

/-- The parity frame or the other copy that a write of a frame also writes (R162, R163). -/
def State.companion (s : State) (frame : Nat) : Option Nat :=
  let x := keyStack frame
  let c := match s.frameClass frame with
    | 0 => frame
    | 1 => frameKey (x / 8 * 8 + keyPage frame % 8) (keyPage frame)
    | _ => frameKey (x ^^^ 4) (keyPage frame)
  if c = frame then none else some c

/-- The pair of a stack, 0 to 7, in the order of R163. -/
def pairOf (x : Nat) : Nat := x % 4 + x / 8 * 4

/-- State of the unit that protects frame class `cls` of stack `x` (Table 6-6). -/
def State.unitState (s : State) (cls x : Nat) : Nat :=
  if cls = 1 then s.fld (if x < 8 then F.STK_GRP_STAT_A_STATE else F.STK_GRP_STAT_B_STATE)
  else bits (s.fld F.STK_GRP_STAT_PAIR) (2 * pairOf x) 2

/-- Stack `x` counts as missing for class `cls`: it is missing, or it awaits rebuild (R164). -/
def State.stackLost (s : State) (cls x : Nat) : Bool :=
  let k := s.stk x
  k.missing || (cls == 1 && k.awaitP1) || (cls == 2 && k.awaitP2)

/-- How a frame's lines are reached (Table 6-6): directly, through layer 3, or not at all. -/
inductive Reach where
  | direct | rebuilt | lost
  deriving DecidableEq, Repr

/-- Below the rebuild pointer a returned member is read and written directly, in a unit that FAILED meanwhile too (Tables 6-6 and 6-7). -/
def State.reach (s : State) (frame : Nat) : Reach :=
  let k := s.stk (keyStack frame)
  let cls := s.frameClass frame
  if cls = 0 then (if k.missing then .lost else .direct)
  else if !s.stackLost cls (keyStack frame) then .direct
  else if !k.missing && keyPage frame < k.rebTo then .direct
  else if s.unitState cls (keyStack frame) == 3 then .lost
  else .rebuilt

/-- The other frames of a frame's stripe, or the other copy of its pair (R162, R163). -/
def State.stripe (s : State) (frame : Nat) : List Nat :=
  let x := keyStack frame
  match s.frameClass frame with
  | 0 => []
  | 1 => ((List.range 8).map (fun i => frameKey (x / 8 * 8 + i) (keyPage frame))).filter (· ≠ frame)
  | _ => [frameKey (x ^^^ 4) (keyPage frame)]

/-! ### Stored lines (R119, R145, R146, R159) -/

/-- The channel of a line, and its column in the row (R119). -/
def lineChannel (page line : Nat) : Nat := (line % 32) ^^^ (page % 32)
def lineColumn (line : Nat) : Nat := bits line 5 4

/-- Failed channels of a stack. -/
def State.failedCh (s : State) (x : Nat) : Nat := s.fld F.STK_CH_FAIL_MASK x

/-- Number of bits set. -/
def popCount : Nat → Nat → Nat
  | 0, _ => 0
  | n + 1, v => v % 2 + popCount n (v / 2)

/-- A line lies in a failed channel: nothing is stored there and nothing is read (R153). -/
def State.deadLine (s : State) (frame line : Nat) : Bool := (s.failedCh (keyStack frame)).testBit (lineChannel (keyPage frame) line)

/-- The sideband of a line: C0 to C2 in bits 23:0, the tag byte in bits 31:24, the CTRL bytes in bits 63:32 (Table 6-2). -/
def sideOf (data : List (BitVec 8)) (tag ctrl : Nat) : BitVec 64 :=
  let c := lineCheck (data ++ [BitVec.ofNat 8 tag] ++ toBytes 4 ctrl)
  BitVec.ofNat 64 (c.1 + c.2.1 * 2 ^ 8 + c.2.2 * 2 ^ 16 + tag * 2 ^ 24 + ctrl * 2 ^ 32)

/-- The sideband of a line that nothing has written: zero, or that of a poisoned line in a zone that a rebuild filled as untrusted (R165). -/
def State.sideDefault (s : State) (frame : Nat) : BitVec 64 :=
  if keyPage frame < (s.stk (keyStack frame)).untrusted then sideOf zeroLine 1 0 else 0
def State.side (s : State) (frame line : Nat) : BitVec 64 := smGet (s.sideDefault frame) s.pool.side (lineKey frame line)
def State.setSide (s : State) (frame line : Nat) (v : BitVec 64) : State :=
  s.setPool { s.pool with side := smSet (s.sideDefault frame) s.pool.side (lineKey frame line) v }

/-- The tag bits of a line: bit 0 POISON, bit 1 COW, bit 2 MIG. -/
def State.tag (s : State) (frame line : Nat) : BitVec 3 := (s.side frame line).extractLsb' 24 3
def State.poisoned (s : State) (frame line : Nat) : Bool := (s.tag frame line).getLsbD 0

/-- The 72 symbols of a line in the order of the line code: b0 to b68, C0, C1, C2. -/
def wordOf (data : List (BitVec 8)) (side : BitVec 64) : List (BitVec 8) :=
  data ++ (List.range 5).map (fun i => side.extractLsb' (24 + 8 * i) 8) ++ (List.range 3).map (fun i => side.extractLsb' (8 * i) 8)
/-- The symbols of a line with its check bytes. -/
def codeWord (data : List (BitVec 8)) (tag : Nat) : List (BitVec 8) := wordOf data (sideOf data tag 0)
/-- The sideband of 72 symbols. -/
def wordSide (w : List (BitVec 8)) : BitVec 64 := BitVec.ofNat 64 (ofBytes (sliceBytes w 69 3 ++ sliceBytes w 64 5))

def State.word (s : State) (frame line : Nat) : List (BitVec 8) := wordOf (s.readPool frame (line * 64) 64) (s.side frame line)
def State.putWord (s : State) (frame line : Nat) (w : List (BitVec 8)) : State :=
  (s.writePool frame (line * 64) (sliceBytes w 0 64)).setSide frame line (wordSide w)

/-- A line that its line code yields; `fixed` when a symbol was corrected. -/
structure LineGot where
  data : List (BitVec 8)
  tag : Nat
  ctrl : Nat
  fixed : Bool
  deriving DecidableEq, Repr

/-- A symbol of a word changed. -/
def patchWord (w : List (BitVec 8)) (i v : Nat) : List (BitVec 8) := setAt w i (w.getD i 0 ^^^ BitVec.ofNat 8 v)

/-- What the line decoder gives for 72 symbols (R146). -/
def gotOf (w : List (BitVec 8)) : Option LineGot :=
  let got (w : List (BitVec 8)) (fixed : Bool) : LineGot := ⟨sliceBytes w 0 64, (w.getD 64 0).toNat, ofBytes (sliceBytes w 65 4), fixed⟩
  match lineDecode w with
  | .clean => some (got w false)
  | .fix i v => some (got (patchWord w i v) true)
  | .bad => none

def LineGot.poison (g : LineGot) : Bool := g.tag % 2 == 1
/-- The data of a line as the codes take it: a poisoned line enters as zero (R148). -/
def LineGot.value (g : LineGot) : List (BitVec 8) := if g.poison then zeroLine else g.data

/-- What layer 1 yields for a line. -/
def State.lineGet (s : State) (frame line : Nat) : Option LineGot := if s.deadLine frame line then none else gotOf (s.word frame line)

/-- Stores a line with its line code; the CTRL bytes stay (R153). Nothing is stored in a failed channel. -/
def State.storeLine (s : State) (frame line : Nat) (data : List (BitVec 8)) (tag : Nat) : State :=
  if s.deadLine frame line then s
  else
    let w := s.word frame line
    let ctrl := match gotOf w with | some g => g.ctrl | none => ofBytes (sliceBytes w 65 4)
    (s.writePool frame (line * 64) data).setSide frame line (sideOf data tag ctrl)

/-- Changes symbols that are held in a fold slot or in a frame's memory. -/
def State.upsetOne (s : State) (f : Flip) : State :=
  let frame := frameKey f.x.val f.page.toNat
  if framesPerStack ≤ f.page.toNat then s
  else if f.slot then
    let k := s.stk f.x.val
    s.setStk f.x.val { k with folds := k.folds.map (fun g => if g.frame = frame then
      { g with lines := g.lines.map (fun e => if e.1 = f.line.val then (e.1, patchWord e.2 f.sym.val f.v.toNat) else e) } else g) }
  else s.putWord frame f.line.val (patchWord (s.word frame f.line.val) f.sym.val f.v.toNat)

/-- The cells come to hold what a read finds. -/
def State.upset (s : State) (e : ReadErr) : State := e.flips.foldl State.upsetOne s

/-- The lines of a frame that may hold something: those with listed bytes or sidebands, and those of failed channels. -/
def State.linesIn (s : State) (frame : Nat) : List Nat :=
  if keyPage frame < (s.stk (keyStack frame)).untrusted then List.range 1024
  else
    let ks := (s.pool.mem.filter (fun c => c.1 / 65536 == frame)).map (fun c => c.1 % 65536 / 64) ++
      (s.pool.side.filter (fun e => e.1 / 1024 == frame)).map (fun e => e.1 % 1024)
    let mask := s.failedCh (keyStack frame)
    if ks.isEmpty && mask == 0 then [] else (List.range 1024).filter (fun l => ks.contains l || s.deadLine frame l)

/-! ### Page-state words (R147, R151) -/

/-- The page-state word of a page whose lines are all poisoned (R151). -/
def allPoisoned : BitVec 64 := BitVec.ofNat 64 (2 + 3 * 4 + 16 + 1 * 2 ^ 15 + 2 * 2 ^ 25)

/-- What the page-state word of a frame is where nothing changed it: 0, or that of a page that a rebuild filled as untrusted (R165). -/
def State.pageDefault (s : State) (frame : Nat) : BitVec 64 :=
  if keyPage frame < (s.stk (keyStack frame)).untrusted then allPoisoned else 0

def State.pageState (s : State) (frame : Nat) : Nat := (smGet (s.pageDefault frame) s.pool.pstate frame).toNat
def State.setPageState (s : State) (frame v : Nat) : State :=
  s.setPool { s.pool with pstate := smSet (s.pageDefault frame) s.pool.pstate frame (BitVec.ofNat 64 v) }

/-- Page code-dirty (R157). -/
def State.codeDirty (s : State) (frame : Nat) : Bool := (s.pageState frame).testBit 0

/-- A page-state word that lists the poisoned lines `ls` (Table 6-3). -/
def listPoison (cd : Nat) (ls : List Nat) : Nat :=
  let n := min 3 ls.length
  cd + (if ls.isEmpty then 0 else 2) + n * 4 + (if ls.length > 3 then 16 else 0)
    + ls.getD 0 0 * 2 ^ 5 + (if 2 ≤ n then ls.getD 1 0 * 2 ^ 15 else 0) + (if 3 ≤ n then ls.getD 2 0 * 2 ^ 25 else 0)

/-- The lines a page-state word lists. -/
def listedLines (w : Nat) : List Nat := ([bits w 5 10, bits w 15 10, bits w 25 10]).take (bits w 2 2)

/-- Adds a line to the poisoned lines of its page (R151). -/
def State.notePoison (s : State) (frame line : Nat) : State :=
  let w := s.pageState frame
  let ls := listedLines w
  if ls.contains line then s
  else if ls.length < 3 then
    s.setPageState frame (listPoison (bits w 0 1) (ls ++ [line]) + (bits w 4 1) * 16)
  else s.setPageState frame (setBits w 4 1 1)

/-- Removes a line that a full-line write replaced (R151). PZ and POVF stay while lines may remain unlisted. -/
def State.clearPoison (s : State) (frame line : Nat) : State :=
  let w := s.pageState frame
  let ls := listedLines w
  if ls.contains line then
    let rest := ls.filter (· != line)
    s.setPageState frame (if bits w 4 1 = 1 then setBits (setBits (listPoison (bits w 0 1) rest) 4 1 1) 1 1 1
                          else listPoison (bits w 0 1) rest)
  else s

/-- Sets CD and queues the page with the maintenance engine, keeping the first time it was dirtied (R157). -/
def State.markDirty (s : State) (frame : Nat) : State :=
  let x := keyStack frame
  let k := s.stk x
  let s := s.setPageState frame (setBits (s.pageState frame) 0 1 1)
  if k.cdq.any (fun e => e.1 == frame) then s else s.setStk x { k with cdq := k.cdq ++ [(frame, s.now)] }

/-- A page whose code is current: it leaves the maintenance queue and CD clears (R157). -/
def State.cleanPage (s : State) (frame : Nat) : State :=
  let x := keyStack frame
  let k := s.stk x
  let s := s.setStk x { k with cdq := k.cdq.filter (fun e => e.1 ≠ frame) }
  s.setPageState frame (setBits (s.pageState frame) 0 1 0)

/-- The tag bits of a line that the page code rebuilt (R151). -/
def State.rebuiltTag (s : State) (frame line : Nat) (bytes : List (BitVec 8)) : Nat :=
  let w := s.pageState frame
  if (listedLines w).contains line || (w.testBit 4 && bytes.all (· == 0)) then 1 else 0

/-! ### Records of uncorrectable lines and correctable errors (R168, R169) -/

/-- Adds 1 to a leaky bucket: 0 = LINE, 1 = PAGE, 2 = GRP. A bucket that reaches SIZE overflows (R168). -/
def State.bucket (s : State) (x b : Nat) : State :=
  let f := if b = 0 then F.STK_BKT_LVL_LINE else if b = 1 then F.STK_BKT_LVL_PAGE else F.STK_BKT_LVL_GRP
  let o := if b = 0 then F.STK_BKT_OVF_LINE else if b = 1 then F.STK_BKT_OVF_PAGE else F.STK_BKT_OVF_GRP
  let s := s.evrCE x b
  let n := s.fld f x + 1
  if s.fld1 F.STK_BKT_CFG_SIZE x ≤ n then
    ((s.setSticky o x).setFld f 0 x).event (srcStack x) 0x11 [2 ^ b]
  else s.setFld f n x

/-- Records an uncorrectable line: `STK_UE_LAST`, event CLASS 0x10, and UE when it was poisoned in place (R169). -/
def State.noteUE (s : State) (x page line origin : Nat) (written : Bool) : State :=
  let nw := if written then 0 else 1
  let s := s.setReg .STK_UE_LAST (page + line * 2 ^ 21 + origin * 2 ^ 31 + nw * 2 ^ 34) x
  let s := if written then (s.count F.STK_UE_CNT_UE 1 x).raise (4 * x + 1) else s
  let s := s.evrUE x
  s.event (srcStack x) 0x10 [page + line * 2 ^ 21 + origin * 2 ^ 31 + (if written then 2 ^ 34 else 0)]

/-! ### Check lines (R149, R153) -/

/-- The frame and line that hold check line `k` of a usable frame (R149). -/
def checkFrame (frame : Nat) : Nat := frameKey (keyStack frame) (usableFrames + keyPage frame / 16)
def checkIndex (frame k : Nat) : Nat := keyPage frame % 16 * 64 + k

/-- The host of a failed channel (R153). -/
def State.hostOf (s : State) (x a : Nat) : Option Nat :=
  [(F.STK_ECC_STAT_FCH0, F.STK_ECC_STAT_HCH0), (F.STK_ECC_STAT_FCH1, F.STK_ECC_STAT_HCH1)].findSome? (fun p =>
    if s.fld p.1 x = 32 + a ∧ 32 ≤ s.fld p.2 x then some (s.fld p.2 x - 32) else none)

/-- The data line in host channel `h` whose CTRL bytes hold word `w` of check line `k` (R153). -/
def hostLine (page h k w : Nat) : Nat := (h ^^^ (page % 32)) + 32 * (w + if 32 ≤ k then 16 else 0)

/-- A check line as its sixteen 4-byte words; none where a word is lost. -/
def State.checkWords (s : State) (frame k : Nat) : List (Option (List (BitVec 8))) :=
  let g := checkFrame frame
  let i := checkIndex frame k
  if s.deadLine g i then
    match s.hostOf (keyStack frame) (lineChannel (keyPage g) i) with
    | some h => (List.range 16).map (fun w => (s.lineGet frame (hostLine (keyPage frame) h k w)).map (fun l => toBytes 4 l.ctrl))
    | none => List.replicate 16 none
  else match s.lineGet g i with
    | some l => (List.range 16).map (fun w => some (sliceBytes l.value (4 * w) 4))
    | none => List.replicate 16 none

/-- The 64 check lines of a page; none when some word of them is lost. -/
def State.checks (s : State) (frame : Nat) : Option (List (List (BitVec 8))) :=
  let ws := (List.range 64).map (s.checkWords frame)
  if ws.all (fun c => c.all Option.isSome) then some (ws.map (fun c => c.flatMap (fun w => w.getD []))) else none

/-- Writes the CTRL bytes of a line, whose line code is computed again; those of a line that is lost stay. -/
def State.setCtrl (s : State) (frame line ctrl : Nat) : State :=
  match s.lineGet frame line with
  | some g => (s.writePool frame (line * 64) g.data).setSide frame line (sideOf g.data g.tag ctrl)
  | none => s

/-- Writes a check line where it is held: in the check frame, or in the CTRL bytes of the host channel's lines (R149, R153). -/
def State.setCheck (s : State) (frame k : Nat) (c : List (BitVec 8)) : State :=
  let g := checkFrame frame
  let i := checkIndex frame k
  if s.deadLine g i then
    match s.hostOf (keyStack frame) (lineChannel (keyPage g) i) with
    | some h => (List.range 16).foldl (fun s w => s.setCtrl frame (hostLine (keyPage frame) h k w) (ofBytes (sliceBytes c (4 * w) 4))) s
    | none => s
  else s.storeLine g i c 0

def State.putChecks (s : State) (frame : Nat) (cs : List (List (BitVec 8))) : State :=
  (cs.zipIdx).foldl (fun s c => s.setCheck frame c.2 c.1) s

/-- Writes the page code of a page whose lines are these and zeros. -/
def State.putCode (s : State) (frame : Nat) (ls : List (Nat × List (BitVec 8))) : State := s.putChecks frame (pageCode ls)

/-! ### Device metadata (R152) -/

/-- Where copy `c` of line `l` of metadata frame `m` lies: page within stack, and line (R152). Which words a line holds is not given: the extent
tables, placement words and page-state words are held once, and a read fails where all three copies of a line do (log 148). -/
def metaPage (c m : Nat) : Nat := 1566720 + c * 2048 + m
def metaLine (c l : Nat) : Nat := l ^^^ (c * 8)

/-! ### Layer 2 (R150, R153) -/

/-- Symbol `j` of a line. -/
def symAt (d : List (BitVec 8)) (j : Nat) : Nat := ofBytes (sliceBytes d (2 * j) 2)

/-- The 32 codewords of a page decoded: what is to be added at which powers of each. Every lost line is an erasure, and so is each lost word of a
check line, in the codewords it holds (R150, R153). -/
def State.pageDecode (s : State) (frame : Nat) (errs : Bool) : List (Option (List (Nat × Nat))) :=
  let got := (s.linesIn frame).map (fun l => (l, s.lineGet frame l))
  let cks := (List.range 64).map (fun k => (k, s.checkWords frame k))
  (List.range 32).map (fun j =>
    let rx := got.filterMap (fun t => t.2.map (fun g => (dataPos t.1, symAt g.value j))) ++
      cks.filterMap (fun t => (t.2.getD (j / 2) none).map (fun w => (checkPos t.1, symAt w (j % 2))))
    let er := (got.filter (fun t => t.2.isNone)).map (fun t => dataPos t.1) ++
      (cks.filter (fun t => (t.2.getD (j / 2) none).isNone)).map (fun t => checkPos t.1)
    cwDecode (rx.filter (fun t => t.2 ≠ 0)) er errs)

/-- The line at a power of decoded codewords, from what was received there; none where a codeword did not decode. -/
def decodedLine (cs : List (Option (List (Nat × Nat)))) (pos : Nat) (base : List (BitVec 8)) : Option (List (BitVec 8)) :=
  if cs.all Option.isSome then
    some (bytesOf ((cs.zipIdx).map (fun t => ((t.1.getD []).filter (fun e => e.1 == pos)).foldl (fun a e => a ^^^ e.2) (symAt base t.2))))
  else none

/-- What layer 2 yields for a lost line of a page that is code-clean. -/
def State.pageGet (s : State) (frame line : Nat) : Option (List (BitVec 8)) :=
  if s.codeDirty frame || usableFrames ≤ keyPage frame then none else decodedLine (s.pageDecode frame false) (dataPos line) zeroLine

/-- What layers 1 and 2 yield. -/
def State.solid (s : State) (frame line : Nat) : Option LineGot :=
  match s.lineGet frame line with
  | some g => some g
  | none => (s.pageGet frame line).map (fun d => ⟨d, s.rebuiltTag frame line d, 0, true⟩)

/-! ### Layer 3 (R162 to R164) -/

/-- Exclusive OR of lines. -/
def xorLines (ls : List (List (BitVec 8))) : List (BitVec 8) := ls.foldl xorBytes zeroLine

/-- What layer 3 yields: the other copy of a pair, or the exclusive OR of the same line of the stripe's other frames, its data and whether it is
poison. It needs every other member of the stripe, read without layer 3. A parity line marked as poison yields nothing (log 147). -/
def State.layer3 (s : State) (frame line : Nat) : Option (List (BitVec 8) × Bool) :=
  let fs := s.stripe frame
  if fs.isEmpty || fs.any (fun f => s.reach f ≠ .direct) then none
  else
    let gs := fs.map (fun f => (f, s.solid f line))
    if gs.any (fun g => g.2.isNone) then none
    else if s.frameClass frame = 2 then (gs.head?.bind (·.2)).map (fun g => (g.value, g.poison))
    else if gs.any (fun g => s.frameReserved g.1 && g.2.any (·.poison)) then none
    else some (xorLines (gs.map (fun g => (g.2.map (·.value)).getD zeroLine)), false)

/-- What the layers yield for a line that is reached directly, and the layer that yields it. -/
def State.yields (s : State) (frame line : Nat) : Option (LineGot × Nat) :=
  match s.lineGet frame line with
  | some g => some (g, 1)
  | none =>
    match s.pageGet frame line with
    | some d => some (⟨d, s.rebuiltTag frame line d, 0, true⟩, 2)
    | none => (s.layer3 frame line).map (fun r => (⟨r.1, max (s.rebuiltTag frame line r.1) (if r.2 then 1 else 0), 0, true⟩, 3))

/-! ### Writing a line (R153, R155 to R158, R162, R163, R169) -/

/-- A line of a page is stored, and its page-state list follows (R151). -/
def State.storeNoted (s : State) (frame line : Nat) (data : List (BitVec 8)) (tag : Nat) : State :=
  let s := s.storeLine frame line data tag
  if tag % 2 = 1 then s.notePoison frame line else s.clearPoison frame line

/-- The lines of a page but one, as its codes take them; none when some line is yielded by no layer. -/
def State.otherLines (s : State) (frame line : Nat) : Option (List (Nat × List (BitVec 8))) :=
  let dec := if s.codeDirty frame || usableFrames ≤ keyPage frame then [none] else s.pageDecode frame false
  let one (l : Nat) : Option (List (BitVec 8)) :=
    match s.lineGet frame l with
    | some g => some g.value
    | none => match decodedLine dec (dataPos l) zeroLine with
      | some d => some (if s.rebuiltTag frame l d = 1 then zeroLine else d)
      | none => (s.layer3 frame l).map (·.1)
  ((s.linesIn frame).filter (· ≠ line)).foldl (fun a l => match a, one l with
    | some acc, some d => some (acc ++ [(l, d)])
    | _, _ => none) (some [])

/-- Rebuilds the code of a page from its lines as they stand, with the given lines taken as they are: what layer 3 yields is written back, and a
line that no layer yields is poisoned and recorded; `also` keeps its parity line or its other copy (R157, R169). -/
def State.recodeWith (also : State → Nat → Nat → Nat → State) (s : State) (frame origin : Nat) (vals : List (Nat × List (BitVec 8))) : State :=
  let ls := (s.linesIn frame).filter (fun l => !vals.any (fun v => v.1 == l))
  let good := ls.filterMap (fun l => (s.lineGet frame l).map (fun g => (l, g.value)))
  let r := (ls.filter (fun l => (s.lineGet frame l).isNone)).foldl (fun (a : State × List (Nat × List (BitVec 8))) l =>
    match a.1.layer3 frame l with
    | some v =>
      let t := max (a.1.rebuiltTag frame l v.1) (if v.2 then 1 else 0)
      ((a.1.bucket (keyStack frame) 2).storeLine frame l v.1 t, a.2 ++ [(l, v.1)])
    | none =>
      let s := (a.1.storeNoted frame l zeroLine 1).noteUE (keyStack frame) (keyPage frame) l origin true
      (also s frame l origin, a.2)) (s, [])
  r.1.putCode frame (vals ++ good ++ r.2)

/-- A write of one line in one page: a plain write leaves the page code-dirty; a strict one adds G(l) · (new − old) to its check lines, where lines are
lost after they are recovered. Every write to a stack with a failed channel is strict, and so is one that finds the queue full (R153, R157, R158). -/
def State.pageWriteWith (recode : State → Nat → Nat → List (Nat × List (BitVec 8)) → State) (s : State) (frame line : Nat)
    (new : List (BitVec 8)) (tag : Nat) (strict : Bool) (origin : Nat) : State :=
  let x := keyStack frame
  let strict := strict || s.failedCh x ≠ 0 || (4096 ≤ (s.stk x).cdq.length && !s.codeDirty frame)
  if !strict then (s.storeNoted frame line new tag).markDirty frame
  else if s.codeDirty frame then s.storeNoted frame line new tag
  else match s.lineGet frame line, s.checks frame with
    | some old, some cs => (s.storeNoted frame line new tag).putChecks frame (addToCode cs line (xorBytes old.value new))
    | _, _ => match s.otherLines frame line with
      | some ls => (s.storeNoted frame line new tag).putCode frame ((line, new) :: ls)
      | none => recode (s.storeNoted frame line new tag) frame origin [(line, new)]

/-- The parity line of a stripe with one of its data lines given: the exclusive OR of it and the other data lines, poisoned ones counted as zero, and
the tag it takes: poison when a data line is not to be had (log 147). -/
def State.parityWith (s : State) (frame line : Nat) (new : List (BitVec 8)) : List (BitVec 8) × Nat :=
  let fs := (s.stripe frame).filter (fun f => !s.frameReserved f)
  let vs := fs.map (fun f => if s.reach f = .direct then (s.solid f line).map (·.value) else none)
  (xorLines (new :: vs.map (fun v => v.getD zeroLine)), if vs.any Option.isNone then 1 else 0)

/-- The parity line, or the other copy, of a line that was poisoned. -/
def State.poisonAlso (s : State) (frame line origin : Nat) : State :=
  match s.companion frame with
  | none => s
  | some c =>
    if s.reach c ≠ .direct then s
    else if s.frameClass frame = 2 then s.pageWriteWith (State.recodeWith (fun s _ _ _ => s)) c line zeroLine 1 true origin
    else
      let p := s.parityWith frame line zeroLine
      s.pageWriteWith (State.recodeWith (fun s _ _ _ => s)) c line p.1 p.2 true origin

def State.recode (s : State) (frame origin : Nat) (vals : List (Nat × List (BitVec 8))) : State :=
  State.recodeWith State.poisonAlso s frame origin vals

def State.pageWrite (s : State) (frame line : Nat) (new : List (BitVec 8)) (tag : Nat) (strict : Bool) (origin : Nat) : State :=
  State.pageWriteWith State.recode s frame line new tag strict origin

/-- A write of one line under its frame's protection: the line, and the stripe's parity line or the other copy with it; nothing is written to a member
that is missing (R162 to R164, Tables 6-4 and 6-6). -/
def State.protWrite (s : State) (frame line : Nat) (new : List (BitVec 8)) (tag : Nat) (strict : Bool) (origin : Nat := 0) : State :=
  let here := s.reach frame = .direct
  let t := if here then s.pageWrite frame line new tag strict origin else s
  match s.companion frame with
  | none => t
  | some c =>
    if s.reach c ≠ .direct then t
    else if s.frameClass frame = 2 then t.pageWrite c line new tag strict origin
    else
      let p := match (if here then s.yields frame line else none), s.solid c line with
        | some old, some par => if par.poison then s.parityWith frame line new else (xorLines [old.1.value, par.value, new], 0)
        | _, _ => s.parityWith frame line new
      t.pageWrite c line p.1 p.2 strict origin

/-- Poisons a line: zero data, POISON = 1, the page-state word updated, the parity line computed again or both copies poisoned. It leaves a code-clean
page code-clean (R169). -/
def State.poisonLine (s : State) (frame line : Nat) (origin : Nat := 0) : State := s.protWrite frame line zeroLine 1 true origin

/-- Poisons a line that no layer yields and records it (R169). -/
def State.loseLine (s : State) (frame line origin : Nat) : State :=
  (s.poisonLine frame line origin).noteUE (keyStack frame) (keyPage frame) line origin true

/-! ### Full-page streaming writes (Table 6-4) -/

/-- A full-page streaming write of one frame: it holds these lines, with their tags, and zeros; its page code is written inline, its page-state word
lists exactly its poisoned lines, and it leaves the maintenance queue (R151, R156, R157). -/
def State.streamFrame (s : State) (frame : Nat) (page : List (Nat × List (BitVec 8) × Nat)) : State :=
  let s := s.setPool { s.pool with
    mem := s.pool.mem.filter (fun c => c.1 / 65536 != frame)
    side := s.pool.side.filter (fun e => e.1 / 1024 != frame) }
  let s := if s.sideDefault frame = 0 then s else (List.range 1024).foldl (fun s l => s.setSide frame l 0) s
  let s := page.foldl (fun s l => s.storeLine frame l.1 l.2.1 l.2.2) s
  let s := s.putCode frame (page.map (fun l => (l.1, if l.2.2 % 2 = 1 then zeroLine else l.2.1)))
  (s.cleanPage frame).setPageState frame (listPoison 0 ((page.filter (fun l => l.2.2 % 2 == 1)).map (·.1)))

/-- The lines of a page as a read without effects gives them: data and tag. -/
def State.pageLines (s : State) (frame : Nat) : List (Nat × List (BitVec 8) × Nat) :=
  (s.linesIn frame).filterMap (fun l => (s.yields frame l).map (fun g => (l, g.1.value, g.1.tag)))

/-- The parity page of a frame's stripe follows a page written whole (R162, Table 6-4). -/
def State.streamParity (s : State) (frame p : Nat) (page : List (Nat × List (BitVec 8) × Nat)) : State :=
  let fs := (s.stripe frame).filter (fun f => !s.frameReserved f)
  let ks := fs.map s.linesIn
  let new (l : Nat) : List (BitVec 8) := match page.find? (fun e => e.1 == l) with
    | some e => if e.2.2 % 2 = 1 then zeroLine else e.2.1
    | none => zeroLine
  let ls := (List.range 1024).filter (fun l => page.any (fun e => e.1 == l) || ks.any (fun k => k.contains l))
  s.streamFrame p (ls.map (fun l => (l, s.parityWith frame l (new l))))

/-- A full-page streaming write under the frame's protection. -/
def State.stream (s : State) (frame : Nat) (page : List (Nat × List (BitVec 8) × Nat)) : State :=
  let s := if s.reach frame = .direct then s.streamFrame frame page else s
  match s.companion frame with
  | none => s
  | some c => if s.reach c ≠ .direct then s else if s.frameClass frame = 2 then s.streamFrame c page else s.streamParity frame c page

/-! ### Reading a line (R144, R159, R164) -/

/-- What reading a line gives: its bytes, whether it is poison, whether a correction gave it, and the state with corrections, counts and poisonings done
(R144, R147, R168, R169). `origin` is the value of `STK_UE_LAST.SRC`. -/
structure LineRead where
  bytes : List (BitVec 8)
  poison : Bool
  fixed : Bool
  state : State

def LineGot.read (g : LineGot) (s : State) : LineRead := ⟨g.value, g.poison, g.fixed, s⟩

/-- The slot line of a frame that has one. -/
def State.slotWord (s : State) (frame line : Nat) : Option (List (BitVec 8)) :=
  ((s.stk (keyStack frame)).folds.find? (fun f => f.frame == frame)).bind (fun f => (f.lines.find? (fun e => e.1 == line)).map (·.2))

/-- Puts a line into the open slot of a frame. -/
def State.setSlotWord (s : State) (frame line : Nat) (w : List (BitVec 8)) : State :=
  let k := s.stk (keyStack frame)
  s.setStk (keyStack frame) { k with folds := k.folds.map (fun f =>
    if f.frame = frame then { f with lines := smInsert (smErase f.lines line) line w } else f) }

/-- Reads a line that a fold slot holds; one that fails its code is uncorrectable (R159). -/
def State.readSlot (s : State) (frame line origin : Nat) (w : List (BitVec 8)) : LineRead :=
  let x := keyStack frame
  match gotOf w with
  | some g =>
    let s := if g.fixed then
        let s := s.bucket x 0
        if s.flag F.STK_ECC_CTL_WB_EN x then s.setSlotWord frame line (codeWord g.data g.tag) else s
      else s
    g.read s
  | none => ⟨zeroLine, true, true, (s.setSlotWord frame line (codeWord zeroLine 1)).noteUE x (keyPage frame) line origin true⟩

/-- Reads a line that lies in the memory of a stack that is present, through the layers of Table 6-1: a correction of layer 2 or 3 is written back, one
of layer 1 where WB_EN asks for it or the scrubber made it; a line that no layer yields is poisoned. -/
def State.readStored (s : State) (frame line origin : Nat) : LineRead :=
  let x := keyStack frame
  match s.yields frame line with
  | some (g, n) =>
    if n = 1 then
      if g.fixed then
        let s := s.bucket x 0
        g.read (if s.flag F.STK_ECC_CTL_WB_EN x || origin == 1 then
          (s.writePool frame (line * 64) g.data).setSide frame line (sideOf g.data g.tag g.ctrl) else s)
      else g.read s
    else g.read ((s.bucket x (n - 1)).storeLine frame line g.value g.tag)
  | none => ⟨zeroLine, true, true, s.loseLine frame line origin⟩

/-- Reads a line of a frame. A line of a missing member comes from the other members of its unit, or reads as poison (Table 6-6). -/
def State.readLine (s : State) (frame line origin : Nat) : LineRead :=
  let x := keyStack frame
  match s.reach frame with
  | .lost => ⟨zeroLine, true, false, s⟩
  | .rebuilt => match s.layer3 frame line with
    | some v => ⟨v.1, v.2, false, s.bucket x 2⟩
    | none => ⟨zeroLine, true, false, s.noteUE x (keyPage frame) line origin false⟩
  | .direct => match s.slotWord frame line with
    | some w => s.readSlot frame line origin w
    | none => s.readStored frame line origin

/-- A correction on a demand read is counted for the context that read, with its segment and page (`SEC_OBS`, R331). -/
def State.observeCE (s : State) (c g page : Nat) : State :=
  ((s.count F.SEC_OBS_CE 1 0 c).setFld F.SEC_OBS_CE_SEG g 0 c).setFld F.SEC_OBS_CE_PAGE page 0 c

end Sys2Proof.Machine
end

