-- ==== Sys2Proof/Machine/StackState.lean ====
section
/-!
DEFINITION. The state of a stack controller as its requesters see it: serving, asleep, woken (R121, R136, R137, R140, Table 5-6); and the placement
words it keeps (R138, R139).
-/
namespace Sys2Proof.Machine
open Sys2Proof

/-! ### Stack states -/

def State.stkState (s : State) (x : Nat) : Nat := s.fld F.STK_STAT_STATE x

/-- The open state of a stack with the channels it has lost (Table 5-4 step 9). -/
def openState (failed : Nat) : Nat := let n := popCount 32 failed; if n = 0 then 2 else if n ≤ 2 then 3 else 7

/-- A stack that is open or degraded. -/
def State.stkOpen (s : State) (x : Nat) : Bool := s.stkState x == 2 || s.stkState x == 3

/-- A stack that serves requests: open or degraded, and enabled (R121). -/
def State.stkServes (s : State) (x : Nat) : Bool := s.stkOpen x && s.flag F.STK_CTL_EN x

/-- A present stack moves to another state. -/
def State.moveStk (s : State) (x st : Nat) : State :=
  if s.stkState x = st then s else (s.setFld F.STK_STAT_STATE st x).raise (4 * x + 2)

/-- The stacks that sleep and wake together with `x`: its parity group where the layout has a P1 zone, its pair where it has a P2 zone, else itself
(R140); those that are absent or failed are left out. -/
def State.sleepUnit (s : State) (x : Nat) : List Nat :=
  let b := layoutBounds (s.regVal .STK_LAYOUT_CUR) x
  let all := if b.1 < b.2 then (List.range 8).map (· + x / 8 * 8)
    else if b.2 < usableFrames then (if x < x ^^^ 4 then [x, x ^^^ 4] else [x ^^^ 4, x]) else [x]
  all.filter (fun y => s.stkState y ≠ 0 && s.stkState y ≠ 7)

/-! ### Placement words (R138) -/

/-- Words a controller caches (R138). -/
def placeCache : Nat := 16384

/-- The placement word of a frame: the cached one, or that of the metadata. -/
def State.placeWord (s : State) (frame : Nat) : Nat :=
  match (s.stk (keyStack frame)).plc.find? (fun e => e.1 == keyPage frame) with
  | some e => e.2.toNat
  | none => (smGet 0 s.pool.place frame).toNat

/-- Writes cached words back to the metadata of stack `x`. -/
def State.placeBack (s : State) (x : Nat) (es : List (Nat × BitVec 16)) : State :=
  es.foldl (fun s e => s.setPool { s.pool with place := smSet 0 s.pool.place (frameKey x e.1) e.2 }) s

/-- Stores a placement word in the cache, as the most recently used; the least recently used word leaves a full cache and is written back. -/
def State.setPlace (s : State) (frame v : Nat) : State :=
  let x := keyStack frame
  let k := s.stk x
  let es := k.plc.filter (fun e => e.1 ≠ keyPage frame) ++ [(keyPage frame, BitVec.ofNat 16 v)]
  let n := es.length - placeCache
  (s.setStk x { k with plc := es.drop n }).placeBack x (es.take n)

/-- The cache is written back at self-refresh entry (Table 5-5). -/
def State.flushPlaces (s : State) (x : Nat) : State :=
  let k := s.stk x
  (s.setStk x { k with plc := [] }).placeBack x k.plc

def placeCnt (w : Nat) : Nat := bits w 0 8
def placeHint (w : Nat) : Nat := bits w 8 2

/-- A controller has served a piece on a frame: its counter rises by 1. -/
def State.touchFrame (s : State) (frame : Nat) : State :=
  let w := s.placeWord frame
  s.setPlace frame (setBits w 0 8 (min 255 (placeCnt w + 1)))

/-- Sets HINT of a frame. A stack that is entering self-refresh or asleep takes the hint when it is awake again, so that a scan meanwhile returns the
words as cached at entry (R139); a hint wakes no stack (log 36). -/
def State.setHint (s : State) (frame v : Nat) : State :=
  let x := keyStack frame
  if 4 ≤ s.stkState x ∧ s.stkState x ≤ 6 then
    let k := s.stk x
    s.setStk x { k with hints := k.hints ++ [(keyPage frame, v)] }
  else s.setPlace frame (setBits (s.placeWord frame) 8 2 v)

/-- A stack that is awake again takes the hints that came meanwhile. -/
def State.takeHints (s : State) (x : Nat) : State :=
  let k := s.stk x
  k.hints.foldl (fun s h => s.setPlace (frameKey x h.1) (setBits (s.placeWord (frameKey x h.1)) 8 2 h.2)) (s.setStk x { k with hints := [] })

/-! ### Requests and sleep (R136, R137) -/

/-- A stack starts its exit from self-refresh. -/
def State.exitStk (s : State) (x : Nat) : State := (s.setStk x { s.stk x with exitAt := s.now }).moveStk x 6

/-- Starts the exit of a sleeping stack and of those that sleep with it; one that is past its point of no return leaves again at once (R137). -/
def State.wakeStk (s : State) (x : Nat) : State :=
  if s.stkState x = 5 then
    (s.sleepUnit x).foldl (fun s y =>
      if s.stkState y = 5 then s.exitStk y
      else if s.stkState y = 4 then s.setStk y { s.stk y with wakeAfter := true } else s) s
  else s

/-- An entry to self-refresh that has not passed its point of no return is abandoned, by the stacks that sleep together (R137, R140). -/
def State.abandonSleep (s : State) (x : Nat) : State :=
  if s.stkState x = 4 ∧ s.now < (s.stk x).entryAt + 2800 then
    (s.sleepUnit x).foldl (fun s y =>
      if s.stkState y = 4 ∧ s.now < (s.stk y).entryAt + 2800 then (s.moveStk y (openState (s.failedCh y))).takeHints y else s) s
  else s

/-- A stack is to serve again, whatever state of sleep it is in (R33, R405). -/
def State.rouseStk (s : State) (x : Nat) : State :=
  let s := s.abandonSleep x
  if s.stkState x = 4 then s.setStk x { s.stk x with wakeAfter := true } else s.wakeStk x

/-- A request reaches a stack, through any of its eight ports: it keeps the stack from sleep, or ends its sleep (R136, R137). -/
def State.askStk (s : State) (x : Nat) : State := ((s.setStk x { s.stk x with lastReq := s.now }).abandonSleep x).wakeStk x

/-- A page at a time through a port: the request reaches the stack, and whether the stack takes it now (R121). -/
def State.useStk (s : State) (x : Nat) : Bool × State :=
  let s := s.askStk x
  (s.stkServes x || (s.stk x).missing, s)

end Sys2Proof.Machine
end

