-- ==== Sys2Proof/Machine/ChkOps.lean ====
section
/-!
DEFINITION. Check-value units at work: the update for a byte, the compare, and the bytes that the watched streams feed them (R361 to
R363).
-/
namespace Sys2Proof.Machine
open Sys2Proof

/-- The low `n` bits of `x` in reverse order. -/
def revBits : Nat → Nat → Nat
  | 0, _ => 0
  | n + 1, x => (x % 2) * 2 ^ n + revBits n (x / 2)

/-- One step of R362: the bit that leaves the top, exclusive-or the input bit, selects the polynomial. -/
def chkBit (w poly run : Nat) (b : Bool) : Nat :=
  let r := 2 * run % 2 ^ w
  if run.testBit (w - 1) != b then r ^^^ poly else r

/-- The running value after one byte (R362), most significant bit first. -/
def chkByte (w poly : Nat) (refin : Bool) (run b : Nat) : Nat :=
  let b := if refin then revBits 8 b else b
  [7, 6, 5, 4, 3, 2, 1, 0].foldl (fun r i => chkBit w poly r (b.testBit i)) run

/-- The result of a compare (R362). -/
def chkResult (w run xorout : Nat) (refout : Bool) : Nat := (if refout then revBits w run else run) ^^^ xorout

/-- Width of unit `u` and the low W bits of one of its registers. -/
def State.chkW (s : State) (u : Nat) : Nat := s.fld F.CHK_CTL_WIDTH_M1 0 u + 1
def State.chkLow (s : State) (f : Fld) (u : Nat) : Nat := s.fld f 0 u % 2 ^ s.chkW u

/-- OP = RESET, and the restart of AUTO (R363). -/
def State.chkInit (s : State) (u : Nat) : State :=
  (s.setReg .CHK_RUN (s.chkLow F.CHK_INIT_VALUE u) 0 u).setReg .CHK_COUNT 0 0 u

/-- A compare (R363). -/
def State.chkCompare (s : State) (u : Nat) : State :=
  let x := chkResult (s.chkW u) (s.chkLow F.CHK_RUN_RUN u) (s.chkLow F.CHK_XOROUT_VALUE u) (s.flag F.CHK_CTL_REFOUT 0 u)
  let e := s.chkLow F.CHK_EXPECT_VALUE u
  let s := (s.setReg .CHK_RESULT x 0 u).setFld F.CHK_STAT_DONE 1 0 u
  let s := if x = e then s
    else (((s.setSticky F.CHK_STAT_MISMATCH 0 u).count F.CHK_STAT_MISMATCHES 1 0 u).raise (0x1B8 + u)).event (srcChk u) 1
      [x, e, s.fld F.CHK_COUNT_COUNT 0 u]
  if s.flag F.CHK_CTL_AUTO 0 u then s.chkInit u else s.setFld F.CHK_CTL_EN 0 0 u

/-- The compare of a unit whose COUNT has reached LEN; a COMPARE written in the same cycle makes no second one (R363). -/
def State.chkAtLen (s : State) (u : Nat) : State :=
  let s := s.chkCompare u
  { s with intc := { s.intc with chkAt := smSet 0 s.intc.chkAt u (s.now + 1) } }

/-- Feeds a unit bytes until it stops (R361, R363). -/
def State.chkBytes (u : Nat) : State → List (BitVec 8) → State
  | s, [] => s
  | s, b :: rest =>
    if !s.flag F.CHK_CTL_EN 0 u then s
    else
      let run := chkByte (s.chkW u) (s.chkLow F.CHK_POLY_VALUE u) (s.flag F.CHK_CTL_REFIN 0 u) (s.chkLow F.CHK_RUN_RUN u) b.toNat
      let s := (s.setReg .CHK_RUN run 0 u).count F.CHK_COUNT_COUNT 1 0 u
      let n := s.fld F.CHK_LEN_LEN 0 u
      (if n ≠ 0 ∧ s.fld F.CHK_COUNT_COUNT 0 u = n then s.chkAtLen u else s).chkBytes u rest

/-- Bytes on a watched stream (Table 14-6): its kind, quarter and index; for a station the direction and order channel; their
context, if one is known; for a port the source endpoint; and whether failed or poisoned sectors are among them. -/
structure ChkStream where
  kind : Nat
  q : Nat := 0
  idx : Nat
  dir : Nat := 0
  ch : Nat := 0
  ctx : Option Nat := none
  ep : Nat := 0
  poison : Bool := false
  deriving DecidableEq, Repr

/-- Unit `u` watches the stream (Table 14-6, Table 14-9). -/
def State.chkWatches (s : State) (u : Nat) (x : ChkStream) : Bool :=
  let k := s.fld F.CHK_SEL_KIND 0 u
  let ep := s.fld F.CHK_SEL_EP 0 u
  s.flag F.CHK_CTL_EN 0 u && k == x.kind && s.fld F.CHK_SEL_IDX 0 u == x.idx &&
    ((k == 1 || k == 3) || s.fld F.CHK_SEL_QUARTER 0 u == x.q) &&
    (k != 0 || (s.fld F.CHK_SEL_DIR 0 u == x.dir && (s.fld F.CHK_SEL_CHMASK 0 u).testBit x.ch)) &&
    (!s.flag F.CHK_SEL_CTXV 0 u || x.ctx == some (s.fld F.CHK_SEL_CTX 0 u)) &&
    (k != 1 || !s.flag F.CHK_SEL_EPV 0 u ||
      (if s.flag F.CHK_SEL_EPBLK 0 u then bits x.ep 6 14 == bits ep 6 14 else x.ep == ep))

/-- Feeds every unit that watches a stream. -/
def State.chkFeed (s : State) (x : ChkStream) (bs : List (BitVec 8)) : State :=
  (List.range 8).foldl (fun s u =>
    if s.chkWatches u x then
      let s := if x.poison then s.setSticky F.CHK_STAT_POISON 0 u else s
      s.chkBytes u bs
    else s) s

/-- Whether a packet's payload feeds the units that watch its port: WR, VWR, MWR and CALL (Table 14-6). -/
def chkTyp (t : Nat) : Bool := t == 2 || t == 5 || t == 8 || t == 0x60

/-- A packet that passed R313 on port `p`. `ctx` is the context its pair is bound to. -/
def State.chkPacket (s : State) (p : Nat) (k : Packet) (ctx : Option Nat) : State :=
  if chkTyp k.typ.toNat then s.chkFeed { kind := 1, idx := p, ctx := ctx, ep := k.src.toNat } k.payload else s

end Sys2Proof.Machine
end

