-- ==== Sys2Proof/Machine/Fabric.lean ====
section
/-!
DEFINITION. The fabric as the engines use it: scanning registers, packet classes, authentication by arrival port, route lookup,
completions and replies, and packets the device originates (R281, R282, R289 to R291, R295, R301, R313, R314, R336, R416).
-/
namespace Sys2Proof

/-! ### Packets -/

/-- Endpoint numbers and the like as numbers. -/
def Packet.dstN (k : Packet) : Nat := k.dst.toNat
def Packet.srcN (k : Packet) : Nat := k.src.toNat
def Packet.typN (k : Packet) : Nat := k.typ.toNat
def Packet.tagN (k : Packet) : Nat := k.tag.toNat
def Packet.chN (k : Packet) : Nat := k.ch.toNat
def Packet.lenN (k : Packet) : Nat := k.len.toNat
def Packet.offN (k : Packet) : Nat := k.off.toNat

/-- Flits of a packet: the header flit and its data flits (R281). -/
def Packet.flitCount (k : Packet) : Nat := 1 + k.ndata.toNat

/-- Body bytes in use: 64 + 64 × INL and the bytes of the data flits (R304). -/
def Packet.usedBytes (k : Packet) : Nat :=
  64 + 64 * k.inl.toNat + (if k.ndata.toNat = 0 then 0 else (k.payload.length + 63) / 64 * 64)

/-- The virtual channel of a packet type (Table 10-8, Tables 11-3, 12-1, 13-4); none: the type is reserved. -/
def typVc (t : Nat) : Option Nat :=
  if t = 0 then none
  else if t ≤ 7 then some 0
  else if t = 8 then some 4
  else if t = 0x10 ∨ t = 0x11 then some 1
  else if t = 0x12 then some 4
  else if 0x41 ≤ t ∧ t ≤ 0x43 then some 0
  else if t = 0x44 ∨ t = 0x45 ∨ (0x4B ≤ t ∧ t ≤ 0x4F) ∨ t = 0x51 then some 3
  else if (0x46 ≤ t ∧ t ≤ 0x4A) ∨ t = 0x50 ∨ t = 0x52 then some 2
  else if 0x60 ≤ t ∧ t ≤ 0x63 then some 5
  else if t = 0x68 ∨ t = 0x69 then some 7
  else if 0x70 ≤ t ∧ t ≤ 0x72 then some 7
  else if 0x78 ≤ t ∧ t ≤ 0x7D then some 7
  else if 0x80 ≤ t ∧ t ≤ 0x84 then some 6
  else none

/-- A packet a port passes on: not reserved, on its VC, reserved fields zero (R281). -/
def Packet.wellFormed (k : Packet) : Bool := typVc k.typN == some k.vc.toNat && !k.rsvd

/-- Payload of `n` bytes in a packet: at most 192 bytes travel inline (R281). -/
def Packet.withPayload (k : Packet) (bs : List (BitVec 8)) : Packet :=
  if bs.length ≤ 192 then { k with payload := bs, inl := BitVec.ofNat 2 ((bs.length + 63) / 64), ndata := 0 }
  else { k with payload := bs, inl := 0, ndata := BitVec.ofNat 4 ((bs.length + 255) / 256) }

/-- Requests: VC0, VC4 calls and multicast; they are answered when they are refused (R291, R313). -/
def Packet.isRequest (k : Packet) : Bool :=
  k.vc.toNat == 0 || k.typN == 8 || k.typN == 0x60 || k.typN == 0x61

end Sys2Proof

namespace Sys2Proof.Machine
open Sys2Proof

/-- First index pair of a register whose stored value satisfies `p`; registers at their reset value are not met, so `p` must
fail on reset values. -/
def State.findRegs (s : State) (r : RegName) (inst : Nat) (p : Nat → Nat → Nat → Bool) : Option (Nat × Nat) :=
  let o := r.addr inst 0 0
  s.regs.findSome? (fun e =>
    if e.1 < o then none
    else match r.matchAt (e.1 - o + r.spec.base) with
      | some (i, j) => if p i j e.2.toNat then some (i, j) else none
      | none => none)

/-- A field of a register's value. -/
def Fld.of (f : Fld) (v : Nat) : Nat := bits v f.lo f.width

/-! ### Authentication (R313, R314, R336) -/

/-- Whether a port of role `role` accepts a packet type (Tables 12-3 and 13-4): 0 = HOST, 1 = BOARD, 2 = POD, 3 = TENANT.
`tl` says whether the port is TL0 or TL1. -/
def roleAccepts (role t : Nat) (tl : Bool) : Bool :=
  let host := role == 0
  let board := role == 1
  let pod := role == 2
  let ten := role == 3
  if t ≤ 8 then true
  else if 0x10 ≤ t ∧ t ≤ 0x12 then true
  else if 0x41 ≤ t ∧ t ≤ 0x43 then host || board || ten
  else if typVc t == some 2 then board
  else if typVc t == some 3 then host || board || ten
  else if t = 0x60 ∨ t = 0x61 then host || board || pod
  else if t = 0x62 ∨ t = 0x63 then board || pod
  else if t = 0x68 ∨ t = 0x69 then board || pod
  else if t = 0x70 ∨ t = 0x71 then host
  else if t = 0x78 then true
  else if t = 0x79 then board || pod
  else if t = 0x7A then host && tl
  else if t = 0x7C then host
  else if t = 0x82 ∨ t = 0x84 then host
  else false

/-- Role of a port. -/
def State.role (s : State) (p : Nat) : Nat := s.fld F.PORT_CTL_ROLE p

/-- Step 1 of R313: the source endpoint is allowed on the port. -/
def State.allowed (s : State) (p ep : Nat) : Bool :=
  s.flag F.PORT_AUTH_CTL_ANY p ||
  (List.range 16).any (fun i =>
    let v := s.regVal .PORT_ALLOW p i
    F.PORT_ALLOW_V.of v == 1 &&
      (if F.PORT_ALLOW_BLOCK.of v == 1 then F.PORT_ALLOW_KEY.of v / 64 == ep / 64 else F.PORT_ALLOW_KEY.of v == ep))

/-- The ingress check of R313. SYNC and FOLLOW_UP skip step 1. -/
def State.authOk (s : State) (p : Nat) (k : Packet) : Bool :=
  (k.typN == 0x68 || k.typN == 0x69 || s.allowed p k.srcN) && roleAccepts (s.role p) k.typN (p == 12 || p == 13)

/-! ### Outcome blocks, replies and deliveries -/

/-- The two words of an outcome block (Table 3-2). -/
def Outcome16.words (o : Outcome16) : List Nat :=
  [o.tag + o.ch * 2 ^ 16 + (if o.abt then 2 ^ 19 else 0) + o.status.code * 2 ^ 20 + o.worst.code * 2 ^ 24
     + (if o.maskv then 2 ^ 28 else 0) + (o.info % 2 ^ 32) * 2 ^ 32,
   o.word1]

/-- The outcome block of a request that took no effect, of length `len`: every sector failed with the status (R73). -/
def plainOutcome (tag ch : Nat) (st : Status) (len : Nat) : Outcome16 :=
  let n := (len + 63) / 64
  if st = .ok then ⟨tag, ch, false, .ok, .ok, len ≤ 4096, 0, 0⟩
  else ⟨tag, ch, false, st, st, len ≤ 4096, 0, if len ≤ 4096 then 2 ^ n - 1 else 0⟩

/-- The CMPL packet that answers request `k` (R282). The reply's source is the endpoint the request was sent to (log 31). -/
def Outcome16.packet (o : Outcome16) (k : Packet) : Packet :=
  { dst := k.src, src := k.dst, typ := 0x11, vc := 1, inl := 1, tag := k.tag, ch := k.ch, len := k.len,
    payload := wordBytes o.words }

/-- The egress queue of a packet of this device (Table 11-4). -/
def State.egressQueue (s : State) (ctx : Option Nat) (marked : Bool) (vc : Nat) : Nat :=
  match ctx with
  | some c => if marked then s.fld F.HUB_QSEL_QALT 0 c else s.fld F.HUB_QSEL_QUEUE 0 c
  | none => 504 + vc

/-- The 32-byte body of MREP and MCMPL (R298). -/
def mcBody (tag ch group : Nat) (st : Status) (delivered fenced lost refused rid : Nat) : List (BitVec 8) :=
  wordBytes [tag + ch * 2 ^ 16 + st.code * 2 ^ 20 + group * 2 ^ 24, delivered % 2 ^ 32 + fenced % 2 ^ 32 * 2 ^ 32,
    lost % 2 ^ 32 + refused % 2 ^ 32 * 2 ^ 32, rid]

/-- The MCMPL that answers a multicast request of which nothing was sent (R298). -/
def mcRefusal (k : Packet) (st : Status) : Packet :=
  { dst := k.src, src := k.dst, typ := 0x63, vc := 5, inl := 1, tag := k.tag, ch := k.ch,
    payload := mcBody k.tagN k.chN (k.dstN % 1024) st 0 0 0 0 0 }

/-- Ingress epoch (R289). -/
def State.epoch (s : State) : Bool := s.flag F.HUB_RT_STAT_EPOCH

/-- Hands a packet to the device, with its arrival port (15 = local). -/
def State.deliver (s : State) (p : Nat) (k : Packet) : State :=
  { s with hub := { s.hub with delivered := s.hub.delivered ++ [(p, k)] } }

/-! ### Routing (R290, R291) -/

/-- Field PORT, ALT, ALTV, BLOCK, KEY and V of a routing entry (Table 11-1). -/
def rtKey (v : Nat) : Nat := bits v 0 20
def rtBlock (v : Nat) : Bool := v.testBit 20
def rtPort (v : Nat) : Nat := bits v 21 4
def rtAlt (v : Nat) : Nat := bits v 25 4
def rtAltV (v : Nat) : Bool := v.testBit 29
def rtV (v : Nat) : Bool := v.testBit 63

/-- The PORT a version of the table gives for an endpoint, if an entry or the default route matches (R290). -/
def State.lookup (s : State) (ver ep : Nat) : Option Nat :=
  let es := s.hub.rt.filter (fun e => e.1 / 16384 == ver && rtV e.2.toNat)
  match es.find? (fun e => !rtBlock e.2.toNat && rtKey e.2.toNat == ep) with
  | some e => some (rtPort e.2.toNat)
  | none =>
    match es.find? (fun e => rtBlock e.2.toNat && rtKey e.2.toNat / 64 == ep / 64) with
    | some e => some (rtPort e.2.toNat)
    | none => if s.flag F.HUB_RT_DEF_V 0 ver then some (s.fld F.HUB_RT_DEF_PORT 0 ver) else none

/-- What the hub does with a packet: one port, this device, no route, or a port that is DOWN (R291). -/
inductive Verdict where
  | port (p : Nat) | here | noRoute | down
  deriving DecidableEq, Repr

/-- The verdict for egress port `n`. -/
def State.portVerdict (s : State) (n : Nat) : Verdict :=
  if n = 15 then .here
  else if 14 ≤ n then .noRoute
  else if s.portState n = stDown then .down
  else if s.portLive n then .port n
  else .noRoute

/-- The version that routes a packet of epoch `e`, and whether it counts as late (R293): a packet of the old epoch that arrives
after LOCK has cleared is routed by the active version. -/
def State.routeVer (s : State) (e : Bool) : Nat × Bool :=
  if e = s.epoch ∨ s.flag F.HUB_RT_STAT_LOCK ∨ s.fld F.HUB_RT_STAT_FLIPS = 0 then (e.toNat, false)
  else (s.epoch.toNat, true)

/-- The verdict for an endpoint under an epoch. -/
def State.verdict (s : State) (e : Bool) (ep : Nat) : Verdict :=
  match s.lookup (s.routeVer e).1 ep with
  | some n => s.portVerdict n
  | none => .noRoute

/-- Whether a route exists to an endpoint (R70, R112). -/
def State.hasRoute (s : State) (ep : Nat) : Bool :=
  match s.verdict s.epoch ep with
  | .port _ => true
  | .here => true
  | _ => false

/-- The status of a request the hub cannot forward. -/
def Verdict.status : Verdict → Status
  | .down => .linkLost
  | .noRoute => .noRoute
  | _ => .ok

/-- Counts a discard of R291. -/
def State.countDiscard (s : State) (v : Verdict) : State :=
  match v with
  | .down => s.count F.HUB_CNT_DOWNED
  | .noRoute => s.count F.HUB_CNT_NOROUTE
  | _ => s

/-- The flow's order channel. -/
def Flow.onChan (f : Flow) (arr src ch : Nat) : Bool := f.arr == arr && f.pkt.srcN == src && f.pkt.chN == ch

/-- An order channel of the fabric has a request of another epoch outstanding, so a request of the new one waits (R295). -/
def State.epochHeld (s : State) (arr src ch : Nat) : Bool :=
  s.hub.flows.any (fun f => f.onChan arr src ch && f.pkt.epoch != s.epoch)

/-- Notes a request, once for its several packets. -/
def State.noteFlow (s : State) (arr out : Nat) (k : Packet) (ordered : Bool := true) : State :=
  if s.hub.flows.any (fun f => f.onChan arr k.srcN k.chN && f.pkt.tag == k.tag) then s
  else { s with hub := { s.hub with flows := s.hub.flows ++ [⟨arr, out, k, [], false, ordered⟩] } }

/-- A reply of the channel still stands in another egress queue of its port, where a reply sent now could overtake it. -/
def State.behindReply (s : State) (arr q src ch : Nat) : Bool :=
  arr < 14 && (s.link arr).queues.any (fun x => x.1 != q && x.2.any (fun h =>
    h.pkt.vc.toNat == 1 && h.pkt.dstN == src && h.pkt.chN == ch))

/-- Sends the held replies that are in turn: those of the first request of the channel, and of the next ones once it is
finished (R291). One whose egress queue is not that of the reply before it waits until that one has left. -/
def State.releaseFlows : Nat → State → Nat → Nat → Nat → State
  | 0, s, _, _, _ => s
  | n + 1, s, arr, src, ch =>
    match s.hub.flows.find? (fun f => f.ordered && f.onChan arr src ch) with
    | none => s
    | some f =>
      match f.replies with
      | [] =>
        if f.fin then ({ s with hub := { s.hub with flows := s.hub.flows.erase f } } : State).releaseFlows n arr src ch else s
      | r :: rest =>
        if s.behindReply arr r.1 src ch then s
        else
          let s := if arr = 15 then s.deliver 15 r.2 else s.enqueue arr r.1 r.2
          ({ s with hub := { s.hub with flows := s.hub.flows.map (fun g => if g = f then { f with replies := rest } else g) } } : State).releaseFlows
            n arr src ch

/-- Replies and requests the order channels of the fabric hold: a bound on what one release can send. -/
def State.flowWork (s : State) : Nat := s.hub.flows.foldl (fun a f => a + f.replies.length + 1) 1

/-- Sends reply `k` through queue `q` to the requester on port `arr`, behind the earlier completions of its channel. -/
def State.answer (s : State) (arr q : Nat) (k : Packet) : State :=
  let mine (f : Flow) : Bool := f.onChan arr k.dstN k.chN && f.pkt.tag == k.tag
  let s : State := if k.typN = 0x11 then
      { s with hub := { s.hub with flows := s.hub.flows.filter (fun f => f.ordered || !mine f) } } else s
  if s.hub.flows.any (fun f => f.ordered && mine f) then
    let s : State := { s with hub := { s.hub with flows := s.hub.flows.map (fun (f : Flow) =>
      if f.ordered && mine f then
        { f with replies := f.replies ++ [(q, k)], fin := f.fin || k.typN == 0x11 } else f) } }
    s.releaseFlows s.flowWork arr k.dstN k.chN
  else if arr = 15 then s.deliver 15 k
  else s.enqueue arr q k

/-- Sends a reply out of the port its request arrived on, without a table lookup (R416); the reply to a local request is
delivered inside the device. -/
def State.sendReply (s : State) (p : Nat) (ctx : Option Nat) (marked : Bool) (k : Packet) : State :=
  s.answer p (s.egressQueue ctx marked k.vc.toNat) k

/-- Answers a request of which nothing else is kept: the completion takes the ingress epoch (R289). -/
def State.refuse (s : State) (p : Nat) (k : Packet) (st : Status) : State :=
  if k.typN = 0x60 ∨ k.typN = 0x61 then s.sendReply p none false { mcRefusal k st with epoch := s.epoch } else
  s.sendReply p none false { (plainOutcome k.tagN k.chN st k.lenN).packet k with epoch := s.epoch }

/-- Whether a refusal of packet `k` completes its request: a request of several packets completes once, with its first packet or
while it is still outstanding (R72, R291). -/
def State.answersOnce (s : State) (p : Nat) (k : Packet) : Bool :=
  k.isRequest && (k.offN == 0 || s.hub.flows.any (fun f => f.onChan p k.srcN k.chN && f.pkt.tag == k.tag && !f.fin))

/-- Refuses a packet at the port where it arrived: a request completes once, at a port where requests enter the fabric behind the
earlier completions of its channel (R291); `f` counts what is counted once for each request. -/
def State.refuseOnce (s : State) (p : Nat) (k : Packet) (st : Status) (f : State → State := id) : State :=
  if s.answersOnce p k then
    let s := if k.typN = 0x60 ∨ k.typN = 0x61 then s else s.noteFlow p 15 k (s.role p == 0 || s.role p == 3)
    f (s.refuse p k st)
  else s

/-- Sends a packet that an engine of the device originates: it takes the ingress epoch and the table routes it (R289, R416).
Answers the verdict; a packet without a live path is discarded and counted (R291). -/
def State.originate (s : State) (ctx : Option Nat) (k : Packet) : Verdict × State :=
  let k := { k with epoch := s.epoch }
  let v := s.verdict k.epoch k.dstN
  match v with
  | .port p => (v, s.enqueue p (s.egressQueue ctx false k.vc.toNat) k)
  | .here => (v, s.deliver 15 k)
  | _ => (v, s.countDiscard v)

/-- Takes a packet the hub delivered, if it is there (its authentication is done); otherwise it is an arrival to check. -/
def State.takeDelivered (s : State) (p : Nat) (k : Packet) : Option State :=
  if s.hub.delivered.contains (p, k) then
    some { s with hub := { s.hub with delivered := s.hub.delivered.erase (p, k) } }
  else none

/-- The context a request belongs to (R35). -/
def State.ctxOf (s : State) (p ep : Nat) : Option Nat :=
  (s.findRegs .XLT_CTX_BIND 0 (fun _ _ v =>
    F.XLT_CTX_BIND_V.of v == 1 && F.XLT_CTX_BIND_PORT.of v == p && F.XLT_CTX_BIND_SRC_EP.of v == ep)).map (·.1)

/-- What an arriving packet meets at its port before its command acts (R281, R313): `none` when it goes no further, its refusal
done. Port 15 carries the device's own packets, which are not authenticated; 14 names no port. -/
def State.arrive (s : State) (p : Nat) (k : Packet) : Option State × State :=
  match s.takeDelivered p k with
  | some s' => (some s', s')
  | none =>
    if p = 14 then (none, s)
    else if p = 15 then (some s, s)
    else if !k.wellFormed then (none, s.linkErr p .crc)
    else if s.authOk p k then
      let s := s.chkPacket p k (s.ctxOf p k.srcN)
      (some s, s)
    else if k.isRequest then (none, s.refuseOnce p k .accessDenied (fun s => (s.count F.PORT_AUTH_CNT_DENIED 1 p).raise (0x144 + 8 * p)))
    else (none, (s.count F.PORT_AUTH_CNT_DISCARD 1 p).raise (0x144 + 8 * p))

/-- Runs a packet's command after its arrival checks, on packets of the type the command takes. -/
def State.onArrival (s : State) (p typ : Nat) (k : Packet) (f : State → State) : State :=
  if k.typN = typ then
    match s.arrive p k with
    | (some s', _) => f s'
    | (none, s') => s'
  else s

/-- Counts a denial by binding or permission in the quarter that owns the port or engine (R35). -/
def State.countDeny (s : State) (q : Nat) : State := s.count F.XLT_QCNT_DENY 1 q

/-- The quarter of an arrival port; the device's own packets count in Q0. -/
def arrQuarter (p : Nat) : Nat := if p < 14 then portQuarter p else 0

end Sys2Proof.Machine
end

