-- ==== Sys2Proof/Machine/Xlt.lean ====
section
/-!
DEFINITION. Contexts, segments, extents and translation buffers (R34 to R50), version regions as translation sees them (R78, R82,
R85, R86), and the checks of segment, extent and binding writes (R36 to R38, R43).
-/
namespace Sys2Proof.Machine
open Sys2Proof

/-- Access kinds of R40 and Table 2-4. -/
inductive Kind where
  | read | write | fetch | own
  deriving DecidableEq, Repr

/-- KIND of a fault record (Table 2-4). -/
def Kind.code : Kind → Nat
  | .read => 0 | .write => 1 | .fetch => 2 | .own => 3

/-! ### Segments -/

def State.segAttr (s : State) (c g : Nat) : Nat := s.regVal .XLT_SEG_ATTR 0 c g
def State.segLen (s : State) (c g : Nat) : Nat := s.fld F.XLT_SEG_LEN_LEN_PG 0 c g
def State.segBase (s : State) (c g : Nat) : Nat := s.fld F.XLT_SEG_BASE_BASE_PG 0 c g
def State.segHva (s : State) (c g : Nat) : Nat := s.fld F.XLT_SEG_HVA_HVA_PG 0 c g
def State.segV (s : State) (c g : Nat) : Bool := s.flag F.XLT_SEG_ATTR_V 0 c g
def State.ctxV (s : State) (c : Nat) : Bool := s.flag F.XLT_CTX_BIND_V 0 c
def State.gen (s : State) (c : Nat) : Nat := s.fld F.XLT_CTX_GEN_GEN 0 c

/-- Whether segment attributes permit an access kind (R40). -/
def attrAllows (attr : Nat) : Kind → Bool
  | .read => F.XLT_SEG_ATTR_RD.of attr == 1
  | .write => F.XLT_SEG_ATTR_WR.of attr == 1
  | .fetch => F.XLT_SEG_ATTR_X.of attr == 1
  | .own => F.XLT_SEG_ATTR_C.of attr == 1

/-- The segment and offset an address field names (R34 step 2, R44). -/
def State.resolve (s : State) (c a : Nat) : Option (Nat × Nat) :=
  if a.testBit 63 then (if bits a 59 4 = 0 then some (bits a 56 3, bits a 0 56) else none)
  else if bits a 56 7 ≠ 0 then none
  else
    (List.range 8).findSome? (fun g =>
      if s.segV c g && s.segBase c g * 65536 ≤ a && a < (s.segBase c g + s.segLen c g) * 65536 then
        some (g, a - s.segBase c g * 65536) else none)

/-- The segment and offset of the byte `off` above an address. `hdl` says that only a handle will do: a value with bit 63 clear is none (R44).
A handle's offset does not run over into the segment field. -/
def State.resolveAt (s : State) (c a off : Nat) (hdl : Bool) : Option (Nat × Nat) :=
  if a.testBit 63 then (if bits a 59 4 = 0 ∧ bits a 0 56 + off < 2 ^ 56 then some (bits a 56 3, bits a 0 56 + off) else none)
  else if hdl then none else s.resolve c (a + off)

/-- `cvt.hdl` (R45). -/
def State.cvtHdl (s : State) (c hva : Nat) : Nat :=
  ((List.range 8).findSome? (fun g =>
    let lo := s.segHva c g * 65536
    if s.segV c g && lo ≤ hva && hva < lo + s.segLen c g * 65536 then some (2 ^ 63 + g * 2 ^ 56 + (hva - lo)) else none)).getD 0

/-- `cvt.hva` (R45). -/
def State.cvtHva (s : State) (c h : Nat) : Nat :=
  let g := bits h 56 3
  let o := bits h 0 56
  if !h.testBit 63 || !s.segV c g || s.segLen c g * 65536 ≤ o then 0
  else (s.segHva c g * 65536 + o) % 2 ^ 64

/-! ### Extents (R41, R42) -/

/-- The two words of extent entry `i`. -/
def State.extWords (s : State) (i : Nat) : Nat × Nat :=
  ((smGet 0 s.pool.ext (2 * i)).toNat, (smGet 0 s.pool.ext (2 * i + 1)).toNat)

def extPage (e : Nat × Nat) : Nat := bits e.1 0 40
def extLen (e : Nat × Nat) : Nat := bits e.1 40 16 + 1
def extV (e : Nat × Nat) : Bool := e.1.testBit 56
def extNP (e : Nat × Nat) : Bool := e.1.testBit 57
def extFramePg (e : Nat × Nat) : Nat := bits e.2 0 21
def extFrameStk (e : Nat × Nat) : Nat := bits e.2 21 4
def extSpread (e : Nat × Nat) : Nat := bits e.2 25 3

/-- Bisection by SEG_PAGE: every entry steers, whatever its V (R41). -/
def State.bisect (s : State) (page : Nat) : Nat → Nat → Nat → Nat
  | 0, lo, _ => lo
  | n + 1, lo, hi =>
    if hi - lo ≤ 1 then lo
    else
      let mid := (lo + hi) / 2
      if extPage (s.extWords mid) ≤ page then s.bisect page n mid hi else s.bisect page n lo mid

/-- The valid entry of a table that covers a page, if bisection finds one (R41). -/
def State.extentAt (s : State) (first count page : Nat) : Option (Nat × Nat) :=
  if count = 0 then none
  else
    let e := s.extWords (s.bisect page 17 first (first + count))
    if extV e && extPage e ≤ page && page < extPage e + extLen e then some e else none

/-- Frame key of page `i` of a run (R42). -/
def runFrame (stk pg spread i : Nat) : Nat := frameKey (stk + i % 2 ^ spread) (pg + i / 2 ^ spread)

/-- Frame key an entry gives a page. -/
def extFrame (e : Nat × Nat) (page : Nat) : Nat := runFrame (extFrameStk e) (extFramePg e) (extSpread e) (page - extPage e)

/-- Frame a table maps a page to now, present or not. -/
def State.mapped (s : State) (first count page : Nat) : Option Nat :=
  (s.extentAt first count page).map (fun e => extFrame e page)

/-- The present frame of a page of a local segment, read straight from its table. -/
def State.pageFrame (s : State) (c g page : Nat) : Option Nat :=
  let a := s.segAttr c g
  if F.XLT_SEG_ATTR_V.of a = 1 ∧ F.XLT_SEG_ATTR_REMOTE.of a = 0 then
    match s.extentAt (F.XLT_SEG_ATTR_EXT_INDEX.of a) (F.XLT_SEG_ATTR_EXT_COUNT.of a) page with
    | some e => if extNP e then none else some (extFrame e page)
    | none => none
  else none

/-- Frames of an entry's run, which has no page twice: the last frame per stack bounds the run (R43). -/
def extFrames (e : Nat × Nat) : List Nat := (List.range (extLen e)).map (fun i => runFrame (extFrameStk e) (extFramePg e) (extSpread e) i)

/-- A frame whose release bit is set (R328). -/
def State.released (s : State) (f : Nat) : Bool := smGet false s.pool.release f

/-- The checks of R43 for an extent write. -/
def State.extWriteOk (s : State) (e : Nat × Nat) : Bool :=
  extSpread e ≤ 4 && extFrameStk e % 2 ^ extSpread e == 0 && bits e.1 58 6 == 0 && bits e.2 28 36 == 0 &&
    (!extV e ||
      (extFramePg e + (extLen e - 1) / 2 ^ extSpread e < usableFrames &&
        (extFrames e).all (fun f => !s.frameReserved f && !s.released f)))

/-! ### Faults (R51 to R53) -/

/-- Fault identifier of an entry (Table 2-4). -/
def State.fid (s : State) (q e : Nat) : Nat := q * 2 ^ 14 + e * 2 ^ 7 + smGet 0 s.xlt.serials (q * 128 + e) % 128

/-- Slots of a record ring and the records it may still take (R53). -/
def ringFree (slots prod cons : Nat) : Nat := slots - (prod + 2 ^ 32 - cons) % 2 ^ 32

/-- The fault log takes no record now: it is full, or there is none (R53). -/
def State.logFull (s : State) : Bool :=
  ringFree (ringSlots (s.fld F.XLT_FLT_LOG_SIZE_LOG2N) 6 16) (s.fld F.XLT_FLT_PROD_PROD + s.tl.outFault.length) (s.fld F.XLT_FLT_CONS_CONS) == 0

/-! ### Buffers (R46, R47) -/

def TlbEntry.covers (t : TlbEntry) (c g page gen : Nat) : Bool :=
  t.ctx == c && t.seg == g && t.gen == gen && t.first ≤ page && page < t.first + t.count

def TlbEntry.frame (t : TlbEntry) (page : Nat) : Nat := runFrame t.frameStk t.framePg t.spread (page - t.first)

/-- Replaces the value under a key of an association list, putting it first. -/
def putFirst {α β : Type} [DecidableEq α] (l : List (α × β)) (k : α) (v : β) : List (α × β) :=
  (k, v) :: l.filter (fun e => e.1 ≠ k)

def assoc {α β : Type} [DecidableEq α] (l : List (α × β)) (k : α) (d : β) : β :=
  ((l.find? (fun e => e.1 = k)).map (·.2)).getD d

/-- Fills an engine's buffer: 64 entries, the least recently used replaced (R46). -/
def State.tlbFill (s : State) (eng : Engine) (t : TlbEntry) : State :=
  let es := assoc s.xlt.tlb eng []
  { s with xlt := { s.xlt with tlb := putFirst s.xlt.tlb eng ((t :: es.filter (· ≠ t)).take 64) } }

/-- The set of a block: a hash of context, segment and page bits 19:4 over 1,024 sets (R47; the hash is not given, log 7). -/
def L2Entry.set (e : L2Entry) : Nat := Config.l2Set e.run.ctx e.run.seg (e.block % 65536) % 1024

/-- Fills the second level of a quarter: a full set gives up one of its 16 entries (R47; which one is not given, log 7). -/
def State.l2Fill (s : State) (q : Nat) (e : L2Entry) : State :=
  let es := smGet [] s.xlt.l2 q
  let es := es.filter (fun x => x ≠ e)
  let es :=
    if es.length < 16 then es
    else
      let same := es.filter (fun x => x.set == e.set)
      if same.length < 16 then es else es.filter (fun x => some x ≠ same[Config.l2Way e.set % 16]?)
  { s with xlt := { s.xlt with l2 := smSet [] s.xlt.l2 q (e :: es) } }

/-- Translates a page for an engine of quarter `q` from the buffers (R46, R47): the frame on a hit. -/
def State.buffered (s : State) (eng : Engine) (q c g page : Nat) : Option Nat × State :=
  let gen := s.gen c
  match (assoc s.xlt.tlb eng []).find? (fun t => t.covers c g page gen) with
  | some t => (some (t.frame page), s.tlbFill eng t)
  | none =>
    match (smGet [] s.xlt.l2 q).find? (fun e => e.block == page / 16 && e.mask.testBit (page % 16) && e.run.covers c g page gen) with
    | some e => (some (e.run.frame page), s.tlbFill eng e.run)
    | none => (none, s)

/-- Drops every buffered translation that `p` names (R58 step 2, R83). -/
def State.invalidate (s : State) (p : Nat → Nat → Bool) : State :=
  { s with xlt := { s.xlt with
      tlb := s.xlt.tlb.map (fun e => (e.1, e.2.filter (fun t => !p t.ctx t.seg)))
      l2 := (s.xlt.l2.map (fun e => (e.1, e.2.filter (fun t => !p t.run.ctx t.run.seg)))).filter (fun e => e.2 ≠ []) } }

/-! ### Segment and binding writes (R36 to R38, R57) -/

/-- Two page ranges overlap. -/
def overlap (a n b m : Nat) : Bool := decide (a < b + m) && decide (b < a + n)

/-- The checks R37 makes of an attribute image that sets V = 1, apart from those of reserved bits. -/
def State.segSetOk (s : State) (c g attr : Nat) : Bool :=
  let len := s.segLen c g
  len ≠ 0 && s.segBase c g + len ≤ 2 ^ 40 &&
    (List.range 8).all (fun h => h == g || !s.segV c h ||
      (!overlap (s.segBase c g) len (s.segBase c h) (s.segLen c h) && !overlap (s.segHva c g) len (s.segHva c h) (s.segLen c h))) &&
    (F.XLT_SEG_ATTR_REMOTE.of attr == 1 ||
      (1 ≤ F.XLT_SEG_ATTR_EXT_COUNT.of attr && F.XLT_SEG_ATTR_EXT_COUNT.of attr ≤ 65536 &&
        F.XLT_SEG_ATTR_EXT_INDEX.of attr + F.XLT_SEG_ATTR_EXT_COUNT.of attr ≤ 16777216)) &&
    F.XLT_SEG_ATTR_PCLASS.of attr ≠ 3

/-- Reserved bits of `XLT_SEG_ATTR` (Table 2-18). -/
def attrReserved (v : Nat) : Bool := bits v 9 7 ≠ 0 || bits v 57 7 ≠ 0

/-- `v` with EXT_INDEX and EXT_COUNT cleared. -/
def attrNoTable (v : Nat) : Nat := setBits v 16 41 0

/-- `v` with R, W, X, C and STRICT cleared. -/
def attrNoPerm (v : Nat) : Nat := setBits (setBits v 1 4 0) 7 1 0

/-- A queued image is admissible for a revoke of type `typ` (R57). The bits of EXT_INDEX and EXT_COUNT may change whatever REMOTE reads: an
UNMAP or REMAP of a REMOTE segment may change HOME_EP and HOME_SEG (DESIGN CHOICE, log 133). -/
def State.imageOk (s : State) (c g typ new : Nat) : Bool :=
  let cur := s.segAttr c g
  if typ ≤ 1 then attrNoTable cur == attrNoTable new && !attrReserved new && s.segSetOk c g new
  else if typ = 2 then attrNoPerm cur == attrNoPerm new && !attrReserved new && s.segSetOk c g new
  else true

/-! ### Version regions (R78, R85, R86) -/

def State.rgnV (s : State) (r : Nat) : Bool := s.flag F.XLT_VER_RGN_ID_V 0 r
def State.rgnCtx (s : State) (r : Nat) : Nat := s.fld F.XLT_VER_RGN_ID_CTX 0 r
def State.rgnSeg (s : State) (r : Nat) : Nat := s.fld F.XLT_VER_RGN_ID_SEG 0 r
def State.rgnSh (s : State) (r : Nat) : Nat := s.fld F.XLT_VER_RGN_ID_SHSEG 0 r
def State.rgnFirst (s : State) (r : Nat) : Nat := s.fld F.XLT_VER_RGN_PG_FIRST_PG 0 r
def State.rgnPages (s : State) (r : Nat) : Nat := s.fld F.XLT_VER_RGN_PG_NPG_M1 0 r + 1
def State.region (s : State) (r : Nat) : RegionSt := smGet {} s.ver r
def State.setRegion (s : State) (r : Nat) (x : RegionSt) : State := { s with ver := smSet {} s.ver r x }

/-- The valid region a page of a segment lies in. -/
def State.regionOf (s : State) (c g page : Nat) : Option Nat :=
  (s.findRegs .XLT_VER_RGN_ID 0 (fun r _ v =>
    F.XLT_VER_RGN_ID_V.of v == 1 && F.XLT_VER_RGN_ID_CTX.of v == c && F.XLT_VER_RGN_ID_SEG.of v == g &&
      s.rgnFirst r ≤ page && page < s.rgnFirst r + s.rgnPages r)).map (·.1)

/-- Segment and page that hold region page `p` under a remap list: the shadow page it names, or the region's own page (R82). -/
def State.versionPage (s : State) (r : Nat) (remap : List (Nat × Nat)) (p : Nat) : Nat × Nat :=
  match remap.find? (fun e => e.1 == p) with
  | some e => (s.rgnSh r, e.2)
  | none => (s.rgnSeg r, s.rgnFirst r + p)

/-- Remap list of the current version. -/
def RegionSt.curRemap (x : RegionSt) : List (Nat × Nat) := (x.slots.getD x.curSlot {}).remap

end Sys2Proof.Machine
end

