-- ==== Sys2Proof/Machine/Requests.lean ====
section
/-!
DEFINITION. Requests and their pieces as data: finding and changing them, splitting at page boundaries, folding line outcomes into
sectors, and the outcome block of a request (R34, R72 to R74); the effect of one line read or write on pool memory (R155 to
R160, R169, R170).
-/
namespace Sys2Proof.Machine
open Sys2Proof

def State.setOrd (s : State) (o : Ord) : State := { s with ord := o }
def State.req (s : State) (id : Nat) : Option Req := s.ord.reqs.find? (fun r => r.id == id)
def State.updReq (s : State) (id : Nat) (f : Req → Req) : State :=
  s.setOrd { s.ord with reqs := s.ord.reqs.map (fun r => if r.id = id then f r else r) }
def Req.updPiece (r : Req) (n : Nat) (f : Piece → Piece) : Req :=
  match r.pieces[n]? with
  | some p => { r with pieces := setAt r.pieces n (f p) }
  | none => r
def State.updPiece (s : State) (id n : Nat) (f : Piece → Piece) : State := s.updReq id (fun r => r.updPiece n f)
def State.piece (s : State) (id n : Nat) : Option Piece := (s.req id).bind (fun r => r.pieces[n]?)

/-- Not started yet (R34 step 5). -/
def Piece.unstarted (p : Piece) : Bool :=
  match p.state with
  | .waiting => true
  | .missed => true
  | .held _ _ => true
  | _ => false

def Piece.isHeld (p : Piece) : Bool :=
  match p.state with
  | .held _ _ => true
  | _ => false

/-- Ends a piece that was not started. -/
def Piece.fail (p : Piece) (st : Status) : Piece := { p with state := .done, status := st, rvk := false }

/-- The quarter of an engine. -/
def Engine.quarter : Engine → Nat
  | .port p => arrQuarter p
  | .station q _ => q
  | .mover q _ => q
  | .loom _ => 0

/-- Requester port of an engine at a stack (Table 5-2). -/
def Engine.stackPort (e : Engine) (x : Nat) : Nat :=
  match e with
  | .port _ => 2
  | .station q _ => if q = stackQuarter x then 0 else 1
  | .mover _ _ => 3
  | .loom _ => 1

/-- Access kind of a request (R40, R80). -/
def ReqKind.kind : ReqKind → Kind
  | .write => .write
  | .vwrite => .write
  | .fetch => .fetch
  | .rdShared => .own
  | .rdOwn => .own
  | .upgrade => .own
  | _ => .read

def ReqKind.isWrite (k : ReqKind) : Bool := k == .write || k == .vwrite
def ReqKind.isRead (k : ReqKind) : Bool := k == .read || k == .vread || k == .fetch
def ReqKind.isCaching (k : ReqKind) : Bool := k == .rdShared || k == .rdOwn || k == .upgrade

/-- Pieces of `len` bytes whose first byte lies at `addr`: offset in the request, address and length, split at page
boundaries (R34). -/
def splitPages : Nat → Nat → Nat → Nat → List (Nat × Nat × Nat)
  | 0, _, _, _ => []
  | n + 1, off, addr, len =>
    if len = 0 then []
    else
      let k := min len (65536 - addr % 65536)
      (off, addr, k) :: splitPages n (off + k) (addr + k) (len - k)

/-- Number of pages a request can touch. -/
def pageCount (len : Nat) : Nat := len / 65536 + 2

/-! ### Outcomes (R72 to R74) -/

/-- Rank of a piece status (Table 3-3). -/
def statusRank : Status → Nat
  | .ok => 1 | .busy => 2 | .poison => 3 | .faultTimeout => 4 | .revoked => 5 | .accessDenied => 6 | .noRoute => 7
  | .linkLost => 8 | _ => 0

def worseOf (a b : Status) : Status := if statusRank a < statusRank b then b else a

/-- Sectors that bytes `off .. off + len − 1` of a request touch. -/
def sectorsOf (off len : Nat) : List Nat :=
  if len = 0 then [] else (List.range ((off + len - 1) / 64 - off / 64 + 1)).map (· + off / 64)

/-- Failed sectors a piece contributes: every one of its sectors when it failed without being started. -/
def Piece.failures (p : Piece) (base : Nat) : List Nat :=
  if p.status ≠ .ok ∧ p.failed.isEmpty then sectorsOf (base + p.off) p.len else p.failed

/-- Adds numbers to an ascending list without repeats. -/
def insertSorted (n : Nat) : List Nat → List Nat
  | [] => [n]
  | x :: xs => if n < x then n :: x :: xs else if n = x then x :: xs else x :: insertSorted n xs

def Req.failures (r : Req) : List Nat := r.pieces.foldl (fun a p => (p.failures r.base).foldl (fun a n => insertSorted n a) a) []

def Req.worst (r : Req) : Status := r.pieces.foldl (fun a p => worseOf a p.status) .ok

/-- Every piece is folded, or the outcome is fixed. -/
def Req.complete (r : Req) : Bool :=
  r.fixed.isSome || (!r.pieces.isEmpty && r.pieces.all (fun p => p.state == .done))

/-- Outcome block of sectors failed and the worst piece status (R73). -/
def outcomeOf (tag ch len : Nat) (failed : List Nat) (worst : Status) : Outcome16 :=
  let n := (len + 63) / 64
  let st : Status := if failed.isEmpty then .ok else if failed.length < n then .partialFail else worst
  if len ≤ 4096 then ⟨tag, ch, false, st, worst, true, 0, failed.foldl (fun m i => m ||| 2 ^ i) 0⟩
  else ⟨tag, ch, false, st, worst, false, failed.headD 0, 0⟩

/-- The outcome block of a complete request (R72, R73, R75). -/
def Req.outcome (r : Req) : Outcome16 :=
  match r.fixed with
  | some st =>
    if r.kind.isWrite || r.kind.isRead || r.kind.isCaching || r.kind == .hint then
      { plainOutcome r.tag r.chan.ch st r.len with abt := r.abt }
    else ⟨r.tag, r.chan.ch, r.abt, st, if st = .conflict then .ok else st, false, r.info, r.result⟩
  | none => outcomeOf r.tag r.chan.ch r.len r.failures r.worst

/-! ### Lines of a piece -/

/-- The line accesses of bytes `byte .. byte + len − 1` of a page: line, offset in the line, length, offset in the piece. -/
def linesOf : Nat → Nat → Nat → Nat → List (Nat × Nat × Nat × Nat)
  | 0, _, _, _ => []
  | n + 1, byte, len, at_ =>
    if len = 0 then []
    else
      let k := min len (64 - byte % 64)
      (byte / 64, byte % 64, k, at_) :: linesOf n (byte + k) (len - k) (at_ + k)

/-- Offset in the request of the first byte of a line access. -/
def Piece.reqOff (p : Piece) (l : LineReq) : Nat := p.off + (l.line * 64 + l.off - p.inPage)

/-- Ends one line of a piece; the last one leaves it served. -/
def State.lineDone (s : State) (l : LineReq) (failed : Option Status) : State :=
  let base := ((s.req l.req).map (·.base)).getD 0
  s.updPiece l.req l.piece (fun p =>
    let p := match failed with
      | some st => { p with status := worseOf p.status st,
                            failed := (sectorsOf (base + p.reqOff l) l.len).foldl (fun a n => insertSorted n a) p.failed }
      | none => p
    { p with todo := p.todo - 1, state := if p.todo ≤ 1 then .served else p.state })

/-- Delivers a line to a read: its bytes, or zero data marked as poison (R73). -/
def State.lineRead (s : State) (l : LineReq) (bytes : List (BitVec 8)) (poison : Bool) : State :=
  if poison then (s.count F.STK_UE_CNT_PRD 1 (keyStack l.frame)).lineDone l (some .poison)
  else
    match s.piece l.req l.piece with
    | none => s
    | some p =>
      let o := p.reqOff l
      (s.updReq l.req (fun r => { r with data := r.data.take o ++ sliceBytes bytes l.off l.len ++ r.data.drop (o + l.len) })).lineDone l none

/-! ### Fold buffers (R159, R160) -/

/-- The fold slot of a frame. -/
def State.foldOf (s : State) (frame : Nat) : Option Fold := (s.stk (keyStack frame)).folds.find? (fun f => f.frame == frame)

/-- Bank-group pair of a frame (R159). -/
def foldPair (frame : Nat) : Nat := keyPage frame % 4 ^^^ keyPage frame / 16 % 4

/-- The lines of a page with the lines of a slot in their places: what a flush writes. The lines the slot does not hold are read through the layers of
R144 (R160). -/
def State.foldPage (s : State) (f : Fold) : List (Nat × List (BitVec 8) × Nat) × State :=
  let ls := (List.range 1024).filter (fun l => f.lines.any (fun e => e.1 == l))
  let absent := (s.linesIn f.frame).filter (fun l => !ls.contains l)
  let all := (List.range 1024).filter (fun l => ls.contains l || absent.contains l)
  all.foldl (fun a l =>
    let s := a.2
    let r := match s.slotWord f.frame l with
      | some w => s.readSlot f.frame l 3 w
      | none => s.readStored f.frame l 3
    let tag := if r.poison then 1 else if ls.contains l then ((s.slotWord f.frame l).bind gotOf).elim 0 (·.tag) else (s.yields f.frame l).elim 0 (·.1.tag)
    (a.1 ++ [(l, r.bytes, tag)], r.state)) ([], s)

/-- Closes the slot of a frame. -/
def State.dropFold (s : State) (frame : Nat) : State :=
  let x := keyStack frame
  let k := s.stk x
  s.setStk x { k with folds := k.folds.filter (fun f => f.frame ≠ frame) }

/-- A completing flush: the slot's lines and what the page holds besides are written as a full-page streaming write, and the slot frees (R160, Table
6-4). A page written whole feeds the check-value unit of its stack. -/
def State.flushFold (s : State) (frame : Nat) : State :=
  match s.foldOf frame with
  | none => s
  | some f =>
    let (page, s) := s.foldPage f
    let s := if f.lines.length = 1024 then
        s.chkFeed { kind := 3, idx := keyStack frame, ctx := f.ctx, poison := page.any (fun l => l.2.2 % 2 == 1) } (page.flatMap (·.2.1))
      else s
    (s.dropFold frame).stream frame page

/-- An append or a write to an open slot: the slot holds the line (R159). A full slot is written out whole; an append that needs a slot in a full pair, or
in a stack with 1,024 open pages, flushes the least recently written of the pair (R160). -/
def State.foldLine (s : State) (frame line : Nat) (w : List (BitVec 8)) (ctx : Option Nat) : State :=
  let x := keyStack frame
  let k := s.stk x
  match k.folds.find? (fun f => f.frame == frame) with
  | some f =>
    let f' := { f with lines := smInsert (smErase f.lines line) line w, lastWr := s.now }
    let s := s.setStk x { k with folds := k.folds.map (fun g => if g.frame = frame then f' else g) }
    if f'.lines.length = 1024 then s.flushFold frame else s
  | none =>
    let pair := k.folds.filter (fun f => foldPair f.frame == foldPair frame)
    let s := if pair.length < 256 then s
      else match pair.foldl (fun (a : Option Fold) f => match a with
          | none => some f
          | some g => if f.lastWr < g.lastWr then some f else some g) none with
        | some v => s.flushFold v.frame
        | none => s
    let k := s.stk x
    s.setStk x { k with folds := k.folds ++ [⟨frame, [(line, w)], s.now, s.now, ctx⟩] }

/-! ### Writing a line (R147, R153, R155 to R159, R169, R170) -/

/-- Migration slots of the device: stack, slot number, slot, with their STATE. -/
def State.migSlots (s : State) : List (Nat × Nat × MigSlot × Nat) :=
  s.stks.flatMap (fun e => (e.2.mig.zipIdx).map (fun m => (e.1, m.2, m.1, s.fld F.STK_MIG_STAT_STATE e.1 m.2)))

/-- Destination frames that a write to a source frame also goes to: slots in state 2 or 3, or state 1 for a line already copied;
the model copies at the end of state 1, so a write in state 1 reaches the copy through the source (R141). -/
def State.dualTargets (s : State) (frame : Nat) : List Nat :=
  (s.migSlots.filter (fun m => 2 ≤ m.2.2.2 && m.2.2.1.src == frame)).map (fun m => m.2.2.1.dst)

/-- A line written whole: into the open slot of its page, as an append that opens one, or in place under its frame's protection (R157 to R159, R163). -/
def State.lineWrite (s : State) (frame line : Nat) (data : List (BitVec 8)) (tag : Nat) (fold strict : Bool) (ctx : Option Nat := none) : State :=
  if s.reach frame = .direct ∧ ((fold ∧ s.fld F.STK_ECC_CTL_FOLD_MS (keyStack frame) ≠ 0) ∨ (s.foldOf frame).isSome) then
    s.foldLine frame line (codeWord data tag) ctx
  else s.protWrite frame line data tag strict

/-- The write reaches the copies that a migration keeps of the frame, whose lines stay marked as copied (R141). -/
def State.lineWriteAll (s : State) (frame line : Nat) (data : List (BitVec 8)) (tag : Nat) (fold strict : Bool) (ctx : Option Nat := none) : State :=
  (s.dualTargets frame).foldl (fun s f => s.lineWrite f line data (tag + 4 * bits (s.tag f line).toNat 2 1) false strict)
    (s.lineWrite frame line data tag fold strict ctx)

/-- The last line of a page that is written whole has landed: its page code is current and its page-state list exact (R151, R157, Table 6-4). -/
def State.pageWritten (s : State) (frame : Nat) : State :=
  let one (s : State) (f : Nat) : State :=
    if s.reach f ≠ .direct then s
    else if s.codeDirty f then s.streamFrame f (s.pageLines f)
    else s.setPageState f (listPoison 0 (((s.pageLines f).filter (fun l => l.2.2 % 2 == 1)).map (·.1)))
  if (s.foldOf frame).isSome then s else ([frame] ++ (s.companion frame).toList).foldl one s

/-- Writes bytes into one line: the status of its sector, and the new state. The write of a mover's lost source leaves poison (R94). -/
def State.writeLine (s : State) (l : LineReq) : Status × State :=
  let ctx := if l.src = .piece then (s.req l.req).map (·.chan.ctx) else none
  let strict := l.strict || l.whole
  match s.reach l.frame with
  | .lost => (.poison, s)
  | _ =>
    let last := l.whole && (s.piece l.req l.piece).any (fun p => p.todo ≤ 1)
    let done (r : Status × State) : Status × State := if last then (r.1, r.2.pageWritten l.frame) else r
    if l.poison then done (.ok, s.lineWriteAll l.frame l.line zeroLine 1 l.fold true ctx)
    else if l.len = 64 then done (.ok, s.lineWriteAll l.frame l.line l.bytes 0 l.fold strict ctx)
    else
      let put (s : State) (b : List (BitVec 8)) : Status × State :=
        (.ok, s.lineWriteAll l.frame l.line (b.take l.off ++ l.bytes ++ b.drop (l.off + l.len)) 0 l.fold strict ctx)
      match l.under with
      | some d => put s d
      | none =>
        let r := s.readLine l.frame l.line 0
        if r.poison then (.poison, r.state) else put r.state r.bytes

/-- Whether a write must wait so that the writes of its channel take effect in issue order (R65): an earlier write request of its
channel still has lines to serve. -/
def State.writeWaits (s : State) (l : LineReq) : Bool :=
  l.wr && l.src == .piece && match s.req l.req with
    | some r => s.ord.reqs.any (fun x => x.chan == r.chan && x.id < r.id && x.kind.isWrite && x.fixed.isNone &&
        x.pieces.any (fun p => p.state ≠ .served && p.state ≠ .done))
    | none => false

/-- Hands a line access to its stack controller (R118). -/
def State.toStack (s : State) (l : LineReq) : State :=
  let x := keyStack l.frame
  let k := s.stk x
  s.setStk x { k with coming := smSet [] k.coming l.port (smGet [] k.coming l.port ++ [l]) }

/-- A read or write of one line by the directory (port 5, R121). -/
def dirLine (line : Nat) (src : LineFor) (wr : Bool) (bytes : List (BitVec 8)) (poison : Bool := false) : LineReq :=
  { req := 0, piece := 0, port := 5, frame := line / 1024, line := line % 1024, wr := wr, off := 0, len := 64, bytes := bytes, poison := poison, src := src }

/-- A write by the directory of data an owner returned (R415, R106, R107). -/
def State.writeBack (s : State) (line : Nat) (bytes : List (BitVec 8)) : State :=
  s.toStack (dirLine line .back true (sliceBytes bytes 0 64))

/-- A write by the directory of poison (R113). -/
def State.poisonBack (s : State) (line : Nat) : State := s.toStack (dirLine line .back true zeroLine true)

/-- The line accesses that wait in a stack controller or on their way to it. -/
def Stk.waiting (k : Stk) : List LineReq := (k.coming ++ k.bufs ++ k.queues).flatMap (·.2)

/-- The accesses of a line that its stack controller has not served yet. -/
def State.atStack (s : State) (line : Nat) : List LineReq :=
  (s.stk (keyStack (line / 1024))).waiting.filter (fun l => lineKey l.frame l.line == line)

end Sys2Proof.Machine
end

