-- ==== Sys2Proof/Machine/Directory.lean ====
section
/-!
DEFINITION. The coherence directory: agents, line identities, messages, grants, snoops, stashes, recalls, broadcasts, dead agents
and reclaim (R98 to R116, R415). A line is named by its line key; its home slice is the quarter of its stack.
-/
namespace Sys2Proof.Machine
open Sys2Proof

def State.setCoh (s : State) (c : Coh) : State := { s with coh := c }

/-! ### Agents and lines -/

/-- This device's slot and its peers (Table 4-6). -/
def State.slot (s : State) : Nat := s.fld F.COH_CTL_SLOT
def State.peers (s : State) : List Nat := (List.range 8).filter (fun n => n != s.slot && (s.fld F.COH_CTL_PEERS).testBit n)

def State.agentV (s : State) (i : Nat) : Bool := s.flag F.COH_AGENT_V 0 i
def State.agentDead (s : State) (i : Nat) : Bool := s.flag F.COH_AGENT_DEAD 0 i
def State.agentLive (s : State) (i : Nat) : Bool := s.agentV i && !s.agentDead i
def State.agentLocal (s : State) (i : Nat) : Bool := i / 64 == s.slot

/-- Live agents of this device, in index order. -/
def State.localAgents (s : State) : List Nat :=
  (List.range 64).map (· + s.slot * 64) |>.filter s.agentLive

def lineFrame (line : Nat) : Nat := line / 1024
def lineIndex (line : Nat) : Nat := line % 1024
def lineQuarter (line : Nat) : Nat := stackQuarter (keyStack (lineFrame line))

/-- The line identity of a line homed here (R104). -/
def State.lid (s : State) (line : Nat) : Nat :=
  keyStack (lineFrame line) + keyPage (lineFrame line) * 2 ^ 4 + lineIndex line * 2 ^ 25 + s.slot * 2 ^ 35 + 2 ^ 62

/-- The line a line identity names. -/
def lidLine (a : Nat) : Nat := lineKey (frameKey (bits a 0 4) (bits a 4 21)) (bits a 25 10)

end Sys2Proof.Machine

namespace Sys2Proof
open Sys2Proof.Machine

/-- Fields of header word 3 (Table 10-7). -/
def Packet.agent (k : Packet) : Nat := bits k.w3.toNat 0 9
def Packet.gtag (k : Packet) : Nat := bits k.w3.toNat 10 8
def Packet.evs (k : Packet) : Bool := k.w3.toNat.testBit 18
def Packet.lineOf (k : Packet) : Nat := lidLine k.addr.toNat

end Sys2Proof

namespace Sys2Proof.Machine
open Sys2Proof

/-- The directory entry of a line; none is state I. -/
def State.dirEntry (s : State) (line : Nat) : Option DirEntry := smGet none s.coh.dir line
def State.setDir (s : State) (line : Nat) (e : Option DirEntry) : State :=
  s.setCoh { s.coh with dir := smSet none s.coh.dir line e, clock := s.coh.clock + 1 }

/-- The endpoint this device's BInv and Dead carry as their source; the model gives it every VC2 and VC3 message (R117, log 33). -/
def State.ownEp (s : State) : Nat := s.fld F.COH_PEER_EP_EP 0 s.slot

/-! ### Messages (R104, R416, R295) -/

/-- Sends a VC2 or VC3 message, by a local agent's port or by its DST_EP; while a flip drains it is held (R295). -/
def State.sendCoh (s : State) (port : Option Nat) (k : Packet) : State :=
  let k := { k with epoch := s.epoch }
  if s.flag F.HUB_RT_STAT_LOCK then
    { s with hub := { s.hub with heldCoh := s.hub.heldCoh ++ [(port.getD 15, 504 + k.vc.toNat, k)] } }
  else match port with
    | some p => s.enqueue p (504 + k.vc.toNat) k
    | none => (s.originate none k).2

/-- A message from the home to agent `i`: `code` as Table 4-2. -/
def State.toAgent (s : State) (i code line gtag : Nat) (go : Bool := false) (tag : BitVec 16 := 0) (ch : BitVec 3 := 0)
    (data : List (BitVec 8) := []) (poison : Bool := false) : State :=
  let k : Packet :=
    { dst := BitVec.ofNat 20 (s.fld F.COH_AGENT_EP 0 i), src := BitVec.ofNat 20 s.ownEp, typ := BitVec.ofNat 8 (0x40 + code),
      vc := 2, addr := BitVec.ofNat 64 (s.lid line), tag := tag, ch := ch,
      w3 := BitVec.ofNat 64 (i + gtag * 2 ^ 10 + (if go then 2 ^ 22 else 0) + (if poison then 2 ^ 32 else 0)) }
  let k := k.withPayload data
  if s.agentLocal i then s.sendCoh (some (s.fld F.COH_AGENT_PORT 0 i)) k else s.sendCoh none k

/-- A message to the device in slot `n`: BInv (0x10) or Dead (0x12). -/
def State.toPeer (s : State) (n code : Nat) (addr agent : Nat) : State :=
  s.sendCoh none
    { dst := BitVec.ofNat 20 (s.fld F.COH_PEER_EP_EP 0 n), src := BitVec.ofNat 20 s.ownEp, typ := BitVec.ofNat 8 (0x40 + code),
      vc := 2, addr := BitVec.ofNat 64 addr, w3 := BitVec.ofNat 64 agent }

/-- The line's next grant tag, counted (R101). -/
def State.nextGtag (s : State) (line : Nat) : Nat × State :=
  let n := smGet 0 s.coh.grants line + 1
  (((Config.gtag0 line).toNat + n) % 256, s.setCoh { s.coh with grants := smSet 0 s.coh.grants line n })

/-! ### Poison list (R113, R114) -/

/-- Writes an owned line's memory as poison for an owner of context `c` that is dead, or whose slice lost it, and records it (R113, R116). POISONED counts the lines of the agent declared last (Table 4-10). -/
def State.reclaimFor (s : State) (line agent c : Nat) : State :=
  let f := lineFrame line
  let s := s.poisonBack line
  let s := if s.fld F.COH_RCL_STAT_AGENT = agent then s.count F.COH_RCL_STAT_POISONED else s
  let q := lineQuarter line
  let s := s.setCoh { s.coh with sweeps := s.coh.sweeps.map (fun (x : Sweep) => if x.q = q ∧ x.agent = agent then { x with lines := x.lines + 1 } else x) }
  let w := keyStack f + keyPage f * 2 ^ 4 + lineIndex line * 2 ^ 25 + agent * 2 ^ 35 + c * 2 ^ 44
  if s.coh.plist.length < 4096 then s.setCoh { s.coh with plist := s.coh.plist ++ [w] }
  else s.setFld F.COH_RCL_STAT_OVF 1

def State.reclaimLine (s : State) (line agent : Nat) : State := s.reclaimFor line agent (s.fld F.COH_AGENT_CTX 0 agent)

/-! ### Transactions -/

def State.txn (s : State) (line : Nat) : Option Txn := s.coh.txns.find? (fun t => t.line == line)
def State.updTxn (s : State) (line : Nat) (f : Txn → Txn) : State :=
  s.setCoh { s.coh with txns := s.coh.txns.map (fun t => if t.line = line then f t else t) }
def State.openTxn (s : State) (t : Txn) : State := s.setCoh { s.coh with txns := s.coh.txns ++ [t] }
def State.endTxn (s : State) (line : Nat) : State :=
  s.setCoh { s.coh with txns := s.coh.txns.filter (fun t => t.line ≠ line) }

/-- Snoops one agent: SnpInv, or SnpRd when `inv` is false. -/
def State.snoop (s : State) (line : Nat) (p : Nat × Nat) (inv : Bool) : State := s.toAgent p.1 (if inv then 8 else 9) line p.2

/-- Starts a broadcast invalidation: the snoops and awaited BAcks, agent `keep` left alone (R102). -/
def State.broadcast (s : State) (line : Nat) (keep : Option Nat) : List Snoop × List (Nat × Nat) × State :=
  let as := s.localAgents.filter (fun i => some i ≠ keep)
  let ps := s.peers
  let s := s.count F.COH_CNT_BCAST 1 (lineQuarter line)
  let s := as.foldl (fun s i => s.snoop line (i, 0) true) s
  let s := ps.foldl (fun s n => s.toPeer n 0x10 (s.lid line) 0) s
  (as.map (fun i => ⟨i, 0, s.now, false⟩), ps.map (fun n => (n, s.now)), s)

/-- Starts the invalidation of every copy an entry tracks but the one of `keep` (R106, R102). -/
def State.invalidateCopies (s : State) (line : Nat) (e : DirEntry) (keep : Option Nat) : List Snoop × List (Nat × Nat) × State :=
  match e.state with
  | .broad => s.broadcast line keep
  | _ =>
    let ps := e.ptrs.filter (fun p => some p.1 ≠ keep)
    let s := ps.foldl (fun s p => s.snoop line p true) s
    (ps.map (fun p => ⟨p.1, p.2, s.now, false⟩), [], s)

/-- A pointer of a line is a dead agent's: the agent is dead, or a sweep that still runs found the pointer when the agent was declared dead
(R113). -/
def State.deadPtr (s : State) (line : Nat) (p : Nat × Nat) : Bool :=
  s.agentDead p.1 || s.coh.sweeps.any (fun x => x.agent == p.1 && x.held.contains (line, p.2))

/-- An owner or pointer that is dead gives up its place at once; a dead owner's line is poisoned (R113). -/
def State.dropDead (s : State) (line : Nat) : State :=
  match s.dirEntry line with
  | none => s
  | some e =>
    match e.state with
    | .owned =>
      match e.ptrs.head? with
      | some p => if s.deadPtr line p then (s.reclaimLine line p.1).setDir line none else s
      | none => s
    | .shared =>
      let ps := e.ptrs.filter (fun p => !s.deadPtr line p)
      if ps.length = e.ptrs.length then s
      else s.setDir line (if ps.isEmpty then none else some { e with ptrs := ps })
    | .broad => s

/-- Starts a recall of a line, for the new entry of line `room` when it makes room for one (R103). -/
def State.recall (s : State) (line : Nat) (room : Option Nat := none) : State :=
  let s := s.dropDead line
  match s.dirEntry line with
  | none => s
  | some e =>
    let (sn, bk, s) := s.invalidateCopies line e none
    s.openTxn { line := line, why := .recall, snoops := sn, backs := bk, room := room }

/-- The transactions open in a quarter's slice (R103). -/
def State.trackers (s : State) (q : Nat) : Nat := (s.coh.txns.filter (fun t => lineQuarter t.line == q)).length

/-- The set of a line in its slice: one of 16,384, by a hash that is not given (R101, log 9). -/
def dirSet (line : Nat) : Nat := Config.dirSet line % 16384

/-- The lines that hold a way in a slice: those with an entry, and those in I whose grant waits for memory or whose Stash waits for its answer (R101,
R106). -/
def State.ways (s : State) (q : Nat) : List Nat :=
  (s.coh.dir.filter (fun e => lineQuarter e.1 == q)).map (·.1) ++
    (s.coh.txns.filter (fun t => lineQuarter t.line == q && (t.stash.isSome || t.reading) && (s.dirEntry t.line).isNone)).map (·.line)

/-- Makes room for an entry of a new line: true when the set has room, or when the slice's tracking of it needs none; otherwise
the least recently used entry that is not Busy is recalled, once (R101, R103). -/
def State.roomFor (s : State) (line : Nat) : Bool × State :=
  let q := lineQuarter line
  if (s.dirEntry line).isSome || (s.ways q).length < 16 then (true, s)
  else
    let same := (s.ways q).filter (fun l => dirSet l == dirSet line)
    if same.length < 16 then (true, s)
    else if s.coh.txns.any (fun t => t.room == some line) || 1024 ≤ s.trackers q then (false, s)
    else
      let idle := s.coh.dir.filter (fun e => same.contains e.1 && (s.txn e.1).isNone)
      match idle.foldl (fun (a : Option (Nat × Nat)) e =>
          match e.2, a with
          | some d, some b => if d.used < b.2 then some (e.1, d.used) else a
          | some d, none => some (e.1, d.used)
          | none, _ => a) none with
      | some v => (false, (s.count F.COH_CNT_DIR_EVICT 1 q).recall v.1 (some line))
      | none => (false, s)

/-- The requester of a caching request: its agent index. -/
def State.reqAgent (s : State) (id : Nat) : Nat := ((s.req id).map (·.vh)).getD 0

/-- The directory reads the memory line of its transaction `t`, which stays open until the stack has served the read (R121, R415). -/
def State.readFor (s : State) (t : Txn) : State :=
  ((s.endTxn t.line).openTxn { t with snoops := [], backs := [], reading := true }).toStack (dirLine t.line .grant false [])

/-- Grants a line to a caching request: the entry takes the requester in O, or as one more sharer; the data, where it carries any, has the poison
tag when the line is poison, and the request then completes POISON (R415, R101, R113). The request of an agent that is dead by now completes
ACCESS_DENIED, and data an owner returned for it (`dirty`) is written to memory (R112). -/
def State.grant (s : State) (line id : Nat) (owned : Bool) (data : Option (List (BitVec 8) × Bool)) (dirty : Bool := false) : State :=
  match s.req id with
  | none => s
  | some r =>
    let a := r.vh
    if !s.agentLive a then
      let s := match data with
        | some d => if dirty then s.writeBack line d.1 else s
        | none => s
      s.updPiece id 0 (fun p => p.fail .accessDenied)
    else
    let (g, s) := s.nextGtag line
    let bad := data.any (·.2)
    let old := s.dirEntry line
    let e : DirEntry :=
      if owned then ⟨.owned, [(a, g)], s.coh.clock⟩
      else match old with
        | some e =>
          if e.state = .broad then { e with used := s.coh.clock }
          else
            let ps := e.ptrs.filter (fun p => p.1 ≠ a)
            if ps.length < 4 then ⟨.shared, ps ++ [(a, g)], s.coh.clock⟩ else ⟨.broad, [], s.coh.clock⟩
        | none => ⟨.shared, [(a, g)], s.coh.clock⟩
    let s := s.setDir line (some e)
    let s := s.toAgent a 6 line g owned (BitVec.ofNat 16 r.tag) (BitVec.ofNat 3 r.chan.ch) ((data.map (·.1)).getD []) bad
    s.updPiece id 0 (fun p => { p with state := .done, status := if bad then .poison else .ok, failed := if bad then [0] else [] })

/-- A valid stash target (R106): a live local agent with STASH = 1, in confidential mode not one of a TL port (R343). -/
def State.stashTo (s : State) (t : Option Nat) : Option Nat :=
  t.filter (fun i => s.agentLocal i && s.agentLive i && s.flag F.COH_AGENT_STASH 0 i &&
    !(s.flag F.SEC_STAT_CONF && 12 ≤ s.fld F.COH_AGENT_PORT 0 i))

/-- Sends the Stash of a full line and waits for its answer (R106 step 3). -/
def State.sendStash (s : State) (line : Nat) (why : TxnWhy) (target : Nat) (bytes : List (BitVec 8)) : State :=
  let (g, s) := s.nextGtag line
  let s := s.toAgent target 0xA line g true 0 0 bytes
  (s.endTxn line).openTxn { line := line, why := why, stash := some (target, s.now), data := some bytes,
                            snoops := [], backs := [] }

/-- Bytes of a write over the line under it. -/
def LineReq.merged (l : LineReq) (b : List (BitVec 8)) : List (BitVec 8) := b.take l.off ++ l.bytes ++ b.drop (l.off + l.len)

/-- A write once no other copy is left: the Stash, or the write of memory. A narrow Stash takes the line under it from its owner, or reads it; it ends
POISON where that line is poison (R106, R107, R170). -/
def State.writePhase (s : State) (line : Nat) (l : LineReq) (target : Option Nat) (data : Option (List (BitVec 8)))
    (got : Option (List (BitVec 8) × Bool) := none) : State :=
  match s.stashTo target with
  | some t =>
    if l.len = 64 then s.sendStash line (.engWrite l target) t l.bytes
    else match data, got with
      | some d, _ => s.sendStash line (.engWrite l target) t (l.merged (sliceBytes d 0 64))
      | none, some (b, false) => s.sendStash line (.engWrite l target) t (l.merged b)
      | none, some (_, true) =>
        -- the target keeps the copy it shares
        let left : Option DirEntry := (s.dirEntry line).bind (fun e => match e.state with
          | .broad => some e
          | .shared => let ps := e.ptrs.filter (fun p => p.1 == t); if ps.isEmpty then none else some { e with ptrs := ps }
          | .owned => none)
        ((s.endTxn line).setDir line left).lineDone l (some .poison)
      | none, none => s.readFor { line := line, why := .engWrite l target }
  | none => ((s.endTxn line).setDir line none).toStack { l with under := data.map (fun d => sliceBytes d 0 64) }

/-- A caching request from the agent that owns the line: the agent is treated as one that failed to answer a snoop, and the request
completes as one of a dead agent (R415, R112). -/
def State.condemn (s : State) (id : Nat) : State :=
  let s := s.updPiece id 0 (fun p => p.fail .accessDenied)
  s.setCoh { s.coh with condemned := s.coh.condemned ++ [s.reqAgent id] }

/-- The request of a caching access. -/
def TxnWhy.caching : TxnWhy → Option Nat
  | .rdShared id => some id
  | .rdOwn id => some id
  | .upgrade id => some id
  | _ => none

/-- Opens one access to a line that has no open transaction, whatever the tracker holds. `none` when it must wait for an entry (R103, R105,
R415, R106, R107). An Upgrade of a line in B finds no pointer to its requester and is served as RdOwn (DESIGN CHOICE, log 139). -/
def State.openLine (s : State) (line : Nat) (why : TxnWhy) : Option State :=
  let s := s.dropDead line
  let e := s.dirEntry line
  match why with
  | .recall => some (s.recall line)
  | .engRead l =>
    match e with
    | some ⟨.owned, p :: _, _⟩ =>
      some ((s.snoop line p false).openTxn { line := line, why := why, snoops := [⟨p.1, p.2, s.now, false⟩] })
    | _ => some (s.toStack l)
  | .engWrite l target =>
    let t := s.stashTo target
    match e with
    | none =>
      if t.isNone then some (s.writePhase line l target none)
      else match s.roomFor line with
        | (true, s) => some (s.writePhase line l target none)
        | (false, _) => none
    | some d =>
      if d.state = .owned ∧ d.ptrs.head?.map (·.1) = t ∧ t.isSome then
        match d.ptrs.head? with
        | some p =>
          if l.len = 64 then some (s.writePhase line l target none)
          else some ((s.snoop line p false).openTxn { line := line, why := why, snoops := [⟨p.1, p.2, s.now, false⟩] })
        | none => some (s.writePhase line l target none)
      else
        let (sn, bk, s) := s.invalidateCopies line d t
        if sn.isEmpty && bk.isEmpty then some (s.writePhase line l target none)
        else some (s.openTxn { line := line, why := why, snoops := sn, backs := bk })
  | .rdShared id =>
    match e with
    | some ⟨.owned, p :: _, _⟩ =>
      if p.1 = s.reqAgent id then some (s.condemn id)
      else some ((s.snoop line p true).openTxn { line := line, why := why, snoops := [⟨p.1, p.2, s.now, false⟩] })
    | some _ => some (s.readFor { line := line, why := why })
    | none =>
      match s.roomFor line with
      | (true, s) => some (s.readFor { line := line, why := why })
      | (false, _) => none
  | .rdOwn id | .upgrade id =>
    match e with
    | none =>
      match s.roomFor line with
      | (true, s) => some (s.readFor { line := line, why := why })
      | (false, _) => none
    | some d =>
      let a := s.reqAgent id
      let up := (match why with | .upgrade _ => true | _ => false) && d.state == .shared && d.ptrs.any (fun p => p.1 == a)
      if d.state = .owned ∧ d.ptrs.any (fun p => p.1 == a) then some (s.condemn id)
      else
        let (sn, bk, s) := s.invalidateCopies line d (if up then some a else none)
        if sn.isEmpty && bk.isEmpty then some (if up then s.grant line id true none else (s.setDir line none).readFor { line := line, why := why })
        else some (s.openTxn { line := line, why := why, snoops := sn, backs := bk, stashLate := up })

/-- Opens one access; it waits while the slice's tracker has no place for a transaction it needs (R103). -/
def State.openAccess (s : State) (line : Nat) (why : TxnWhy) : Option State :=
  let q := lineQuarter line
  (s.openLine line why).filter (fun x => x.trackers q ≤ max 1024 (s.trackers q))

/-- Finishes a transaction for which every answer has come. A grant whose data no owner returned reads the memory line first. -/
def State.conclude (s : State) (t : Txn) : State :=
  let own (id : Nat) : State :=
    match t.got, t.data with
    | some g, _ => (s.endTxn t.line).grant t.line id true (some g)
    | none, some d => ((s.endTxn t.line).setDir t.line none).grant t.line id true (some (sliceBytes d 0 64, false)) true
    | none, none => (s.setDir t.line none).readFor t
  match t.why with
  | .recall =>
    let s := match t.data with | some d => s.writeBack t.line d | none => s
    (s.endTxn t.line).setDir t.line none
  | .engRead l =>
    let s := s.endTxn t.line
    match t.data with
    | some d => s.lineRead l (sliceBytes d 0 64) false
    | none => s.toStack l
  | .engWrite l target =>
    if t.stashLate then ((s.endTxn t.line).setDir t.line none).toStack { l with under := t.data }
    else s.writePhase t.line l target t.data t.got
  | .rdShared id =>
    match t.got, t.data with
    | some g, _ => (s.endTxn t.line).grant t.line id false (some g)
    | none, some d =>
      (((s.endTxn t.line).setDir t.line none).writeBack t.line d).grant t.line id false (some (sliceBytes d 0 64, false))
    | none, none => (s.setDir t.line none).readFor t
  | .rdOwn id => own id
  | .upgrade id => if t.stashLate ∧ t.data.isNone then ((s.endTxn t.line).setDir t.line none).grant t.line id true none else own id

/-- A write of the directory to a line that its stack has not served yet. -/
def State.backWaits (s : State) (line : Nat) : Bool := (s.atStack line).any (fun l => l.src == .back)

/-- Every answer of a transaction has come, and what the directory wrote to its line is in memory. -/
def State.answered (s : State) (t : Txn) : Bool :=
  t.snoops.isEmpty && t.backs.isEmpty && t.stash.isNone && !t.reading && !s.backWaits t.line

/-- An access that must wait for accesses of its line at the stack, whose transactions run to their end before its own starts (R98, R105).
Accesses of one stack port stay in order at the stack (R123), and reads of one line go together. A write waits for the earlier writes of its
channel (R65). -/
def State.behindAccess (s : State) (line : Nat) (why : TxnWhy) : Bool :=
  let ls := s.atStack line
  match why with
  | .recall => false
  | .rdShared _ => ls.any (·.wr)
  | .rdOwn _ | .upgrade _ => !ls.isEmpty
  | .engRead l => ls.any (fun a => a.wr && a.port != l.port)
  | .engWrite l target => s.writeWaits l || (if (s.stashTo target).isSome then !ls.isEmpty else ls.any (fun a => a.port != l.port))

/-- Concludes the transactions that are answered. -/
def State.progress (s : State) : State :=
  s.coh.txns.foldl (fun s t => match s.txn t.line with
    | some t => if s.answered t then s.conclude t else s
    | none => s) s

/-- Opens the accesses whose line is free, in arrival order (R105). One that must wait for an entry or a tracker stays. -/
def State.openWaiting (s : State) : State :=
  let w := s.coh.waiting
  let s := s.setCoh { s.coh with waiting := [] }
  w.foldl (fun s x =>
    let s := if (s.txn x.1).isSome then s else s.dropDead x.1
    let stay (s : State) : State := s.setCoh { s.coh with waiting := s.coh.waiting ++ [x] }
    if (s.txn x.1).isSome || s.coh.waiting.any (fun y => y.1 == x.1) || s.behindAccess x.1 x.2 then stay s
    else match s.openAccess x.1 x.2 with
      | some s => s
      | none => stay (s.roomFor x.1).2) s

/-- The position of a request at the rotating pointer of its slice: its agent index, or 512 (R105 step 3). -/
def State.arrPos (s : State) (w : TxnWhy) : Nat := match w.caching with | some id => s.reqAgent id | none => 512

/-- Requests for one line that arrive in one cycle, with their positions, in the order the rotating pointer gives, and where it then stands
(R105 step 3). -/
def tieOrder : Nat → Nat → List (Nat × TxnWhy) → List TxnWhy × Nat
  | 0, ptr, xs => (xs.map (·.2), ptr)
  | n + 1, ptr, xs =>
    match xs with
    | [] => ([], ptr)
    | x :: rest =>
      if rest.all (fun y => y.1 == x.1) then (xs.map (·.2), ptr)
      else
        let d (y : Nat × TxnWhy) : Nat := (y.1 + 513 - ptr) % 513
        let w := rest.foldl (fun a y => if d y < d a then y else a) x
        let r := tieOrder n ((w.1 + 1) % 513) (xs.erase w)
        (w.2 :: r.1, r.2)

/-- The requests that arrived in this cycle join those that wait, each slice ordering those for one line by its pointer (R105). -/
def State.takeArrived (s : State) : State :=
  let xs := s.coh.arrived
  (xs.map (·.1)).eraseDups.foldl (fun s line =>
    let q := lineQuarter line
    let items := (xs.filter (fun x => x.1 == line)).map (fun x => (s.arrPos x.2, x.2))
    let o := tieOrder items.length (smGet 0 s.coh.rr q) items
    s.setCoh { s.coh with waiting := s.coh.waiting ++ o.1.map (fun w => (line, w)), rr := smSet 0 s.coh.rr q o.2 })
    (s.setCoh { s.coh with arrived := [] })

/-- An EvAck for a line that has not left for its agent yet. -/
def State.evAckWaits (s : State) (line i : Nat) : Bool :=
  let mine (k : Packet) : Bool := k.typN == 0x47 && k.addr.toNat == s.lid line && k.agent == i
  s.links.any (fun e => e.2.queues.any (fun q => q.2.any (fun x => mine x.pkt))) || s.hub.heldCoh.any (fun x => mine x.2.2)

/-- A caching request that its agent may not make: it has another one outstanding for the line, or it gave the line up and has not been sent
the EvAck (R100 items 3 and 4). -/
def State.breaches (s : State) (line id : Nat) : Bool :=
  let i := s.reqAgent id
  let same (w : TxnWhy) : Bool := match w.caching with | some j => j != id && s.reqAgent j == i | none => false
  (s.coh.arrived ++ s.coh.waiting).any (fun x => x.1 == line && same x.2) || s.coh.txns.any (fun t => t.line == line && same t.why) ||
    s.evAckWaits line i

/-- An access reaches its line's home (R98, R105): it is taken at the end of the cycle. The agent of a request that breaches R100 is declared
dead. -/
def State.access (s : State) (line : Nat) (why : TxnWhy) : State :=
  match why.caching with
  | some id => if s.breaches line id then s.condemn id else s.setCoh { s.coh with arrived := s.coh.arrived ++ [(line, why)] }
  | none => s.setCoh { s.coh with arrived := s.coh.arrived ++ [(line, why)] }

/-! ### Dead agents (R112, R113) -/

/-- Answers the awaited messages of a dead agent: its snoops as RspI without data, its stash as timed out (R106 step 5, R112). -/
def State.dropSnoops (s : State) (i : Nat) : State :=
  let txns := s.coh.txns
  let s := (txns.filter (fun t => t.stash.map (·.1) == some i)).foldl (fun s t => s.count F.COH_CNT_STASH_REF 1 (lineQuarter t.line)) s
  let s := txns.foldl (fun s t =>
    if t.snoops.any (fun x => x.agent == i) then
      match s.dirEntry t.line with
      | some ⟨.owned, p :: _, _⟩ => if p.1 = i then (s.reclaimLine t.line i).setDir t.line none else s
      | _ => s
    else s) s
  let s := s.setCoh { s.coh with
    txns := s.coh.txns.map (fun t =>
      { t with snoops := t.snoops.filter (fun x => x.agent ≠ i),
               stash := t.stash.filter (fun x => x.1 ≠ i),
               stashLate := t.stashLate || (t.stash.map (·.1) == some i) })
    peers := s.coh.peers.map (fun b => { b with snoops := b.snoops.filter (fun x => x.agent ≠ i) }) }
  s

/-- The lines of a slice whose entries name agent `i`, each with the grant tag of its pointer. -/
def State.pointersOf (s : State) (q i : Nat) : List (Nat × Nat) :=
  s.coh.dir.flatMap (fun e => match e.2 with
    | some d => if lineQuarter e.1 = q then (d.ptrs.filter (fun p => p.1 == i)).map (fun p => (e.1, p.2)) else []
    | none => [])

/-- Declares agent `i` dead for REASON `why`, and tells the peers when the declaration is this device's own (R112, R417). -/
def State.declareDead (s : State) (i why : Nat) (own : Bool) : State :=
  if !s.agentLive i then s
  else
    let s := s.setFld F.COH_AGENT_DEAD 1 0 i
    let s := if own then s.peers.foldl (fun s n => s.toPeer n 0x12 0 i) s else s
    let s := (List.range 4).foldl (fun s q => s.event (srcCoh q) 0x01 [i + why * 2 ^ 9 + s.fld F.COH_AGENT_CTX 0 i * 2 ^ 12]) s
    let s := ((s.setFld F.COH_RCL_STAT_BUSY 1).setFld F.COH_RCL_STAT_AGENT i).setFld F.COH_RCL_STAT_POISONED 0
    let s := s.setCoh { s.coh with sweeps := s.coh.sweeps ++ (List.range 4).map (fun q =>
      { q := q, agent := i, lines := 0, since := s.now, held := s.pointersOf q i }) }
    (s.dropSnoops i).progress

/-- Sends the BAcks of the broadcasts whose local snoops are all answered (R102). -/
def State.sendBAcks (s : State) : State :=
  let ready := s.coh.peers.filter (fun b => b.snoops.isEmpty)
  let s := s.setCoh { s.coh with peers := s.coh.peers.filter (fun b => !b.snoops.isEmpty) }
  ready.foldl (fun s b => s.sendCoh none
    { dst := b.home, src := BitVec.ofNat 20 s.ownEp, typ := 0x51, vc := 3, addr := b.lid }) s

/-- Frames with a tracked line, an open transaction, or a write of the directory that its stack has not served yet. -/
def State.trackedFrames (s : State) : List Nat :=
  ((s.coh.dir.filter (fun e => e.2.isSome)).map (fun e => lineFrame e.1) ++ s.coh.txns.map (fun t => lineFrame t.line) ++
    s.stks.flatMap (fun e => (e.2.waiting.filter (fun l => l.src == .back)).map (·.frame))).eraseDups

/-- Recalls every tracked line of a frame (R115). -/
def State.recallFrame (s : State) (frame : Nat) : State :=
  let ls := (s.coh.dir.filter (fun e => lineFrame e.1 == frame)).map (·.1)
  (ls.foldl (fun s l =>
    if (s.txn l).isSome || 1024 ≤ s.trackers (lineQuarter l) then s.setCoh { s.coh with waiting := s.coh.waiting ++ [(l, .recall)] }
    else s.recall l) s).progress

end Sys2Proof.Machine
end

