-- ==== Sys2Proof/Machine/Versions.lean ====
section
/-!
DEFINITION. Versioned regions: handles, slots, pending versions, the shadow pool, copy-on-write and commits (R78 to R88).
-/
namespace Sys2Proof.Machine
open Sys2Proof

/-! ### Handles (Table 3-6) -/

def vhRegion (h : Nat) : Nat := bits h 0 12
def vhSlot (h : Nat) : Nat := bits h 12 4
def vhPending (h : Nat) : Bool := h.testBit 16
def vhSerial (h : Nat) : Nat := bits h 17 15
def vhVersion (h : Nat) : Nat := bits h 32 32
def vhMake (r slot : Nat) (p : Bool) (serial version : Nat) : Nat :=
  r + slot * 2 ^ 12 + (if p then 2 ^ 16 else 0) + serial * 2 ^ 17 + version * 2 ^ 32

/-- A slot serial advanced; it is never 0 in use (Table 3-6). -/
def nextSerial (n : Nat) : Nat := if n % 32768 = 32767 then 1 else n % 32768 + 1

/-- The segment of context `c` through which it maps region `r`: the region's own context, or one whose segment of the same number
names the same extents (R81, log 41). -/
def State.mapsRegion (s : State) (c r : Nat) : Bool :=
  s.rgnV r && s.segV c (s.rgnSeg r) &&
    (c == s.rgnCtx r || bits (s.segAttr c (s.rgnSeg r)) 16 41 == bits (s.segAttr (s.rgnCtx r) (s.rgnSeg r)) 16 41)

/-- Versioned operations are accepted on region `r` for context `c` with the permission `k` (R80, R90). -/
def State.verAllowed (s : State) (c r : Nat) (k : Kind) : Bool :=
  s.flag F.XLT_VER_CTL_EN && s.mapsRegion c r && attrAllows (s.segAttr c (s.rgnSeg r)) k

/-- The status of a retained-version handle (R79). -/
def State.slotStatus (s : State) (h : Nat) : Status :=
  let v := (s.region (vhRegion h)).slots.getD (vhSlot h) {}
  if v.used && v.serial == vhSerial h then .ok
  else if v.ended.contains (vhSerial h) then .revoked else .accessDenied

/-- The status of a pending handle (R79). -/
def State.pendStatus (s : State) (h : Nat) : Status :=
  match (s.region (vhRegion h)).pends[vhSlot h]? with
  | some v => if v.used && v.serial == vhSerial h then .ok else .accessDenied
  | none => .accessDenied

def RegionSt.setSlot (x : RegionSt) (n : Nat) (v : VSlot) : RegionSt := { x with slots := setAt x.slots n v }
def RegionSt.setPend (x : RegionSt) (n : Nat) (v : PSlot) : RegionSt := { x with pends := setAt x.pends n v }

/-- A slot frees: its serial advances and its remap list goes (R84). `ended` records serials closed by lease or force (R79). -/
def VSlot.free (v : VSlot) (ended : Bool) : VSlot :=
  { serial := nextSerial v.serial, ended := if ended then v.ended ++ [v.serial] else v.ended }
def PSlot.free (v : PSlot) : PSlot := { serial := nextSerial v.serial }

/-- Retained and pending versions in use. -/
def RegionSt.retained (x : RegionSt) : Nat := (x.slots.filter (·.used)).length
def RegionSt.pending (x : RegionSt) : Nat := (x.pends.filter (·.used)).length

/-! ### Shadow pool (R82) -/

/-- Shadow pages held by retained or pending versions. -/
def RegionSt.heldPages (x : RegionSt) : List Nat :=
  (x.slots.flatMap (fun v => v.remap.map (·.2))) ++ (x.pends.flatMap (fun v => v.remap.map (·.2)))

/-- First page at or after `p` below `stop` that is not held. -/
def firstFree (held : List Nat) : Nat → Nat → Nat → Option Nat
  | 0, _, _ => none
  | n + 1, p, stop => if stop ≤ p then none else if held.contains p then firstFree held n (p + 1) stop else some p

/-- Present extents of a segment, as page ranges. -/
def State.presentRuns (s : State) (c g : Nat) : List (Nat × Nat) :=
  let a := s.segAttr c g
  (List.range (F.XLT_SEG_ATTR_EXT_COUNT.of a)).filterMap (fun i =>
    let e := s.extWords (F.XLT_SEG_ATTR_EXT_INDEX.of a + i)
    if extV e && !extNP e then some (extPage e, min (extPage e + extLen e) (s.segLen c g)) else none)

/-- Pages of a region's shadow segment that versions hold, of this region or of another with the same shadow segment (R82). -/
def State.shadowHeld (s : State) (r : Nat) : List Nat :=
  s.ver.flatMap (fun e => if s.rgnCtx e.1 = s.rgnCtx r ∧ s.rgnSh e.1 = s.rgnSh r then e.2.heldPages else [])

/-- A free page of the region's shadow pool: the lowest (R82; which one is taken is not given, log 42). -/
def State.shadowPage (s : State) (r : Nat) : Option Nat :=
  let held := s.shadowHeld r
  (s.presentRuns (s.rgnCtx r) (s.rgnSh r)).findSome? (fun x => firstFree held (held.length + 1) x.1 x.2)

/-- Free pages of the shadow pool. -/
def State.shadowFree (s : State) (r : Nat) : Nat :=
  let held := (s.shadowHeld r).eraseDups
  ((s.presentRuns (s.rgnCtx r) (s.rgnSh r)).map (fun x => (x.2 - x.1) - (held.filter (fun p => x.1 ≤ p && p < x.2)).length)).sum

/-- Remap entries in use in the device (R78): each was taken by the first VWRITE of a version to a page, and the versions that build on it share
it (R82). -/
def State.remapUsed (s : State) : Nat :=
  (s.ver.map (fun e => ((e.2.slots.flatMap (·.remap)) ++ (e.2.pends.flatMap (·.remap))).eraseDups.length)).sum

/-! ### Operations of the version unit (R80 to R84) -/

/-- What an operation answers: its status, RESULT and INFO. -/
structure VerAns where
  status : Status
  result : Nat := 0
  info : Nat := 0
  deriving DecidableEq, Repr

/-- OPEN (R80, R81). -/
def State.verOpen (s : State) (c r : Nat) : VerAns × State :=
  if !s.verAllowed c r .read then (⟨.accessDenied, 0, 0⟩, s)
  else
    let x := s.region r
    let v := x.slots.getD x.curSlot {}
    if 65535 ≤ v.opens then (⟨.busy, 0, 0⟩, s)
    else (⟨.ok, vhMake r x.curSlot false v.serial x.cur, 0⟩, s.setRegion r (x.setSlot x.curSlot { v with opens := v.opens + 1 }))

/-- CLOSE (R81). -/
def State.verClose (s : State) (c h : Nat) : VerAns × State :=
  let r := vhRegion h
  if !s.verAllowed c r .read || vhPending h then (⟨.accessDenied, 0, 0⟩, s)
  else
    let st := s.slotStatus h
    let x := s.region r
    let v := x.slots.getD (vhSlot h) {}
    if st ≠ .ok then (⟨st, 0, 0⟩, s)
    else if v.opens = 0 then (⟨.accessDenied, 0, 0⟩, s)
    else if v.opens = 1 ∧ vhSlot h ≠ x.curSlot then (⟨.ok, 0, 0⟩, s.setRegion r (x.setSlot (vhSlot h) (v.free false)))
    else (⟨.ok, 0, 0⟩, s.setRegion r (x.setSlot (vhSlot h) { v with opens := v.opens - 1 }))

/-- BEGIN (R80, R82). -/
def State.verBegin (s : State) (c r base : Nat) : VerAns × State :=
  if !s.verAllowed c r .write then (⟨.accessDenied, 0, 0⟩, s)
  else
    let x := s.region r
    if base ≠ x.cur then (⟨.conflict, 0, x.cur⟩, s)
    else match (List.range 4).find? (fun n => !(x.pends.getD n {}).used) with
      | none => (⟨.busy, 0, 0⟩, s)
      | some n =>
        let sr := max 1 (x.pends.getD n {}).serial
        (⟨.ok, vhMake r n true sr base, 0⟩,
          s.setRegion r (x.setPend n { used := true, base := base, serial := sr, remap := x.curRemap, own := [] }))

/-- DISCARD (R80). -/
def State.verDiscard (s : State) (c h : Nat) : VerAns × State :=
  let r := vhRegion h
  if !s.verAllowed c r .write || !vhPending h then (⟨.accessDenied, 0, 0⟩, s)
  else if s.pendStatus h ≠ .ok then (⟨.accessDenied, 0, 0⟩, s)
  else
    let x := s.region r
    (⟨.ok, 0, 0⟩, s.setRegion r (x.setPend (vhSlot h) (x.pends.getD (vhSlot h) {}).free))

/-- The frames of a pending version's own pages. -/
def State.ownFrames (s : State) (r n : Nat) : List Nat :=
  let v := (s.region r).pends.getD n {}
  (v.remap.filter (fun e => v.own.contains e.1)).filterMap (fun e => s.pageFrame (s.rgnCtx r) (s.rgnSh r) e.2)

/-- A waiting PUBLISH asks to commit; none while it must still wait for code-clean pages (R83 to R85). -/
def State.verPublish (s : State) (c h : Nat) : Option (VerAns × State) :=
  let r := vhRegion h
  if !s.verAllowed c r .write || !vhPending h || s.pendStatus h ≠ .ok then some (⟨.accessDenied, 0, 0⟩, s)
  else
    let x := s.region r
    let p := x.pends.getD (vhSlot h) {}
    let old := x.slots.getD x.curSlot {}
    if p.base ≠ x.cur then some (⟨.conflict, 0, x.cur⟩, s.setRegion r (x.setPend (vhSlot h) p.free))
    else if s.flag F.XLT_VER_RGN_CFG_PUBWAIT 0 r && (s.ownFrames r (vhSlot h)).any s.codeDirty then none
    else if old.opens ≠ 0 ∧ max 1 (s.fld F.XLT_VER_RGN_CFG_LIMIT_M1 0 r) + 1 ≤ x.retained then some (⟨.busy, 0, 0⟩, s)
    else
      let new := if x.cur = 0xFFFFFFFF then 1 else x.cur + 1
      let x := x.setPend (vhSlot h) p.free
      let x := x.setSlot x.curSlot (if old.opens = 0 then old.free false else { old with stopped := some s.now })
      match (List.range 16).find? (fun n => !(x.slots.getD n {}).used) with
      | none => some (⟨.busy, 0, 0⟩, s)
      | some n =>
        let v := x.slots.getD n {}
        let x := x.setSlot n { v with used := true, ver := new, opens := 0, serial := max 1 v.serial, remap := p.remap, stopped := none }
        let s := s.setRegion r { x with cur := new, curSlot := n }
        some (⟨.ok, 0, new⟩, s.invalidate (fun c g => c == s.rgnCtx r && g == s.rgnSeg r))

/-- Ends every open of a retained slot; a slot that is not current frees (R81, Table 3-11). -/
def State.endOpens (s : State) (r n : Nat) : State :=
  let x := s.region r
  let v := x.slots.getD n {}
  if n = x.curSlot then
    s.setRegion r (x.setSlot n { v with opens := 0, serial := nextSerial v.serial, ended := v.ended ++ [v.serial] })
  else s.setRegion r (x.setSlot n (v.free true))

/-- The region becomes invalid: every slot serial advances and every pending version is discarded (R87). -/
def State.killRegion (s : State) (r : Nat) : State :=
  let x := s.region r
  (s.setFld F.XLT_VER_RGN_ID_V 0 0 r).setRegion r
    { cur := 0, curSlot := 0, slots := x.slots.map (fun v => v.free false), pends := x.pends.map PSlot.free }

/-- Valid regions that `p` names by number. -/
def State.regionsWhere (s : State) (p : Nat → Bool) : List Nat :=
  s.regs.filterMap (fun e =>
    let o := RegName.XLT_VER_RGN_ID.addr 0 0 0
    if e.1 < o then none
    else match RegName.XLT_VER_RGN_ID.matchAt (e.1 - o + RegName.XLT_VER_RGN_ID.spec.base) with
      | some (r, _) => if F.XLT_VER_RGN_ID_V.of e.2.toNat = 1 ∧ p r then some r else none
      | none => none)

/-! ### Copy-on-write (R82) -/

/-- Copies a page as a full-page streaming write: its open slot is flushed, its lines are read through the layers, poisoned lines keep their poison, and
every line takes the tag `t` (R82, R141, R145, R156, R160). -/
def State.copyPage (s : State) (src dst t : Nat) : State :=
  let s := s.flushFold src
  let (page, s) := (List.range 1024).foldl (fun (a : List (Nat × List (BitVec 8) × Nat) × State) l =>
    let r := a.2.readLine src l 5
    (a.1 ++ [(l, r.bytes, if r.poison then t + 1 else t)], r.state)) ([], s)
  (s.dropFold dst).stream dst page

/-- Pages of the region's segment that a request may use: versioned pieces never leave the region (R86). -/
def State.inRegion (s : State) (r page : Nat) : Bool := page < s.rgnPages r

end Sys2Proof.Machine
end

