-- ==== Sys2Proof/Machine/Order.lean ====
section
/-!
DEFINITION. Order channels at work: attempting pieces in issue order, misses, faults, remote pieces, failing what waits, completing
requests in order, refusal (R34, R39, R51 to R55, R64 to R77, R80 to R87, R329, R333).
-/
namespace Sys2Proof.Machine
open Sys2Proof

/-! ### Where a piece goes -/

/-- What the checks of R34 steps 2 and 3, R40, R79, R80, R85, R86 and R99 say of a piece: a status that ends it, or the context,
segment and page to translate, with a copy-on-write still to do. -/
inductive Target where
  | fail (st : Status)
  | page (c g p : Nat)
  | cow (r slot p : Nat)
  deriving DecidableEq, Repr

def State.pieceTarget (s : State) (r : Req) (p : Piece) : Target :=
  -- the kind of handle is checked before its expiry: a VWRITE through a retained slot is ACCESS_DENIED, expired or not (DESIGN CHOICE, log 136)
  let c := r.chan.ctx
  if !s.flag F.XLT_CTL_EN then .fail .accessDenied
  else if r.kind == .vread || r.kind == .vwrite then
    let h := r.vh
    let g := vhRegion h
    if !s.verAllowed c g r.kind.kind || !s.inRegion g p.page then .fail .accessDenied
    else
      let x := s.region g
      if vhPending h then
        if s.pendStatus h ≠ .ok then .fail .accessDenied
        else
          let v := x.pends.getD (vhSlot h) {}
          if r.kind == .vwrite && !v.own.contains p.page then .cow g (vhSlot h) p.page
          else let t := s.versionPage g v.remap p.page; .page (s.rgnCtx g) t.1 t.2
      else if r.kind == .vwrite then .fail .accessDenied
      else if s.slotStatus h ≠ .ok then .fail (s.slotStatus h)
      else let t := s.versionPage g (x.slots.getD (vhSlot h) {}).remap p.page; .page (s.rgnCtx g) t.1 t.2
  else
    let a := s.segAttr c p.seg
    if F.XLT_SEG_ATTR_V.of a = 0 ∨ s.segLen c p.seg ≤ p.page ∨ !attrAllows a r.kind.kind ∨ (r.stash.isSome && !attrAllows a .own) then
      .fail .accessDenied
    else match s.regionOf c p.seg p.page with
      | some g =>
        if r.kind.isWrite || r.kind.isCaching then .fail .accessDenied
        else let t := s.versionPage g (s.region g).curRemap (p.page - s.rgnFirst g); .page (s.rgnCtx g) t.1 t.2
      | none => .page c p.seg p.page

/-- Whether a piece of the channel, counted or not, is an access to a page of context `c`, segment `g` (R57). -/
def State.pieceAt (s : State) (r : Req) (p : Piece) : Option (Nat × Nat × Nat) :=
  match s.pieceTarget r p with
  | .page c g n => some (c, g, n)
  | .cow g _ n => some (s.rgnCtx g, s.rgnSeg g, s.rgnFirst g + n)
  | .fail _ => none

/-- The quarter of the version unit that a versioned operation needs (R78). -/
def Req.unit (r : Req) : Option Nat :=
  match r.kind with
  | .vopen => some (r.addr % 4096 % 4)
  | .vbegin => some (r.addr % 4096 % 4)
  | .vclose => some (vhRegion r.vh % 4)
  | .vdiscard => some (vhRegion r.vh % 4)
  | .vpublish => some (vhRegion r.vh % 4)
  | .vread => some (vhRegion r.vh % 4)
  | .vwrite => some (vhRegion r.vh % 4)
  | _ => none

/-- Whether a request needs a version unit whose quarter takes no new work (R71, R78). -/
def State.unitClosed (s : State) (r : Req) : Bool :=
  match r.unit with
  | some q => s.closed q
  | none => false

/-! ### Bridges (R11, R12) -/

/-- Traffic that goes by the quarter in its source's row: that of even channels, and coherence messages, which have no order channel (R11). -/
def Req.byRow (r : Req) : Bool := r.chan.ch % 2 == 0 || r.kind.isCaching

/-- A request held at a bridge on its way from its engine to quarter `q` (R12). -/
def State.atBridge (s : State) (r : Req) (q : Nat) : Bool := s.bridgeWait r.byRow r.chan.eng.quarter q

/-! ### Order across devices (R65, R69) -/

/-- Pieces of the channel before piece `n` of request `r`. -/
def State.piecesBefore (s : State) (r : Req) (n : Nat) : List (Req × Piece) :=
  s.ord.reqs.flatMap (fun x =>
    if x.chan = r.chan ∧ x.id ≤ r.id then (x.pieces.take (if x.id = r.id then n else x.pieces.length)).map (fun p => (x, p)) else [])

/-- A piece that is not forwarded stays behind the forwarded pieces before it: a retrain may hold those, and the writes of a channel take effect
in its order (R65, R69). -/
def State.behindRemote (s : State) (r : Req) (n : Nat) : Bool :=
  (s.piecesBefore r n).any (fun x => match x.2.state with | .remote _ _ => true | _ => false)

/-- A forwarded piece follows pieces forwarded by the same port, whose order the home device keeps; it stays behind others that are not served. -/
def State.behindLocal (s : State) (r : Req) (n out : Nat) : Bool :=
  (s.piecesBefore r n).any (fun x => match x.2.state with
    | .remote q _ => q != out
    | .started => true
    | _ => false)

/-! ### Failing what waits (R54, R55, R58, R71, R73) -/

/-- Ends one unstarted piece and, with the same status, the later unstarted pieces of its request (R73). -/
def Req.failFrom (r : Req) (n : Nat) (st : Status) : Req :=
  { r with pieces := r.pieces.zipIdx.map (fun x => if n ≤ x.2 ∧ x.1.unstarted then x.1.fail st else x.1) }

/-- Ends every unstarted part of a request. -/
def Req.failAll (r : Req) (st : Status) : Req :=
  if r.pieces.isEmpty then (if r.fixed.isSome then r else { r with fixed := some st }) else r.failFrom 0 st

/-- Ends the held or queued piece `n` of request `id`, and every later request already held on the same channel. Answers how many
requests that touches. -/
def State.failChannel (s : State) (id n : Nat) (st : Status) : Nat × State :=
  match s.req id with
  | none => (0, s)
  | some r =>
    let hit (x : Req) : Bool := x.chan == r.chan && id < x.id && !x.refused && !x.complete
    (1 + (s.ord.reqs.filter hit).length,
      s.setOrd { s.ord with reqs := s.ord.reqs.map (fun x =>
        if x.id = id then x.failFrom n st else if hit x then x.failAll st else x) })

/-- Removes a request's pieces from the miss queues and from fault entries that no longer have them waiting; an entry without a
waiter frees and its serial advances (R52, R55, R77). -/
def State.dropWaiters (s : State) : State :=
  let held (q e : Nat) (w : Nat × Nat) : Bool :=
    match s.piece w.1 w.2 with
    | some p => p.state == .held q e
    | none => false
  let missed (m : Miss) : Bool :=
    match s.piece m.req m.piece with
    | some p => p.state == .missed
    | none => false
  let fs := s.xlt.faults.map (fun f => { f with waiters := f.waiters.filter (held f.q f.e) })
  let gone := fs.filter (fun f => f.waiters.isEmpty)
  { s with xlt := { s.xlt with
      missQ := s.xlt.missQ.filter missed
      faults := fs.filter (fun f => !f.waiters.isEmpty)
      serials := gone.foldl (fun m f => smSet 0 m (f.q * 128 + f.e) ((smGet 0 m (f.q * 128 + f.e) + 1) % 128)) s.xlt.serials
      recQ := s.xlt.recQ.map (fun r => match gone.find? (fun f => r.entry == some (f.q, f.e)) with
        | some f => { r with entry := none, waiters := f.joined }
        | none => r) } }

/-! ### Starting (R34 step 5) -/

/-- Hint of a request: the stash target (R106). -/
def Req.linesAt (r : Req) (p : Piece) (port frame gen : Nat) (strict : Bool) (n : Nat) : List LineReq :=
  (linesOf (p.len / 64 + 2) p.inPage p.len 0).map (fun x =>
    { req := r.id, piece := n, port := port, frame := frame, line := x.1, wr := r.kind.isWrite, off := x.2.1, len := x.2.2.1,
      bytes := if r.kind.isWrite then sliceBytes r.data (p.off + x.2.2.2) x.2.2.1 else [],
      fold := r.fold, strict := strict, whole := r.kind == .vwrite && p.len == 65536, gen := gen,
      poison := r.kind.isWrite && (sectorsOf (r.base + p.off + x.2.2.2) x.2.2.1).any (fun n => r.lostSrc.contains n) })

/-- A request that goes by the pool path of a station (R183). -/
def Req.onPath (r : Req) : Bool := match r.chan.eng with | .station _ _ => r.chan.ch < 8 | _ => false

/-- Lines of a station's pool path that are outstanding (R183). -/
def State.pathLines (s : State) (e : Engine) : Nat :=
  ((s.ord.reqs.filter (fun r => r.chan.eng == e && r.onPath)).map (fun r =>
    (r.pieces.map (fun p => if p.state = .started then p.todo else 0)).sum)).sum -
    (s.ord.path.filter (fun x => (s.req x.1.req).any (fun r => r.chan.eng == e))).length

/-- Sends a line to its home slice. -/
def State.sendLine (s : State) (l : LineReq) (stash : Option Nat) : State :=
  s.access (lineKey l.frame l.line) (if l.wr then .engWrite l stash else .engRead l)

/-- The lines that wait for a place in the pool path of their station go out while fewer than 384 are outstanding (R183); those of pieces that ended
meanwhile are dropped. -/
def State.issuePath (s : State) : State :=
  s.ord.path.foldl (fun s x =>
    let out (s : State) : State := s.setOrd { s.ord with path := s.ord.path.erase x }
    match s.req x.1.req with
    | none => out s
    | some r =>
      if !(r.pieces[x.1.piece]?).any (fun p => p.state == .started) then out s
      else if s.pathLines r.chan.eng < 384 then (out s).sendLine x.1 x.2 else s) s

/-- A piece leaves translation for its lines' home slices and stacks. -/
def State.startPiece (s : State) (r : Req) (n : Nat) (p : Piece) (frame : Nat) (strict : Bool) : State :=
  let gen := s.gen r.chan.ctx
  let port := r.chan.eng.stackPort (keyStack frame)
  if r.kind == .hint then
    (s.setHint frame r.info).updPiece r.id n (fun p => { p with state := .done, frame := frame, gen := gen, begun := true })
  else if r.kind.isCaching then
    let line := lineKey frame (p.inPage / 64)
    let s := s.updPiece r.id n (fun p => { p with state := .started, frame := frame, gen := gen, begun := true })
    s.access line (match r.kind with | .rdShared => .rdShared r.id | .rdOwn => .rdOwn r.id | _ => .upgrade r.id)
  else
    let ls := r.linesAt p port frame gen strict n
    let s := s.updPiece r.id n (fun p => { p with state := .started, frame := frame, gen := gen, todo := ls.length, begun := true })
    if r.onPath then (s.setOrd { s.ord with path := s.ord.path ++ ls.map (fun l => (l, r.stash)) }).issuePath
    else ls.foldl (fun s l => s.sendLine l r.stash) s

/-- A new access to a frame waits: the frame is the destination of a migration whose REMAP runs, or a cached access whose page is
being remapped (R141, R115). -/
def State.frameHeld (s : State) (frame : Nat) (caching : Bool) : Bool :=
  s.migSlots.any (fun m => m.2.2.2 == 3 && (m.2.2.1.dst == frame || (caching && m.2.2.1.src == frame)))

/-- Ends piece `n` with a status of its own. -/
def State.endPiece (s : State) (r : Req) (n : Nat) (st : Status) : State :=
  let s := if st = .accessDenied then s.countDeny r.chan.eng.quarter else s
  s.updPiece r.id n (fun p => p.fail st)

/-! ### Remote pieces (R39) -/

/-- The packets of a forwarded piece: one read, or a write in packets of at most 2 KiB (R282). -/
def remotePackets (r : Req) (p : Piece) (ep homeEp homeSeg tag : Nat) : List Packet :=
  let base : Packet :=
    { dst := BitVec.ofNat 20 homeEp, src := BitVec.ofNat 20 ep, typ := if r.kind.isWrite then 2 else 1,
      addr := BitVec.ofNat 64 (2 ^ 63 + homeSeg * 2 ^ 56 + (p.page * 65536 + p.inPage)), tag := BitVec.ofNat 16 tag,
      ch := BitVec.ofNat 3 r.chan.ch, len := BitVec.ofNat 19 p.len, fold := r.fold,
      w3 := match r.stash with | some a => BitVec.ofNat 64 (a + 2 ^ 9) | none => 0 }
  if r.kind.isWrite then
    let n := (p.len + 2047) / 2048
    (List.range n).map (fun i =>
      ({ base with off := BitVec.ofNat 19 (2048 * i), last := i + 1 = n } : Packet).withPayload
        (sliceBytes r.data (p.off + 2048 * i) (min 2048 (p.len - 2048 * i))))
  else [base]

/-- Sends a piece to the home device of its segment; true when it must wait (R39, R70, R291, R295). -/
def State.sendRemote (s : State) (r : Req) (n : Nat) (p : Piece) : Bool × State :=
  let a := s.segAttr r.chan.ctx p.seg
  let homeEp := bits a 16 20
  let homeSeg := bits a 36 3
  if r.kind.isCaching then (false, s.endPiece r n .accessDenied)
  else if r.kind == .hint then (false, s.updPiece r.id n (fun p => { p with state := .done, begun := true }))
  else if s.epochHeld 15 r.ep r.chan.ch then (true, s)
  else
    let tag := s.ord.nextTag % 65536
    let ks := remotePackets r p r.ep homeEp homeSeg tag
    match s.verdict s.epoch homeEp with
    | .noRoute => (false, (s.countDiscard .noRoute).endPiece r n .noRoute)
    | .down => (false, (s.countDiscard .down).endPiece r n .linkLost)
    | v =>
      let out := match v with | .port q => q | _ => 15
      if s.behindLocal r n out || (out < 14 && s.atBridge r (portQuarter out)) then (true, s)
      else
      let s := s.setOrd { s.ord with nextTag := s.ord.nextTag + 1 }
      let s := match ks with | k :: _ => s.noteFlow 15 out { k with epoch := s.epoch } | [] => s
      let s := ks.foldl (fun s k => (s.originate (some r.chan.ctx) k).2) s
      (false, s.updPiece r.id n (fun p => { p with state := .remote out tag, gen := s.gen r.chan.ctx, begun := true }))

/-! ### Attempting a piece -/

/-- The colour a context is held to, in strict isolation (R333): a frame of another colour is refused. -/
def State.colourDenied (s : State) (c frame : Nat) : Bool :=
  s.flag F.SEC_STAT_STRICT && s.flag F.SEC_CTX_CEN 0 c && bits (keyPage frame) 2 2 != s.fld F.SEC_CTX_COLOUR 0 c

/-- A miss enters the miss queue of its engine's quarter; while that is full the engine stalls (R48, R21). -/
def State.pushMiss (s : State) (r : Req) (n c g page : Nat) : State :=
  let q := r.chan.eng.quarter
  if 256 ≤ (s.xlt.missQ.filter (fun m => m.q == q)).length then s
  else
    let s := s.count F.XLT_QCNT_L2_MISS 1 q
    let s := { s with xlt := { s.xlt with missQ := s.xlt.missQ ++ [(⟨q, r.id, n, c, g, page, false⟩ : Miss)] } }
    s.updPiece r.id n (fun p => { p with state := .missed })

/-- Attempts piece `n` of request `r`: true when the channel stops at it. -/
def State.attempt (s : State) (r : Req) (n : Nat) (p : Piece) : Bool × State :=
  let eng := r.chan.eng
  if p.rvk then (true, s)
  else if r.kind.isWrite && r.have_ < p.off + p.len then (true, s)
  else if s.unitClosed r then (false, (s.failChannel r.id n .busy).2)
  else
    match s.pieceTarget r p with
    | .fail st => (false, s.endPiece r n st)
    | t =>
      let (c, g, page) := match t with
        | .page c g page => (c, g, page)
        | .cow rg slot pg =>
          let b := s.versionPage rg ((s.region rg).pends.getD slot {}).remap pg
          (s.rgnCtx rg, b.1, b.2)
        | .fail _ => (0, 0, 0)
      let a := s.segAttr c g
      if F.XLT_SEG_ATTR_REMOTE.of a = 1 then s.sendRemote r n p
      else if s.behindRemote r n then (true, s)
      else if s.closed eng.quarter then (false, s.endPiece r n .busy)
      else
        match s.buffered eng eng.quarter c g page with
        | (none, s) => (true, s.pushMiss r n c g page)
        | (some f, s) =>
          if s.released f then (false, (s.count F.SEC_CNT_REL_HIT).endPiece r n .revoked)
          else if s.colourDenied c f then (false, (s.count F.SEC_CNT_COLOUR_DENY).endPiece r n .accessDenied)
          else if s.closed (stackQuarter (keyStack f)) then (false, (s.failChannel r.id n .busy).2)
          else if s.atBridge r (stackQuarter (keyStack f)) then (true, s)
          else if s.frameHeld f r.kind.isCaching then (true, s)
          else if r.kind.isCaching && 1024 ≤ s.trackers (stackQuarter (keyStack f)) then (true, s)
          else match t with
            | .cow rg slot pg =>
              let whole := p.inPage = 0 ∧ p.len = 65536
              if s.migSlots.any (fun m => m.2.2.2 ≠ 0 && m.2.2.1.src == f) then (true, s)
              else match s.shadowPage rg with
                | none => (false, s.endPiece r n .busy)
                | some sp =>
                  if 4194304 ≤ s.remapUsed then (false, s.endPiece r n .busy)
                  else match s.pageFrame (s.rgnCtx rg) (s.rgnSh rg) sp with
                    | none => (false, s.endPiece r n .busy)
                    | some d =>
                      if s.closed (stackQuarter (keyStack d)) then (false, (s.failChannel r.id n .busy).2)
                      else
                      -- the version unit copies through port 4 of both stacks (Table 5-2)
                      let (ok1, s) := if whole then (true, s) else s.useStk (keyStack f)
                      let (ok2, s) := if whole then (true, s) else s.useStk (keyStack d)
                      if !ok1 || !ok2 then (true, s)
                      else
                      let s := if whole then s else s.copyPage f d 2
                      let x := s.region rg
                      let v := x.pends.getD slot {}
                      let v := { v with own := v.own ++ [pg], remap := insertRemap v.remap pg sp }
                      let s := s.setRegion rg (x.setPend slot v)
                      (false, s.startPiece r n p d (F.XLT_SEG_ATTR_STRICT.of (s.segAttr (s.rgnCtx rg) (s.rgnSeg rg)) == 1))
            | _ =>
              -- a page of a version is strict as its region's segment is, in whichever segment its frame lies (R85)
              let a := if r.kind == .vwrite then s.segAttr (s.rgnCtx (vhRegion r.vh)) (s.rgnSeg (vhRegion r.vh)) else a
              (false, s.startPiece r n p f (F.XLT_SEG_ATTR_STRICT.of a == 1))
where
  /-- A remap list with region page `k` sent to shadow page `v`, in page order. -/
  insertRemap : List (Nat × Nat) → Nat → Nat → List (Nat × Nat)
  | [], k, v => [(k, v)]
  | x :: xs, k, v => if k < x.1 then (k, v) :: x :: xs else if k = x.1 then (k, v) :: xs else x :: insertRemap xs k v

/-- Frames whose code rebuild a PUBLISH at the head of its channel waits for (R85). -/
def State.urgentFrames (s : State) : List Nat :=
  (s.ord.reqs.filter (fun r => r.kind == .vpublish && r.fixed.isNone && s.flag F.XLT_VER_RGN_CFG_PUBWAIT 0 (vhRegion r.vh) &&
      s.pendStatus r.vh == .ok && s.ord.reqs.all (fun x => x.chan != r.chan || r.id ≤ x.id))).flatMap (fun r =>
    s.ownFrames (vhRegion r.vh) (vhSlot r.vh))

/-- Sends those frames to the head of the maintenance queues (R85). -/
def State.hurryRebuilds (s : State) : State :=
  let fs := s.urgentFrames
  if fs.isEmpty then s
  else s.stks.foldl (fun (s : State) (e : Nat × Stk) =>
    let q := e.2.cdq.filter (fun c => fs.contains c.1) ++ e.2.cdq.filter (fun c => !fs.contains c.1)
    if q = e.2.cdq then s else s.setStk e.1 { s.stk e.1 with cdq := q }) s

/-- A versioned operation reaches its version unit, which takes it at the end of the cycle (R78). -/
def State.markUnit (s : State) (id : Nat) : State :=
  if s.ord.atUnit.contains id then s else s.setOrd { s.ord with atUnit := s.ord.atUnit ++ [id] }

/-- A versioned operation goes to its version unit in its place on the channel, which it holds until it is applied (R78, R80). PUBLISH waits for
the requests before it (R83). -/
def State.applyVop (s : State) (r : Req) : Bool × State :=
  match r.unit with
  | none => (false, s)
  | some q =>
    if s.closed q then (false, ((s.failChannel r.id 0 .busy).2).updReq r.id (fun r => r.failAll .busy))
    else if r.kind == .vpublish then (true, s.hurryRebuilds)
    else if s.behindRemote r 0 || s.atBridge r q then (true, s)
    else (true, s.markUnit r.id)

/-- What the version unit answers to an operation; none for a PUBLISH that must wait (R80 to R85). -/
def State.vopNow (s : State) (r : Req) : Option (VerAns × State) :=
  let c := r.chan.ctx
  match r.kind with
  | .vopen => some (s.verOpen c (r.addr % 4096))
  | .vclose => some (s.verClose c r.vh)
  | .vbegin => some (s.verBegin c (r.addr % 4096) (r.vh % 2 ^ 32))
  | .vdiscard => some (s.verDiscard c r.vh)
  | .vpublish => s.verPublish c r.vh
  | _ => none

/-- The version unit applies an operation (R78). -/
def State.unitApply (s : State) (r : Req) : State :=
  match s.vopNow r with
  | none => s
  | some (a, s) => s.updReq r.id (fun r => { r with fixed := some a.status, result := a.result, info := a.info })

/-- The arrival position of a request at a version unit: its port, or 15 for the device's own engines (R78). -/
def Req.position (r : Req) : Nat := match r.chan.eng with | .port p => if p < 14 then p else 15 | _ => 15

/-- The region of an operation that a version unit applies. -/
def Req.unitRegion (r : Req) : Nat := if r.kind == .vopen || r.kind == .vbegin then r.addr % 4096 else vhRegion r.vh

/-- A version unit applies the operations of one cycle: the rotating pointer orders them, and an OPEN goes before a PUBLISH of its region (R78,
R88). -/
def State.unitLoop : Nat → State → Nat → List Req → State
  | 0, s, _, _ => s
  | n + 1, s, q, rs =>
    let ptr := smGet 0 s.ord.turn q
    let d (r : Req) : Nat := (r.position + 16 - ptr) % 16
    let may (r : Req) : Bool := r.kind != .vpublish || !rs.any (fun x => x.kind == .vopen && x.unitRegion == r.unitRegion)
    match rs.filter may with
    | [] => s
    | x :: rest =>
      let w := rest.foldl (fun a y => if d y < d a then y else a) x
      let s := s.unitApply w
      (s.setOrd { s.ord with turn := smSet 0 s.ord.turn q ((w.position + 1) % 16) }).unitLoop n q (rs.erase w)

/-- The first request of each arrival position: one position delivers at most one operation in a cycle (R78). -/
def onePerPosition (rs : List Req) : List Req :=
  rs.foldl (fun a r => if a.any (fun x => x.position == r.position) then a else a ++ [r]) []

/-- The version units take the operations that have reached them in this cycle (R78, R88). -/
def State.runUnits (s : State) : State :=
  if s.ord.atUnit.isEmpty then s
  else
    let rs := (s.ord.atUnit.filterMap s.req).filter (fun r => r.fixed.isNone)
    let now := (List.range 4).map (fun q => onePerPosition (rs.filter (fun r => r.unit == some q)))
    let s := s.setOrd { s.ord with atUnit := (rs.filter (fun r => !now.any (fun l => l.contains r))).map (·.id) }
    (now.zipIdx).foldl (fun s x => s.unitLoop x.1.length x.2 x.1) s

/-- One place of a channel: true when the channel stops there. -/
def State.pumpItem (s : State) (id n : Nat) : Bool × State :=
  match s.req id with
  | none => (false, s)
  | some r =>
    if r.fixed.isSome then (false, s)
    else match r.pieces[n]? with
      | none => s.applyVop r
      | some p =>
        match p.state with
        | .waiting => s.attempt r n p
        | .missed => (true, s)
        | .held _ _ => (true, s)
        | _ => (false, s)

/-- Attempts the pieces of a channel in issue order until one must wait (R51, R69, R73). -/
def State.pumpChan (s : State) (c : Chan) : State :=
  let items := (s.ord.reqs.filter (fun r => r.chan = c)).flatMap (fun r =>
    if r.pieces.isEmpty then [(r.id, 0)] else (List.range r.pieces.length).map (fun i => (r.id, i)))
  (items.foldl (fun (a : Bool × State) x => if a.1 then a else a.2.pumpItem x.1 x.2) (false, s)).2

/-! ### Completing (R65 promise 3, R73, R282) -/

/-- PMASK of the RDATA packet at `off`: the failed sectors it carries (Table 10-7). -/
def pmaskOf (failed : List Nat) (off : Nat) : Nat :=
  failed.foldl (fun m i => if off / 64 ≤ i ∧ i < off / 64 + 32 then m ||| 2 ^ (i - off / 64) else m) 0

/-- The RDATA packets of a read (R282). -/
def rdataPackets (k : Packet) (len : Nat) (data : List (BitVec 8)) (failed : List Nat) : List Packet :=
  let n := (len + 2047) / 2048
  (List.range n).map (fun i =>
    { dst := k.src, src := k.dst, typ := 0x10, vc := 1, tag := k.tag, ch := k.ch, len := BitVec.ofNat 19 len,
      off := BitVec.ofNat 19 (2048 * i), last := i + 1 = n,
      w3 := BitVec.ofNat 64 (pmaskOf failed (2048 * i) * 2 ^ 32),
      payload := sliceBytes data (2048 * i) (min 2048 (len - 2048 * i)),
      ndata := BitVec.ofNat 4 ((min 2048 (len - 2048 * i) + 255) / 256) })

/-- Zeroes the failed sectors of read data whose first byte lies `base` bytes into what the sectors are counted from (R73, R94). -/
def zeroSectors (base : Nat) (data : List (BitVec 8)) (failed : List Nat) : List (BitVec 8) :=
  failed.foldl (fun d i =>
    let lo := 64 * i - base
    let n := min (64 * i + 64 - base) d.length - lo
    d.take lo ++ List.replicate n 0 ++ d.drop (lo + n)) data

/-- Station `k` = QUARTER × 324 + site. -/
def State.stn (s : State) (k : Nat) : Stn := smGet {} s.stns k

/-- Feeds the units that watch the pool path of a station the bytes of its completed request (Table 14-6, KIND 0). -/
def State.feedStation (s : State) (r : Req) (bs : List (BitVec 8)) (poison : Bool) : State :=
  match r.chan.eng with
  | .station q i =>
    if r.kind.isRead || r.kind.isWrite then
      s.chkFeed { kind := 0, q := q, idx := i, dir := if r.kind.isWrite then 1 else 0, ch := r.chan.ch, ctx := some r.chan.ctx,
                  poison := poison } bs
    else s
  | _ => s

/-- Delivers a complete request's outcome to where it goes. -/
def State.finish (s : State) (r : Req) : State :=
  let s := s.setOrd { s.ord with reqs := s.ord.reqs.filter (fun x => x.id ≠ r.id) }
  let failed := if r.fixed.isSome then [] else r.failures
  match r.dest with
  | .port p k =>
    if r.mute then s
    else
      let ks := if r.kind.isRead && r.fixed.isNone then rdataPackets k r.len (zeroSectors r.base r.data failed) failed else []
      (ks ++ [r.outcome.packet k]).foldl (fun s k => s.sendReply p (some r.chan.ctx) r.marked { k with epoch := s.epoch }) s
  | .mcast rid =>
    let ok := r.outcome.status == .ok
    { s with hub := { s.hub with reports := s.hub.reports.map (fun x =>
        if x.rid = rid then { x with locals := x.locals - 1, delivered := x.delivered + (if ok then 1 else 0),
                                     refused := x.refused + (if ok then 0 else 1) } else x)
                                 mcPool := s.hub.mcPool.filter (fun x => x.1 ≠ rid) } }
  | d =>
    let s := s.feedStation r (if r.kind.isRead then (if r.fixed.isSome then List.replicate r.len 0 else zeroSectors r.base r.data failed) else r.data)
      (r.kind.isRead && (r.fixed.isSome || !failed.isEmpty))
    -- what a stopped station, an abandoned load or an abandoned chain no longer waits for is discarded, and so is the outcome of a slot's write (R195)
    let gone := match d with
      | .station k n => !(s.stn k).ops.any (fun o => o.serial == n)
      | .refill k => (s.stn k).refill.isNone
      | .load n _ => !s.lm.loads.any (fun x => x.serial == n)
      | .chain n => !s.lm.chains.any (fun x => x.serial == n)
      | .slot _ => true
      | _ => false
    if gone then s else s.setOrd { s.ord with done := s.ord.done ++ [⟨d, r.outcome, failed, zeroSectors r.base r.data failed⟩] }

/-- Completes the requests of a channel in issue order, stopping at the first that is not complete. -/
def State.drainChan : Nat → State → Chan → State
  | 0, s, _ => s
  | n + 1, s, c =>
    match s.ord.reqs.find? (fun r => r.chan == c) with
    | some r => if r.complete then (s.finish r).drainChan n c else s
    | none => s

/-- Channels with outstanding requests, in the order of their oldest. -/
def State.chans (s : State) : List Chan := (s.ord.reqs.map (·.chan)).eraseDups

/-- Ends the refusals whose earlier requests have all completed (R68). -/
def State.endRefusals (s : State) : State :=
  s.setOrd { s.ord with refusing := s.ord.refusing.filter (fun x => s.ord.reqs.any (fun r => r.chan == x.1 && r.id < x.2)) }

/-- Whether a channel refuses now (R68). -/
def State.refusing (s : State) (c : Chan) : Bool :=
  s.ord.refusing.any (fun x => x.1 == c && s.ord.reqs.any (fun r => r.chan == c && r.id < x.2))

/-- Moves every channel on as far as it goes, then acts on what the directory learned. -/
def State.pumpAll (s : State) : State :=
  let s := s.chans.foldl (fun s c => (s.pumpChan c).drainChan (s.ord.reqs.length + 1) c) s.issuePath
  let s := s.endRefusals.dropWaiters
  let s := s.coh.condemned.foldl (fun s i => s.declareDead i 1 true) { s with coh := { s.coh with condemned := [] } }
  s.sendBAcks

/-! ### Admission (R35, R64, R67, R68) -/

/-- Adds a request to its channel. -/
def State.addReq (s : State) (r : Req) : State :=
  s.setOrd { s.ord with reqs := s.ord.reqs ++ [{ r with id := s.ord.nextId }], nextId := s.ord.nextId + 1 }

/-- Outstanding requests of a channel and of a port ingress engine (R67). -/
def State.chanCount (s : State) (c : Chan) : Nat := (s.ord.reqs.filter (fun r => r.chan == c && !r.refused)).length
def State.portCount (s : State) (e : Engine) : Nat := (s.ord.reqs.filter (fun r => r.chan.eng == e && !r.refused)).length

/-- Admits a request of a port or station: refused BUSY while its channel or ingress engine is full, where its policer drops it, or where it is a
call that admission refuses BUSY (`busy`); and ACCESS_DENIED when its TAG is outstanding (R67, R68, R305). A drop is counted by the policer. -/
def State.admitReq (s : State) (r : Req) (drop : Bool) (busy : Bool := false) : State :=
  let c := r.chan
  let full := 256 ≤ s.chanCount c || (match c.eng with | .port _ => 4096 ≤ s.portCount c.eng | _ => false)
  if s.refusing c then s.addReq { r with refused := true, fixed := some .busy, pieces := [] }
  else if full || drop || busy then
    let s := if full || busy then s.count F.XLT_ORD_CNT_REFUSE 1 c.eng.quarter else s
    let id := s.ord.nextId
    let s := s.addReq { r with refused := true, fixed := some .busy, pieces := [] }
    s.setOrd { s.ord with refusing := s.ord.refusing ++ [(c, id)] }
  else if s.ord.reqs.any (fun x => x.chan == c && x.tag == r.tag) then
    s.addReq { r with fixed := some .accessDenied, pieces := [] }
  else s.addReq r

/-- The pieces of a plain request at an address of its context, or at a handle (R34, R44). -/
def State.plainPieces (s : State) (c addr len : Nat) (hdl : Bool := false) : List Piece :=
  (splitPages (pageCount len) 0 addr len).map (fun x =>
    match s.resolveAt c addr x.1 hdl with
    | some (g, o) => { off := x.1, len := x.2.2, seg := g, page := o / 65536, inPage := o % 65536 }
    | none => { off := x.1, len := x.2.2, seg := 8, page := 0, inPage := 0, state := .done, status := .accessDenied })

/-- The pieces of a versioned request at an offset of its region (R86). -/
def versionPieces (addr len : Nat) : List Piece :=
  (splitPages (pageCount len) 0 addr len).map (fun x =>
    { off := x.1, len := x.2.2, seg := 0, page := x.2.1 / 65536, inPage := x.2.1 % 65536 })

/-- What a cycle decides at its end, once each (Tables 2-5, 3-5, 3-8). -/
def State.decideLate (s : State) (x : Late) : State :=
  if s.ord.late.contains x then s else s.setOrd { s.ord with late := s.ord.late ++ [x] }

/-! ### Link loss (R70) -/

/-- The target's side of a lost link: unstarted requests of the port are dropped, started ones complete here without a completion; and
the issuer's side: pieces sent over the port complete LINK_LOST. -/
def State.linkLostPool (s : State) (p : Nat) : State :=
  let mine (r : Req) : Bool := r.chan.eng == .port p
  let started (r : Req) : Bool := r.pieces.any (·.begun) || r.fixed.isSome
  let reqs := (s.ord.reqs.filter (fun r => !mine r || started r)).map (fun r =>
    -- a started request completes here without a completion; bytes that its lost packets carried are not there to be written
    let r := if mine r then { r with mute := true, pieces := r.pieces.map (fun x =>
        if x.unstarted && r.kind.isWrite && r.have_ < x.off + x.len then x.fail .linkLost else x) } else r
    { r with pieces := r.pieces.map (fun x => match x.state with
        | .remote q _ => if q = p then { x with state := .done, status := .linkLost, failed := sectorsOf (r.base + x.off) x.len } else x
        | _ => x) })
  ({ s with ord := { s.ord with reqs := reqs, refusing := s.ord.refusing.filter (fun x => x.1.eng != .port p) } } : State).dropWaiters

end Sys2Proof.Machine
end

