-- ==== Sys2Proof/Machine/IntcOps.lean ====
section
/-!
DEFINITION. The interrupt controller as the other units use it: conditions of level sources, what is pending, whether a group may deliver, and
its completion (R352, R354, R355).
-/
namespace Sys2Proof.Machine
open Sys2Proof

def State.setIntc (s : State) (x : Intc) : State := { s with intc := x }

/-- A record of quarter `q` waits for log space (R53). -/
def State.recordWaits (s : State) (q : Nat) : Bool := s.logFull && s.xlt.recQ.any (fun r => r.q == q)

/-- The cap as it acts, W (Table 15-13). -/
def State.capW (s : State) : Nat := max 400 (min 2100 (s.fld F.PWR_CTL_CAP_W))

/-- A reading above its warning limit (R380). -/
def State.dieWarn (s : State) : Bool := s.fld F.PWR_THERM_DIE_WARN_C < s.fld F.PWR_TEMP_DIE_MAX
def State.stkWarn (s : State) : Bool := s.fld F.PWR_THERM_STK_WARN_C < s.fld F.PWR_TEMP_STK_MAX

/-- The condition of a level source (Tables 14-1 and 15-10); the sources of a quarter under reset are held at 0 (Table 14-3). -/
def State.levelCond (s : State) (n : Nat) : Bool :=
  let up := match srcQuarter n with | some q => !s.quarterDown q | none => true
  up && srcLevel n &&
    (if n < 0x40 then s.regVal .STK_BKT_OVF (n / 4) != 0
     else if n < 0x140 then
       let q := (n - 0x40) / 0x40
       let k := (n - 0x40) % 0x40
       if k = 2 then s.recordWaits q else s.fld F.MOV_CH_STAT_STATE q (k - 16) == 3
     else if n < 0x1B0 then s.flag F.PORT_CRD_STAT_PEND ((n - 0x140) / 8)
     else if n = 0x1C1 then !s.tl.events.isEmpty
     else if n = 0x1C5 then s.power.tamper
     else if n = 0x1D0 then s.flag F.PWR_STAT_UV
     else if n = 0x1D1 then s.flag F.PWR_STAT_OV
     else if n = 0x1D2 then s.capW < s.fld F.PWR_STAT_P_IN_W
     else if n = 0x1D3 then s.flag F.PWR_LEVEL_LIMIT
     else if n = 0x1D7 then s.dieWarn
     else s.stkWarn)

/-- A source is in the snapshot of a group. -/
def State.inService (s : State) (n : Nat) : Bool := s.intc.snap.any (fun e => e.2.contains n)

/-- A source is pending: a level source while its condition holds and no snapshot took it (R352, R355), and while its quarter resets if it was
pending before (Table 14-3). -/
def State.srcPending (s : State) (n : Nat) : Bool :=
  if srcLevel n then (s.levelCond n || s.intc.pend.getLsbD n) && !s.inService n else s.intc.pend.getLsbD n

/-- Level sources of quarter `q`. -/
def levelsOf (q : Nat) : List Nat := (List.range 0x1B0).filter (fun n => srcLevel n && srcQuarter n == some q)

/-- The level sources of a quarter whose reset begins keep their pending bits, and follow their conditions again when it is back (Table 14-3). -/
def State.keepLevels (s : State) (q : Nat) : State :=
  s.setIntc { s.intc with pend := ((levelsOf q).filter s.srcPending).foldl (fun p n => p ||| BitVec.ofNat 1024 (2 ^ n)) s.intc.pend }
def State.freeLevels (s : State) (q : Nat) : State :=
  s.setIntc { s.intc with pend := (levelsOf q).foldl (fun p n => p &&& ~~~BitVec.ofNat 1024 (2 ^ n)) s.intc.pend }

/-- The enabled sources of group `g`. -/
def State.groupSrcs (s : State) (g : Nat) : List Nat :=
  let o := RegName.INTC_SRC_CFG.addr 0 0 0
  s.regs.filterMap (fun e =>
    if o ≤ e.1 ∧ e.1 < o + 8192 ∧ F.INTC_SRC_CFG_EN.of e.2.toNat = 1 ∧ F.INTC_SRC_CFG_GRP.of e.2.toNat = g then some ((e.1 - o) / 8)
    else none)

/-- A group has a pending enabled source. -/
def State.groupReady (s : State) (g : Nat) : Bool := (s.groupSrcs g).any s.srcPending

/-- A group may deliver (R354). -/
def State.groupDelivers (s : State) (g : Nat) : Bool :=
  s.groupReady g && !s.intc.serv.getLsbD g && smGet 0 s.intc.holdEnd g ≤ s.now && !s.flag F.INTC_CTL_GDIS && !s.intc.err.getLsbD g

def bit32 (g : Nat) : BitVec 32 := BitVec.ofNat 32 (2 ^ g)

/-- A group completes: it leaves service, its snapshot is over, and its cores no longer have it (R355). -/
def State.completeGroup (s : State) (g : Nat) : State :=
  if s.intc.serv.getLsbD g then
    s.setIntc { s.intc with
      serv := s.intc.serv &&& ~~~bit32 g, snap := smSet [] s.intc.snap g [], retryAt := smSet 0 s.intc.retryAt g 0
      core0 := s.intc.core0 &&& ~~~bit32 g, core1 := s.intc.core1 &&& ~~~bit32 g }
  else s

/-- The target and the completion mode of a group's last delivery (Tables 14-2 and 14-3). -/
def State.sentTgt (s : State) (g : Nat) : Nat := F.INTC_GRP_CFG_TGT.of (smGet (0, 0) s.intc.sent g).1
def State.sentAutoc (s : State) (g : Nat) : Bool := F.INTC_GRP_CFG_AUTOC.of (smGet (0, 0) s.intc.sent g).1 == 1

/-- The call of a group has ended (Table 14-2). -/
def State.callGroup (s : State) (g : Option Nat) : State :=
  match g with
  | some g => s.completeGroup g
  | none => s

end Sys2Proof.Machine
end

