-- ==== Sys2Proof/Machine/StnOps.lean ====
section
/-!
DEFINITION. Stations and their weft switches as the other units use them: sites, machine state, asynchronous work and its stop, routes (R173 to
R183, R195, R201, R207, R241).
-/
namespace Sys2Proof.Machine
open Sys2Proof

/-! ### Sites (R173, R174) -/

def siteKey (x : SiteId) : Nat := x.q.val * 324 + x.i.val
def siteQ (k : Nat) : Nat := k / 324
def siteI (k : Nat) : Nat := k % 324
def siteRow (k : Nat) : Nat := k % 324 / 18
def siteCol (k : Nat) : Nat := k % 324 % 18

def State.setStn (s : State) (k : Nat) (t : Stn) : State := { s with stns := smSet {} s.stns k t }
def State.updStn (s : State) (k : Nat) (f : Stn → Stn) : State := s.setStn k (f (s.stn k))

/-- STATE of a site (Table 7-6). -/
def State.siteState (s : State) (k : Nat) : Nat := s.fld F.STN_SITE_STATE (siteQ k) (siteI k)
/-- Leaving STATE 6 clears WDROP, and leaving STATE 6 or 7 clears CAUSE (Table 7-15). -/
def State.setSiteState (s : State) (k v : Nat) : State :=
  let old := s.siteState k
  let s := if (old = 6 ∨ old = 7) ∧ v < 6 then s.setFld F.STN_SITE_CAUSE 0 (siteQ k) (siteI k) else s
  let s := if old = 6 ∧ v ≠ 6 then s.setFld F.STN_SITE_WDROP 0 (siteQ k) (siteI k) else s
  s.setFld F.STN_SITE_STATE v (siteQ k) (siteI k)
def State.siteCtx (s : State) (k : Nat) : Nat := s.fld F.STN_SITE_CTX (siteQ k) (siteI k)
def State.siteCause (s : State) (k : Nat) : Nat := s.fld F.STN_SITE_CAUSE (siteQ k) (siteI k)
/-- Source of a site's events (Table 1-9). -/
def siteSrc (k : Nat) : Nat := srcId 0 (siteQ k) (siteI k)
def siteEng (k : Nat) : Engine := .station (siteQ k) (siteI k)
def State.siteChan (s : State) (k ch : Nat) : Chan := ⟨s.siteCtx k, siteEng k, ch⟩

/-- The switch of a site is stopped: the site is retired, or fenced for a hop or domain fault (R176). -/
def State.switchOff (s : State) (k : Nat) : Bool :=
  s.siteState k == 7 || (s.siteState k == 6 && (s.siteCause k == 2 || s.siteCause k == 3))

/-- The neighbour of a site in direction `d` (0 = N, 1 = E, 2 = S, 3 = W), inside the quarter (R173). -/
def neighbour (k d : Nat) : Option Nat :=
  match d with
  | 0 => if siteRow k = 0 then none else some (k - 18)
  | 1 => if siteCol k = 17 then none else some (k + 1)
  | 2 => if siteRow k = 17 then none else some (k + 18)
  | _ => if siteCol k = 0 then none else some (k - 1)

/-! ### Machine state (Table 8-1, R180, R202) -/

def Stn.sreg (t : Stn) (n : Nat) : BitVec 64 := if n = 0 then 0 else smGet 0 t.s n
def Stn.setS (t : Stn) (n : Nat) (v : BitVec 64) : Stn := if n = 0 then t else { t with s := smSet 0 t.s n v }
/-- p0 reads as all ones; writes to it are discarded. -/
def Stn.preg (t : Stn) (n : Nat) : BitVec 64 := if n = 0 then BitVec.allOnes 64 else smGet 0 t.p n
def Stn.setP (t : Stn) (n : Nat) (v : BitVec 64) : Stn := if n = 0 then t else { t with p := smSet 0 t.p n v }
/-- Lane `k` of v`r`. -/
def Stn.lane (t : Stn) (r k : Nat) : BitVec 32 := smGet 0 t.v (64 * r + k)
def Stn.setLane (t : Stn) (r k : Nat) (v : BitVec 32) : Stn := { t with v := smSet 0 t.v (64 * r + k) v }
/-- The accumulator holds no subnormals: one becomes the zero of its sign (R190; for the instructions that store a lane or a scaled element too,
DEDUCED, log 143). -/
def flushCell (v : BitVec 32) : BitVec 32 := if v.extractLsb' 23 8 = 0 then v &&& 0x80000000#32 else v

/-- Element of acc`a`. -/
def Stn.cell (t : Stn) (a i j : Nat) : BitVec 32 := smGet 0 t.acc ((16 * a + i) * 64 + j)
def Stn.setCell (t : Stn) (a i j : Nat) (v : BitVec 32) : Stn := { t with acc := smSet 0 t.acc ((16 * a + i) * 64 + j) (flushCell v) }

/-- Bytes of the local store. Loom load drops every byte with the written bits, so a block not written since reads as zeros (R180). -/
def Stn.lsRead (t : Stn) (a n : Nat) : List (BitVec 8) := go t.ls a n
where
  go (m : List Host.Cell) : Nat → Nat → List (BitVec 8)
    | _, 0 => []
    | a, n + 1 => smGet 0 m a :: go m (a + 1) n

/-- Stores bytes and sets the written bits of their blocks. -/
def Stn.lsWrite (t : Stn) (a : Nat) (bs : List (BitVec 8)) : Stn :=
  match bs with
  | [] => t
  | b :: rest => ({ t with ls := smSet 0 t.ls a b, written := smSet false t.written (a / 1024) true } : Stn).lsWrite (a + 1) rest

/-- Machine state as loom load leaves it (Table 8-1): what is marked zeroed is zero, the queue, tickets, statuses and scoreboard are
empty. -/
def Stn.cleared (t : Stn) (now : Nat) : Stn := { sw := t.sw, serial := t.serial, loadAt := now }

/-! ### Range scoreboard (R207) -/

/-- The tracked range of `n` bytes at `a`, in whole lines. -/
def lineRange (a n : Nat) (dst : Bool) (x : RangeOf) : Range := ⟨a / 64 * 64, (a + n + 63) / 64 * 64, dst, x⟩
/-- A write of the bytes must stall. -/
def Stn.writeStalls (t : Stn) (a n : Nat) : Bool := t.ranges.any (fun r => r.lo < a + n && a < r.hi)
/-- A read of the bytes must stall. -/
def Stn.readStalls (t : Stn) (a n : Nat) : Bool := t.ranges.any (fun r => r.dst && r.lo < a + n && a < r.hi)
def Stn.freeRange (t : Stn) (x : RangeOf) : Stn := { t with ranges := t.ranges.filter (fun r => r.of != x) }

/-! ### Routes (R241) -/

def routeV (r : Nat) : Bool := r.testBit 63
def routeRx (r : Nat) : Bool := r.testBit 62
def rxSite (r : Nat) : Nat := bits r 0 9
def rxRoute (r : Nat) : Nat := bits r 9 4

/-- Hops of a TX entry from leg `k` on: direction, and whether the site the hop enters takes a copy. -/
def routeHops (r : Nat) : Nat → Nat → List (Nat × Bool)
  | 0, _ => []
  | n + 1, k =>
    let leg := bits r (8 * k) 8
    let cnt := bits leg 2 5
    if cnt = 0 then [] else List.replicate cnt (bits leg 0 2, leg.testBit 7) ++ routeHops r n (k + 1)

/-- The hops of a route with the delivery at the end of the path (R241). -/
def txPath (r : Nat) : List (Nat × Bool) :=
  match (routeHops r 6 0).reverse with
  | [] => []
  | h :: rest => ((h.1, true) :: rest).reverse

/-- The sites a path enters, in order; none when it leaves the quarter. -/
def pathSites : Nat → List (Nat × Bool) → Option (List (Nat × Bool))
  | _, [] => some []
  | k, h :: rest =>
    match neighbour k h.1 with
    | none => none
    | some j => (pathSites j rest).map ((j, h.2) :: ·)

/-- The sites a TX entry of site `k` delivers to. -/
def routeDests (k r : Nat) : List Nat :=
  match txPath r with
  | [] => [k]
  | hs => ((pathSites k hs).getD []).filterMap (fun x => if x.2 then some x.1 else none)

/-! ### Stopping a station (R195) -/

/-- The unstarted requests of a station vanish without a completion; of those partly started the rest is not started (R195 steps 3
and 4). -/
def State.dropUnstarted (s : State) (k : Nat) : State :=
  let mine (r : Req) : Bool := r.chan.eng == siteEng k
  let begun (r : Req) : Bool := r.pieces.any (·.begun) && !r.complete
  (s.setOrd { s.ord with
    reqs := (s.ord.reqs.filter (fun r => !mine r || begun r)).map (fun r => if mine r then r.failAll .busy else r)
    done := s.ord.done.filter (fun d => match d.dest with | .station j _ => j != k | .refill j => j != k | _ => true) }).dropWaiters

/-- Steps 1 to 5 of R195 at one station: its sequencer stops, its array work, unstarted requests, sends and receives are over. -/
def State.stopStn (s : State) (k : Nat) : State :=
  let s := s.updStn k (fun t =>
    { t with run := false, blocked := false, ops := [], sends := [], recvs := [], queue := [], ranges := [], refill := none
             tickets := t.tickets.foldl (fun m e => smSet {} m e.1 { e.2 with op := none }) [] })
  s.dropUnstarted k

/-- Nothing the station started is outstanding. -/
def State.stnDrained (s : State) (k : Nat) : Bool :=
  let t := s.stn k
  t.ops.isEmpty && t.queue.isEmpty && t.sends.isEmpty && !s.ord.reqs.any (fun r => r.chan.eng == siteEng k)

/-- Counts `n` flits dropped towards a fenced site (R182). -/
def State.dropFlits (s : State) (k n : Nat) : State := s.count F.STN_SITE_WDROP n (siteQ k) (siteI k)

end Sys2Proof.Machine
end

