-- ==== Sys2Proof/Machine/LoomOps.lean ====
section
/-!
DEFINITION. Looms as the other units use them: slots, replies, the end of a call and of its joint partners, pause and resume, reset, traps,
and fences (R195, R232, R238, R247 to R252, R257).
-/
namespace Sys2Proof.Machine
open Sys2Proof

def State.setLm (s : State) (x : Looms) : State := { s with lm := x }
def State.loom (s : State) (n : Nat) : LoomSt := smGet {} s.lm.looms n
def State.setLoom (s : State) (n : Nat) (l : LoomSt) : State := s.setLm { s.lm with looms := smSet {} s.lm.looms n l }
def State.updLoom (s : State) (n : Nat) (f : LoomSt → LoomSt) : State := s.setLoom n (f (s.loom n))
def State.updDraft (s : State) (n d : Nat) (f : Draft → Draft) : State :=
  s.updLoom n (fun l => { l with drafts := l.drafts.zipIdx.map (fun x => if x.2 = d then f x.1 else x.1) })

/-- STATE of a loom (Table 9-2). -/
def State.loomState (s : State) (n : Nat) : Nat := s.fld F.STN_LOOM_STAT_STATE 0 n
def State.setLoomState (s : State) (n v : Nat) : State := s.setFld F.STN_LOOM_STAT_STATE v 0 n
def State.loomErr (s : State) (n : Nat) (st : Status) : State := s.setFld F.STN_LOOM_STAT_ERR st.code 0 n
def State.loomCtx (s : State) (n : Nat) : Nat := s.fld F.STN_LOOM_CTL_CTX 0 n
def State.loomEp (s : State) (n : Nat) : Nat := s.fld F.STN_LOOM_CTL_EP 0 n
def State.loomSet (s : State) (n : Nat) : Nat := s.fld F.STN_LOOM_CTL_SET 0 n

/-- Looms that are not EMPTY or FAILED. -/
def State.loomLive (s : State) (n : Nat) : Bool := let x := s.loomState n; 1 ≤ x && x ≤ 5

/-- The looms of the loom set of `n`: itself, and those with the same SET, unless that is 0. -/
def State.loomMates (s : State) (n : Nat) : List Nat :=
  if s.loomSet n = 0 then [n] else (List.range 64).filter (fun m => s.loomLive m && s.loomSet m == s.loomSet n)

/-- Sites of draft `d` that have a stage program. -/
def LoomSt.stages (l : LoomSt) (d : Nat) : List Nat := (l.stns.filter (fun e => e.draft == d)).map (·.site)

/-! ### Pool accesses of the loom unit (R237, R248, R252) -/

/-- An access of the loom unit for loom `n` at a handle, in the loom's context, with the loom's endpoint where its segment is REMOTE. The accesses of
one loom go in order (log 56). -/
def State.loomReq (s : State) (n : Nat) (kind : ReqKind) (a len : Nat) (data : List (BitVec 8)) (dest : Dest) : State :=
  let c := s.loomCtx n
  s.addReq { id := 0, chan := ⟨c, .loom n, 0⟩, tag := s.ord.nextId % 65536, kind := kind, seg := bits a 56 3, addr := a, len := len,
             data := if kind.isWrite then data else List.replicate len 0, have_ := len, pieces := s.plainPieces c a len true, ep := s.loomEp n,
             dest := dest }

/-- The handle `o` bytes past another; no handle where its offset would leave the segment's 2^56 bytes (R44). -/
def hdlAdd (h o : Nat) : Nat := if h % 2 ^ 56 + o < 2 ^ 56 then h + o else 0

/-! ### Slots (R245, R247, R252) -/

def SeqSlot.word (x : SeqSlot) : Nat := x.st + x.draft * 2 ^ 2 + x.retries * 2 ^ 16 + x.tag * 2 ^ 32

/-- Rewrites word 0 of a slot, in the loom's record and by a write to its table (R252). -/
def State.setSlot (s : State) (n i : Nat) (x : SeqSlot) : State :=
  let old := smGet {} (s.loom n).slots i
  let s := s.updLoom n (fun l => { l with slots := smSet {} l.slots i x })
  let used := s.fld F.STN_LOOM_STAT_SEQ_USED 0 n
  let used := used + (if x.st ≠ 0 then 1 else 0) - (if old.st ≠ 0 then 1 else 0)
  (s.setFld F.STN_LOOM_STAT_SEQ_USED used 0 n).loomReq n .write (hdlAdd (s.regVal .STN_LOOM_SEQT 0 n) (256 * i)) 8 (toBytes 8 x.word) (.slot n)

/-- Slots named by a mask. -/
def slotsOf (mask : Nat) : List Nat := (List.range 256).filter mask.testBit

/-- The slots of a call leave IN_CALL: to RETRY with the retries counted, or to IDLE. -/
def State.freeSlots (s : State) (c : Call) (retry : Bool) : State :=
  (slotsOf c.slots).foldl (fun s i =>
    let x := smGet {} (s.loom c.loom).slots i
    s.setSlot c.loom i (if retry then { x with st := 2, retries := min 65535 (x.retries + 1) } else { x with st := 0 })) s

/-! ### Replies (R247, R248) -/

/-- The completion message of a call (Table 9-7). -/
def State.cmsg (s : State) (c : Call) (st : Status) (ep : Nat) : Packet :=
  let ab := c.cmpl.getD (0, 0)
  let w0 := c.tag + st.code * 2 ^ 16 + c.loom * 2 ^ 20 + c.entry * 2 ^ 26 + (if c.cmpl.isSome then 2 ^ 30 else 0)
  { dst := BitVec.ofNat 20 ep, src := BitVec.ofNat 20 (s.loomEp c.loom), typ := 0x12, vc := 4, inl := 1, tag := BitVec.ofNat 16 c.tag,
    ch := BitVec.ofNat 3 c.ch, payload := wordBytes [w0, ab.1, ab.2, min (2 ^ 32 - 1) (s.now - c.start)] }

/-- Sends a completion message. -/
def State.sendCmsg (s : State) (c : Call) (st : Status) (ep : Nat) : State :=
  (s.originate (some (s.loomCtx c.loom)) (s.cmsg c st ep)).2

/-- Where a status other than OK goes (Table 9-6). -/
def Call.failTo (c : Call) : Nat := if c.failv then c.failEp else c.repEp

/-- The reply that RMODE selects; a chained call starts to read its image (R247, R248). The call of an interrupt completes its group. -/
def State.replyCall (s : State) (c : Call) (st : Status) : State :=
  let s := s.callGroup c.group
  if c.rmode = 0 then s
  else if st ≠ .ok then s.sendCmsg c st c.failTo
  else if c.rmode = 1 then s.sendCmsg c st c.repEp
  else
    let a := (c.cmpl.getD (0, 0)).1
    let n := s.lm.serial
    let s := s.setLm { s.lm with serial := n + 1, chains := s.lm.chains ++ [⟨n, c, a, none, none⟩] }
    s.loomReq c.loom .read a 64 [] (.chain n)

/-- A chained call did not go: its completion message carries the status (R248). -/
def State.chainFails (s : State) (x : Chain) (st : Status) : State :=
  (s.setLm { s.lm with chains := s.lm.chains.erase x }).sendCmsg x.call st x.call.failTo

/-- Chained calls sent over a port whose link is lost (R70). -/
def State.chainsLost (s : State) (p : Nat) : State :=
  (s.lm.chains.filter (fun x => x.port == some p)).foldl (fun s x => s.chainFails x .linkLost) s

/-- The answer to a chained call sent to another device: a completion of its channel and TAG (R245, R248). -/
def State.chainAnswer (s : State) (k : Packet) : State :=
  match s.lm.chains.find? (fun x => match x.sent with
      | some p => p.tag == k.tag && p.ch == k.ch && p.src == k.dst
      | none => false) with
  | some x =>
    let st := statusOf (bits (wordAt k.payload 0) 20 4)
    if st = .ok then s.setLm { s.lm with chains := s.lm.chains.erase x } else s.chainFails x st
  | none => s

/-! ### Pause and resume (R227, R257) -/

/-- A loom whose every station has stopped or paused is PAUSED. -/
def State.checkPaused (s : State) (n : Nat) : State :=
  if s.loomState n = 3 ∧ (s.loom n).sites.all (fun k => 4 ≤ s.siteState k) then s.setLoomState n 4 else s

/-- A pause of a loom starts: stations that wait for a call or are blocked pause in place. -/
def State.pauseLoom (s : State) (n : Nat) : State :=
  if s.loomState n = 2 ∨ s.loomState n = 5 ∨ s.loomState n = 3 then
    let s := (s.loom n).sites.foldl (fun s k =>
      let s := s.updStn k (fun t => { t with pausing := true })
      if s.siteState k = 3 ∧ (!(s.stn k).run ∨ (s.stn k).blocked) then s.setSiteState k 4 else s) (s.setLoomState n 3)
    s.checkPaused n
  else s

/-- A loom returns to ACTIVE, or to DEGRADED with a stage it lost. -/
def State.resumeLoom (s : State) (n : Nat) : State :=
  if s.loomState n = 3 ∨ s.loomState n = 4 then
    let l := s.loom n
    let s := l.sites.foldl (fun s k =>
      let s := s.updStn k (fun t => { t with pausing := false })
      if s.siteState k = 4 then s.setSiteState k 3 else s) (s.setLoomState n (if l.drafts.any (·.lost) then 5 else 2))
    s.updLoom n (fun l => { l with byCmd := false })
  else s

/-- A station that waits for a call: in STATE 3, or in STATE 4 while its loom pauses. -/
def State.awaitCall (s : State) (k : Nat) : State :=
  let s := s.updStn k (fun t => { t with run := false, blocked := false })
  s.setSiteState k (if (s.stn k).pausing then 4 else 3)

/-! ### Ends of calls (R247, R249, R250) -/

def State.setRun (s : State) (n d : Nat) (b : Bool) : State :=
  s.setFld F.STN_LOOM_STAT_RUN (setBits (s.fld F.STN_LOOM_STAT_RUN 0 n) d 1 b.toNat) 0 n

/-- A queued call ends without having run. -/
def State.endQueued (s : State) (c : Call) (st : Status) : State :=
  let s := s.freeSlots c (st == .seqRetry)
  let s := if st = .seqRetry then s.count F.STN_LOOM_CNT_RETRY 1 0 c.loom else s
  s.replyCall { c with start := s.now } st

/-- A mend of a loom of the set is not over. -/
def State.mending (s : State) (n : Nat) : Bool := s.lm.mends.any (fun m => (s.loomMates n).contains m.loom)

/-- The loom set pauses for a mend: a call that a trap ends then waits for the resume (Table 9-11). -/
def State.mendPause (s : State) (n : Nat) : Bool := (s.loomState n == 3 || s.loomState n == 4) && s.mending n

/-- Marks the running call of a draft as ending, its stations stopped: `hard` as steps 1 to 5 of R195, else at the instruction boundary with
their work going on. A call that a trap is ending keeps its status at a second trap; a hard stop gives it its own, but for SEQ_RETRY, which
stays (R250, R257; log 150). -/
def State.stopCall (s : State) (n d : Nat) (st : Status) (hard : Bool) : State :=
  let l := s.loom n
  match l.drafts[d]? with
  | some x =>
    match x.run with
    | some c =>
      if !hard && c.ending.isSome then s
      else
        let st := if c.ending = some .seqRetry then .seqRetry else st
        let held := !hard && s.mendPause n
        let s := (l.stages d).foldl (fun s k =>
          if s.siteState k = 5 ∨ s.siteState k = 6 then s
          else if hard then s.stopStn k else s.updStn k (fun t => { t with run := false, blocked := false })) s
        s.updDraft n d (fun x => { x with run := some { c with ending := some st, held := held } })
    | none => s
  | none => s

/-- A call is part of a joint call: it has a JID, and its loom is of a set (R250). -/
def State.joint (s : State) (c : Call) : Bool := c.jid ≠ 0 && s.loomSet c.loom ≠ 0

/-- The joint partners of a call that ended other than OK stop, and those that queue end (R250). -/
def State.stopJoint (s : State) (c : Call) (st : Status) : State :=
  if st = .ok ∨ !s.joint c then s
  else
    (s.loomMates c.loom).foldl (fun s m =>
      (List.range 16).foldl (fun s d =>
        match (s.loom m).drafts[d]? with
        | some x =>
          let s := if (x.run.map (·.jid)) = some c.jid then s.stopCall m d st true else s
          let gone := x.queue.filter (fun q => q.jid == c.jid)
          let s := s.updDraft m d (fun x => { x with queue := x.queue.filter (fun q => q.jid != c.jid) })
          gone.foldl (fun s q => s.endQueued q st) s
        | none => s) s) s

/-- The running call of a draft ends (R247): slots, stations, reply, partners. -/
def State.endCall (s : State) (n d : Nat) (st : Status) : State :=
  let l := s.loom n
  match l.drafts[d]? with
  | some x =>
    match x.run with
    | some c =>
      let s := (s.updDraft n d (fun x => { x with run := none })).setRun n d false
      let s := (l.stages d).foldl (fun s k => if s.siteState k = 5 ∨ s.siteState k = 3 then s.awaitCall k else s) s
      let s := s.freeSlots c (st == .seqRetry)
      let s := if st = .seqRetry then s.count F.STN_LOOM_CNT_RETRY 1 0 n else s
      ((s.replyCall c st).checkPaused n).stopJoint c st
    | none => s
  | none => s

/-- Every station of a call has halted: it ends OK, a joint call at the end of the cycle (Table 9-8). -/
def State.endOk (s : State) (n d : Nat) (c : Call) : State :=
  if s.joint c then s.updDraft n d (fun x => { x with run := some { c with ending := some .ok } }) else s.endCall n d .ok

/-- The call of a draft that ends now: it is ending, what its stations started has completed, and no pause holds it. -/
def State.callEnds (s : State) (n d : Nat) : Option (Call × Status) :=
  match (s.loom n).drafts[d]? with
  | some x =>
    match x.run with
    | some c => match c.ending with
      | some st => if ((s.loom n).stages d).all s.stnDrained && !(c.held && s.mendPause n) then some (c, st) else none
      | none => none
    | none => none
  | none => none

/-- The joint calls that end in this cycle: partners that end with different statuses all report the highest in rank (Table 9-8). -/
def State.endJoint (s : State) : State :=
  let es := (s.lm.looms.map (·.1)).flatMap (fun n => (List.range 16).filterMap (fun d => (s.callEnds n d).bind (fun x =>
    if s.joint x.1 then some (n, d, x) else none)))
  es.foldl (fun s e =>
    let worst := (es.filter (fun y => y.2.2.1.jid == e.2.2.1.jid && s.loomSet y.1 == s.loomSet e.1)).foldl (fun a y => worseOf a y.2.2.2) .ok
    s.endCall e.1 e.2.1 worst) s

/-! ### Reset (R238) -/

/-- Every slot of a loom returns to IDLE. -/
def State.idleSlots (s : State) (n : Nat) : State := (s.loom n).slots.foldl (fun s e => s.setSlot n e.1 { e.2 with st := 0 }) s

/-- A chained call whose image is still being read is abandoned by a reset of its loom; its completion message carries the status of the reset
(Table 9-8). -/
def State.dropChains (s : State) (n : Nat) : State :=
  (s.lm.chains.filter (fun x => x.call.loom == n && x.sent.isNone)).foldl (fun s x => s.chainFails x .seqRetry) s

/-- A RESET whose stations have drained, chained calls that were sent going on (R248): its calls have ended, every slot is IDLE, every site idle, the loom EMPTY. -/
def State.finishReset (s : State) (n : Nat) : State :=
  let l := s.loom n
  let s := (List.range 16).foldl (fun (s : State) d =>
    match (s.loom n).drafts[d]? with
    | some x =>
      let s := s.updDraft n d (fun x => { x with queue := [] })
      x.queue.foldl (fun s c => s.endQueued c .busy) (s.endCall n d .seqRetry)
    | none => s) s
  let s := (s.idleSlots n).dropChains n
  -- a site whose self-test made it a spare meanwhile has left the loom (R197)
  let s := (l.sites.filter (fun k => (s.stn k).loom == some n)).foldl (fun s k =>
    let s := s.updStn k (fun t => { t with loom := none, pausing := false })
    let s := s.setFld F.STN_SITE_LV 0 (siteQ k) (siteI k)
    if s.siteState k < 6 then s.setSiteState k 1 else s) s
  -- a chosen replacement returns to spare (Table 9-11); flits of the loom leave the switches
  let s := (s.lm.mends.filter (fun m => m.loom == n)).foldl (fun s m =>
    match m.dst with
    | some r =>
      let s := (s.updStn r (fun t => { t with loom := none, pausing := false })).setFld F.STN_SITE_LV 0 (siteQ r) (siteI r)
      if s.siteState r < 6 then s.setSiteState r 0 else s
    | none => s) s
  let s : State := { s with stns := s.stns.foldl (fun m e => smSet {} m e.1
    { e.2 with sw := e.2.sw.foldl (fun q x => smSet [] q x.1 (x.2.filter (fun f => !l.sites.contains (siteQ e.1 * 324 + f.src)))) [] }) [] }
  let s := s.setLm { s.lm with looms := smSet {} s.lm.looms n {}, mends := s.lm.mends.filter (fun m => m.loom != n)
                               loads := s.lm.loads.filter (fun x => x.loom != n) }
  s.setReg .STN_LOOM_STAT (s.fld F.STN_LOOM_STAT_ERR 0 n * 8) 0 n

/-- RESET of a loom begins: every station stops as steps 1 to 5 of R195, and a load that still reads is over. -/
def State.resetLoom (s : State) (n : Nat) : State :=
  if s.loomState n = 0 then s
  else
    let l := s.loom n
    let s := (List.range 16).foldl (fun s d => s.stopCall n d .seqRetry true) s
    let s := l.sites.foldl (fun s k => if s.siteState k < 6 ∧ (s.stn k).loom = some n then s.stopStn k else s) s
    let s := (s.setLm { s.lm with loads := s.lm.loads.filter (fun x => x.loom != n) }).dropChains n
    s.updLoom n (fun l => { l with resetting := true })

/-- Looms go on as far as they can: a stopped call ends once the requests its stations started have completed, a joint one at the end of the
cycle; a reset ends once every station has drained. -/
def State.settleLoom (s : State) (n : Nat) : State :=
  let s := (List.range 16).foldl (fun s d =>
    match s.callEnds n d with
    | some x => if s.joint x.1 then s else s.endCall n d x.2
    | none => s) s
  if (s.loom n).resetting && (s.loom n).sites.all s.stnDrained then s.finishReset n else s

def State.settleLooms (s : State) : State := (s.lm.looms.map (·.1)).foldl (fun s n => s.settleLoom n) s

/-! ### Traps (R232, R233, R249) -/

/-- Records a trap, stops the station and the other stations of its call, and reports it. -/
def State.trapStn (s : State) (k cause addr status code : Nat) (insn : BitVec 64) (pc : Nat) : State :=
  let q := siteQ k
  let i := siteI k
  let t := s.stn k
  let w0 := cause + status * 2 ^ 4 + code % 256 * 2 ^ 8 + pc % 2 ^ 32 * 2 ^ 16
  let s := ((s.setReg .STN_TRAP0 w0 q i).setReg .STN_TRAP1 insn.toNat q i).setReg .STN_TRAP2 addr q i
  let s := s.count F.STN_TRAP3_COUNT 1 q i
  let conf := s.flag F.SEC_STAT_CONF
  let s := (s.updStn k (fun t => { t with run := false, blocked := false })).setSiteState k 5
  let s := s.event (siteSrc k) 4 [w0, if conf then 0 else insn.toNat, if conf then 0 else addr, s.fld F.STN_TRAP3_COUNT q i,
    s.siteCtx k + t.loom.getD 0 * 2 ^ 12]
  let s := s.raise (0x046 + 0x40 * q)
  match t.loom with
  | some n => ((s.stopCall n t.draft (if cause = 4 ∨ cause = 5 then statusOf status else .accessDenied) false).checkPaused n).settleLooms
  | none => s

/-! ### Fences (R194, R195, R257) -/

/-- A site of a loom is fenced: its call will end SEQ_RETRY, the loom set pauses, and a mend is asked for (R257). A load is abandoned (R237). -/
def State.fenceLoom (s : State) (n d k : Nat) : State :=
  let t := s.stn k
  if s.loomState n = 1 then
    let l := s.loom n
    let s := l.sites.foldl (fun s j =>
      let s := (s.updStn j (fun t => { t with loom := none })).setFld F.STN_SITE_LV 0 (siteQ j) (siteI j)
      if j = k then s else s.setSiteState j 1) s
    ((s.setLoom n {}).setReg .STN_LOOM_STAT 0 0 n).setLoomState n 6 |>.loomErr n .busy
  else if (s.loom n).sites.contains k then
    let s := s.stopCall n d .seqRetry true
    let s := (s.loomMates n).foldl (fun s m => s.pauseLoom m) s
    s.setLm { s.lm with mends := s.lm.mends ++ [{ site := k, loom := n, draft := d, prog := t.prog, code := t.code, routes := t.routes }] }
  else s

/-- Of two causes of a site in one cycle the lower-numbered is recorded (Table 7-8). -/
def Stn.causeOf (t : Stn) (now old cause : Nat) : Nat := if t.causeAt = some now ∧ old ≠ 0 then min old cause else cause

/-- A fence of a site begins (R195 steps 1 to 5). A site already fenced or retired stays as it is; one whose fence began in this cycle keeps the
lower-numbered cause (Table 7-8). -/
def State.startFence (s : State) (k cause : Nat) : State :=
  if s.siteState k ≤ 5 ∧ (s.stn k).fence.isNone then
    let cause := (s.stn k).causeOf s.now (s.siteCause k) cause
    let t := s.stn k
    -- a replacement that is fenced is no longer one: firmware chooses again (Table 9-11)
    let s := s.setLm { s.lm with mends := s.lm.mends.map (fun (m : Mend) => if m.dst = some k then { m with dst := none } else m) }
    let s := (s.stopStn k).updStn k (fun t => { t with fence := some cause, causeAt := some s.now })
    let s := match t.loom with | some n => s.fenceLoom n t.draft k | none => s
    s.settleLooms
  else match (s.stn k).fence with
    | some old => s.updStn k (fun t => { t with fence := some (t.causeOf s.now old cause) })
    | none => s

/-- A station fault with cause 1 to 3: it fences the site, or traps the station while AUTO_FENCE = 0 (R194). A spare has no station to trap: then its
cause alone is recorded (DESIGN CHOICE, log 145). -/
def State.stationFault (s : State) (k cause : Nat) : State :=
  if 6 ≤ s.siteState k then s
  else if s.flag F.STN_QCTL_AUTO_FENCE (siteQ k) ∨ (s.stn k).fence.isSome then s.startFence k cause
  else
    let t := s.stn k
    let spare := s.siteState k == 0
    let s := s.setFld F.STN_SITE_CAUSE (t.causeOf s.now (s.siteCause k) cause) (siteQ k) (siteI k)
    let s := s.updStn k (fun t => { t with causeAt := some s.now })
    if spare then s else
    let s := (s.updStn k (fun t => { t with run := false, blocked := false })).setSiteState k 5
    let w (r : RegName) : Nat := s.regVal r (siteQ k) (siteI k)
    let conf := s.flag F.SEC_STAT_CONF
    let s := s.event (siteSrc k) 4 [w .STN_TRAP0, if conf then 0 else w .STN_TRAP1, if conf then 0 else w .STN_TRAP2, w .STN_TRAP3,
      s.siteCtx k + t.loom.getD 0 * 2 ^ 12]
    let s := s.raise (0x046 + 0x40 * siteQ k)
    match t.loom with
    | some n => ((s.stopCall n t.draft .accessDenied false).checkPaused n).settleLooms
    | none => s

/-- A CONTEXT revoke resets every loom of the context (R238). -/
def State.resetLooms (s : State) (c : Nat) : State :=
  ((List.range 64).filter (fun n => s.loomState n != 0 && s.loomCtx n == c)).foldl (fun s n => s.resetLoom n) s

/-- The slots of every loom of a context return to IDLE while its handles still reach them, at the start of a CONTEXT revoke (R57, R238). -/
def State.idleCtxSlots (s : State) (c : Nat) : State :=
  ((List.range 64).filter (fun n => s.loomState n != 0 && s.loomCtx n == c)).foldl (fun s n => s.idleSlots n) s

end Sys2Proof.Machine
end

