-- ==== Sys2Proof/Machine/HostLink.lean ====
section
/-!
DEFINITION. The Thrumlink side as the engines use it: windows, host writes, host reads (R315 to R318).
-/
namespace Sys2Proof.Machine
open Sys2Proof

def State.setTl (s : State) (t : Tl) : State := { s with tl := t }

/-- A host access lies in a window that permits it (R318). -/
def State.winOk (s : State) (addr len : Nat) (wr : Bool) : Bool :=
  (List.range 8).any (fun w =>
    let b := s.fld F.TL_WIN_BASE_BASE 12 w * 4096
    let l := s.fld F.TL_WIN_LEN_LEN_4K 12 w * 4096
    b ≤ addr && addr + len ≤ b + l && s.flag (if wr then F.TL_WIN_LEN_WR else F.TL_WIN_LEN_RD) 12 w)

/-- A range lies in one window with both permissions (R345). -/
def State.winBoth (s : State) (addr len : Nat) : Bool :=
  (List.range 8).any (fun w =>
    let b := s.fld F.TL_WIN_BASE_BASE 12 w * 4096
    let l := s.fld F.TL_WIN_LEN_LEN_4K 12 w * 4096
    b ≤ addr && addr + len ≤ b + l && s.flag F.TL_WIN_LEN_WR 12 w && s.flag F.TL_WIN_LEN_RD 12 w)

/-- The TL port a host read leaves on: the stream's port when it is UP, else the other when that is UP (R317, R318). -/
def State.tlPort (s : State) : Option Nat :=
  let a := 12 + s.tl.active
  let b := 25 - a
  if s.portUp a then some a else if s.portUp b then some b else none

/-- The packet of a host read. -/
def hrdPacket (h : Hrd) : Packet :=
  { typ := 0x81, vc := 6, addr := BitVec.ofNat 64 h.addr, len := BitVec.ofNat 19 h.len, tag := BitVec.ofNat 16 h.tag }

/-- Issues a host read, or leaves it waiting for a port (R318). -/
def State.startHrd (s : State) (addr len : Nat) (use : HrdUse) : State :=
  let tag := s.tl.nextTag % 65536
  let p := s.tlPort
  let h : Hrd := ⟨tag, addr, len, use, s.now, 0, p⟩
  let s := s.setTl { s.tl with hrds := s.tl.hrds ++ [h], nextTag := s.tl.nextTag + 1 }
  match p with
  | some q => s.enqueue q (504 + 6) (hrdPacket h)
  | none => s

/-- Queues a host write (R316); the caller has checked the room. -/
def State.hostWrite (s : State) (addr : Nat) (data : List (BitVec 8)) (ann : Announce) : State :=
  s.queueMsg ⟨addr, data, none, ann⟩

end Sys2Proof.Machine
end

