-- ==== Sys2Proof/Machine/LoadOps.lean ====
section
/-!
DEFINITION. Loading a loom: the draft image and its checks, the reads that fetch it with its stage programs, and the sites as they are loaded
(R237 to R242).
-/
namespace Sys2Proof.Machine
open Sys2Proof

/-! ### The draft image (R239 to R242, Table 9-3) -/

/-- What a draft image describes. -/
structure Image where
  drafts : List Draft := []
  entries : List Nat := []
  stns : List StnEnt := []
  routes : List (List Nat) := []
  deriving DecidableEq, Repr

/-- The 64-bit words of bytes. -/
def wordsOf (bs : List (BitVec 8)) : List Nat := (List.range (bs.length / 8)).map (fun i => wordAt bs (8 * i))

/-- A field of an image word has no bit outside the named ones. -/
def onlyBits (w mask : Nat) : Bool := w &&& (2 ^ 64 - 1 - mask) == 0

/-- Sites of a rectangle. -/
def Draft.sites (d : Draft) : List Nat :=
  (List.range d.rows).flatMap (fun r => (List.range d.cols).map (fun c => d.q * 324 + (d.row + r) * 18 + d.col + c))

def Draft.holds (d : Draft) (k : Nat) : Bool :=
  siteQ k == d.q && d.row ≤ siteRow k && siteRow k < d.row + d.rows && d.col ≤ siteCol k && siteCol k < d.col + d.cols

/-- Two rectangles overlap. -/
def Draft.meets (a b : Draft) : Bool :=
  a.q == b.q && a.row < b.row + b.rows && b.row < a.row + a.rows && a.col < b.col + b.cols && b.col < a.col + a.cols

def draftOf (w : Nat) : Draft :=
  { q := bits w 0 2, row := bits w 2 5, col := bits w 7 5, rows := bits w 12 5 + 1, cols := bits w 17 5 + 1 }

/-- No two rectangles of a list overlap. -/
def disjointDrafts : List Draft → Bool
  | [] => true
  | d :: rest => !rest.any d.meets && disjointDrafts rest

/-- A draft descriptor obeys R239: it lies in the grid, overlaps no draft of another loom, holds no retired site and no stopped switch, and
its enabled sites are idle. -/
def State.draftOk (s : State) (w : Nat) : Bool :=
  let d := draftOf w
  onlyBits w (2 ^ 22 - 1) && d.row + d.rows ≤ 18 && d.col + d.cols ≤ 18 && !s.closed d.q &&
  !s.lm.looms.any (fun e => e.2.drafts.any d.meets) &&
  d.sites.all (fun k => !s.switchOff k && (s.siteState k == 0 || s.siteState k == 1 || s.siteState k == 6))

def stnEntOf (ds : List Draft) (w0 w1 w2 : Nat) : StnEnt :=
  let d := bits w0 9 4
  { site := ((ds[d]?).map (·.q)).getD 0 * 324 + bits w0 0 9, draft := d, ninsn := bits w0 13 13, prog := w1
    pcs := (List.range 4).map (fun i => bits w2 (16 * i) 16) }

/-- A station entry obeys Table 9-3 and names an idle enabled site of its draft (R237). -/
def State.stnEntOk (s : State) (ds : List Draft) (ws : List Nat) : Bool :=
  let w0 := ws.getD 0 0
  let e := stnEntOf ds w0 (ws.getD 1 0) (ws.getD 2 0)
  onlyBits w0 (2 ^ 26 - 1) && ws.getD 3 0 == 0 && bits w0 0 9 < 324 && e.ninsn ≤ 4096 && s.siteState e.site == 1 &&
    match ds[e.draft]? with
    | some d => d.holds e.site
    | none => false

/-- A route entry of site `k` obeys R241 and R242; `stations` are the sites of the loom that have a stage program. The reserved bits of an entry
that is not valid are 0 too (R240). -/
def State.routeOk (s : State) (stations : List Nat) (k r : Nat) : Bool :=
  if !onlyBits r (if routeRx r then 2 ^ 63 + 2 ^ 62 + 2 ^ 13 - 1 else 2 ^ 63 + 2 ^ 48 - 1) then false
  else if !routeV r then true
  else if routeRx r then rxSite r < 324
  else
    match pathSites k (txPath r) with
    | none => false
    | some ps =>
      let ss := ps.map (·.1)
      decide ss.Nodup && ss.all (fun j => !s.switchOff j) && (routeDests k r).all stations.contains

/-- The header of a draft image (Table 9-3): how many drafts and stations it has; none where it breaks R240. -/
def headCounts (h : List Nat) : Option (Nat × Nat) :=
  let w0 := h.getD 0 0
  let ns := bits w0 32 11
  if bits w0 0 16 == 0x4C44 && bits w0 16 8 == 1 && onlyBits w0 (0xFFFFFFF + 0x7FF * 2 ^ 32) && 1 ≤ ns && ns ≤ 1152 && (h.drop 3).all (· == 0)
  then some (bits w0 24 4 + 1, ns) else none

/-- The tables of a draft image, as offset and length: drafts, stations, routes, entry points. -/
def headTables (h : List Nat) (nd ns : Nat) : List (Nat × Nat) :=
  [(bits (h.getD 1 0) 0 32, 8 * nd), (bits (h.getD 1 0) 32 32, 32 * ns), (bits (h.getD 2 0) 0 32, 128 * ns), (bits (h.getD 2 0) 32 32, 128)]

/-- What the tables describe. -/
def imageOf (tabs : List (List Nat)) : Image :=
  let t (i : Nat) : List Nat := tabs.getD i []
  let ds := (t 0).map draftOf
  let ns := (t 1).length / 4
  { drafts := ds, entries := t 3
    stns := (List.range ns).map (fun i => let r := ((t 1).drop (4 * i)).take 4; stnEntOf ds (r.getD 0 0) (r.getD 1 0) (r.getD 2 0))
    routes := (List.range ns).map (fun i => ((t 2).drop (16 * i)).take 16) }

/-- The checks of R239 to R244 on the tables of an image. -/
def State.tablesOk (s : State) (tabs : List (List Nat)) : Bool :=
  let t (i : Nat) : List Nat := tabs.getD i []
  let x := imageOf tabs
  let stations := x.stns.map (·.site)
  (t 0).all s.draftOk && disjointDrafts x.drafts && (List.range x.stns.length).all (fun i => s.stnEntOk x.drafts (((t 1).drop (4 * i)).take 4)) &&
    decide stations.Nodup && (x.stns.zip x.routes).all (fun e => e.2.all (s.routeOk stations e.1.site)) &&
    x.entries.all (fun w => onlyBits w 255 && (w % 2 == 0 || bits w 1 4 < x.drafts.length))

/-- SEQN summed over loaded looms (Table 9-14). -/
def State.seqTotal (s : State) : Nat :=
  ((List.range 64).filter (fun m => s.loomLive m)).foldl (fun a m => a + s.fld F.STN_LOOM_CTL_SEQN 0 m) 0

/-- The registers of a loom allow a LOAD (R237 step 1, Table 9-14). -/
def State.loadAllowed (s : State) (n : Nat) : Bool :=
  let c := s.loomCtx n
  let seqn := s.fld F.STN_LOOM_CTL_SEQN 0 n
  s.flag F.STN_LOOM_CTL_V 0 n && s.ctxV c && seqn % 16 == 0 && seqn ≤ 256 &&
    (s.loomSet n == 0 || (List.range 64).all (fun m => m == n || !s.loomLive m || s.loomSet m != s.loomSet n || s.loomCtx m == c))

/-! ### Load (R237) -/

/-- A site of the loom is being loaded: state 2, machine state cleared, trap record cleared (R180, R201, R233). -/
def State.loadSite (s : State) (n d k : Nat) (prog : Nat) (code : List (BitVec 64)) (routes : List Nat) : State :=
  let q := siteQ k
  let i := siteI k
  let s := s.ungate q
  let t := (s.stn k).cleared s.now
  let s := s.setStn k { t with
    loom := some n, draft := d, prog := prog, code := code
    routes := routes.zipIdx.foldl (fun m r => smSet 0 m r.2 (BitVec.ofNat 64 r.1)) [] }
  let s := (((s.setReg .STN_TRAP0 0 q i).setReg .STN_TRAP1 0 q i).setReg .STN_TRAP2 0 q i).setReg .STN_TRAP3 0 q i
  ((s.setSiteState k 2).setFld F.STN_SITE_LV 1 q i).setFld F.STN_SITE_CTX (s.loomCtx n) q i

/-- A load fails: the loom holds no site (R237 step 1). -/
def State.loadFails (s : State) (x : Load) (st : Status) : State :=
  ((s.setLm { s.lm with loads := s.lm.loads.filter (fun y => y.serial != x.serial) }).setLoomState x.loom 6).loomErr x.loom st

/-- The loom unit reads parts of an image or stage programs, each named by its number: kind, address and length. -/
def State.loadReads (s : State) (x : Load) (rs : List (Nat × ReqKind × Nat × Nat)) : State :=
  let x := { x with out := rs.length, got := [] }
  rs.foldl (fun s r => s.loomReq x.loom r.2.1 (r.2.2.1 % 2 ^ 64) r.2.2.2 [] (.load x.serial r.1))
    (s.setLm { s.lm with loads := s.lm.loads.map (fun y => if y.serial = x.serial then x else y) })

/-- Step 2 of a load: the named sites are loaded (R237, R239). -/
def State.loadSites (s : State) (x : Load) : State :=
  let n := x.loom
  let im := imageOf x.tabs
  let code (i : Nat) : List (BitVec 64) := match x.got.find? (fun g => g.1 == i) with
    | some g => (wordsOf g.2.2).map (BitVec.ofNat 64)
    | none => []
  let sites := (im.drafts.flatMap (fun d => d.sites)).filter (fun k => s.siteState k == 1)
  let s := s.setLm { s.lm with loads := s.lm.loads.filter (fun y => y.serial != x.serial) }
  let s := s.setLoom n { drafts := im.drafts, entries := im.entries, stns := im.stns, sites := sites }
  let s := sites.foldl (fun s k =>
    let d := ((im.drafts.zipIdx).find? (fun e => e.1.holds k)).map (·.2)
    match (im.stns.zipIdx).find? (fun e => e.1.site == k) with
    | some e => s.loadSite n e.1.draft k e.1.prog (code e.2) (im.routes.getD e.2 [])
    | none => s.loadSite n (d.getD 0) k 0 [] []) s
  (s.setFld F.STN_LOOM_STAT_NSTN sites.length 0 n).setFld F.STN_LOOM_STAT_NDRAFT im.drafts.length 0 n

/-- A load goes on when the reads it waits for have come: header, tables, stage programs, then the sites (R237 steps 1 and 2). A named site that
was fenced meanwhile abandons it. -/
def State.loadStep (s : State) (x : Load) : State :=
  let img := s.regVal .STN_LOOM_IMG 0 x.loom
  let words (i : Nat) : List Nat := match x.got.find? (fun g => g.1 == i) with | some g => wordsOf g.2.2 | none => []
  if x.got.length < x.out then s
  else match x.got.find? (fun g => g.2.1 != .ok) with
    | some g => s.loadFails x (if g.2.1 = .accessDenied then .accessDenied else .poison)
    | none =>
      if x.phase = 0 then
        match headCounts (words 0) with
        | none => s.loadFails x .accessDenied
        | some (nd, ns) =>
          s.loadReads { x with phase := 1, head := words 0 }
            ((headTables (words 0) nd ns).zipIdx.map (fun t => (t.2, ReqKind.read, hdlAdd img t.1.1, t.1.2)))
      else
        let x := if x.phase = 1 then { x with tabs := (List.range 4).map words } else x
        let im := imageOf x.tabs
        if x.phase = 2 ∧ im.stns.any (fun e => s.siteState e.site == 6) then s.loadFails x .busy
        else if !s.tablesOk x.tabs then s.loadFails x .accessDenied
        else
          let ps := im.stns.zipIdx.filter (fun e => e.1.ninsn ≠ 0)
          if x.phase = 1 ∧ !ps.isEmpty then
            s.loadReads { x with phase := 2 } (ps.map (fun e => (e.2, ReqKind.fetch, e.1.prog, 8 * e.1.ninsn)))
          else if 1024 < s.seqTotal then s.loadFails x .busy
          else s.loadSites x

/-- Takes the reads of loads that have completed. -/
def State.takeLoads (s : State) : State :=
  let mine (d : Done) : Bool := match d.dest with | .load .. => true | _ => false
  let ds := s.ord.done.filter mine
  if ds.isEmpty then s
  else ds.foldl (fun s d => match d.dest with
    | .load n part =>
      match s.lm.loads.find? (fun x => x.serial == n) with
      | none => s
      | some x =>
        let x := { x with got := x.got ++ [(part, (if d.out.status = .partialFail then d.out.worst else d.out.status), d.data)] }
        (s.setLm { s.lm with loads := s.lm.loads.map (fun y => if y.serial = n then x else y) }).loadStep x
    | _ => s) (s.setOrd { s.ord with done := s.ord.done.filter (fun d => !mine d) })

end Sys2Proof.Machine
end

