-- ==== Sys2Proof/Machine/MoverOps.lean ====
section
/-!
DEFINITION. Mover channels at work: descriptors, chunks, outcome writes, halts; and `settle`, which moves every order channel and
mover channel on as far as it goes after an event (R91 to R96).
-/
namespace Sys2Proof.Machine
open Sys2Proof

def State.mover (s : State) (q k : Nat) : Mover := smGet {} s.movers (q * 16 + k)
def State.setMover (s : State) (q k : Nat) (m : Mover) : State := { s with movers := smSet {} s.movers (q * 16 + k) m }
def State.movState (s : State) (q k : Nat) : Nat := s.fld F.MOV_CH_STAT_STATE q k
def State.movChan (s : State) (q k : Nat) : Chan := ⟨s.fld F.MOV_CH_CTX_CTX q k, .mover q k, 0⟩

/-! ### Descriptors (Table 3-14) -/

def Desc.w (d : Desc) (i : Nat) : Nat := d.words.getD i 0
def Desc.op (d : Desc) : Nat := bits (d.w 0) 0 2
def Desc.sh (d : Desc) : Bool := (d.w 0).testBit 2
def Desc.dh (d : Desc) : Bool := (d.w 0).testBit 3
def Desc.fold (d : Desc) : Bool := (d.w 0).testBit 4
def Desc.sv (d : Desc) : Bool := (d.w 0).testBit 5
def Desc.int (d : Desc) : Bool := (d.w 0).testBit 15
def Desc.tag (d : Desc) : Nat := bits (d.w 0) 32 16
def Desc.next (d : Desc) : Nat := d.w 5
/-- Bytes a descriptor moves. -/
def Desc.len (d : Desc) : Nat := if d.op = 2 then 0 else bits (d.w 3) 0 32

/-- The checks of R93. -/
def descOk (w : List Nat) (conf : Bool) : Bool :=
  let d : Desc := { serial := 0, handle := 0, words := w, denied := false, issued := 0, finished := 0, failed := [], worst := .ok }
  let src := d.w 1
  let dst := d.w 2
  let len := bits (d.w 3) 0 32
  let copy := d.op == 0
  d.op ≠ 3 && bits (d.w 0) 16 16 == 0 && bits (d.w 0) 48 16 == 0 && bits (d.w 3) 32 32 == 0 &&
    (d.op == 2 || (len ≠ 0 && len % 8 == 0)) &&
    (!copy || src % 8 == 0) && (d.op == 2 || dst % 8 == 0) &&
    !((d.fold || d.sv) && d.dh) && !((d.sh || d.dh) && conf) &&
    !(copy && !d.sh && !d.dh && bits src 56 3 == bits dst 56 3 && overlap (bits src 0 56) len (bits dst 0 56) len)

/-- The outcome block of a descriptor (R94). -/
def Desc.outcome (d : Desc) : Outcome16 :=
  if d.denied then plainOutcome d.tag 0 .accessDenied d.len
  else outcomeOf d.tag 0 d.len d.failed d.worst

/-- Length of the chunk at byte `o`: within one pool page on each pool side, and 2,048 bytes on a host side (R94). -/
def Desc.chunk (d : Desc) (o : Nat) : Nat :=
  let left := d.len - o
  let left := if d.op = 0 then (if d.sh then min left 2048 else min left (65536 - (d.w 1 + o) % 65536)) else left
  if d.dh then min left 2048 else min left (65536 - (d.w 2 + o) % 65536)

def State.updDesc (s : State) (q k serial : Nat) (f : Desc → Desc) : State :=
  let m := s.mover q k
  s.setMover q k { m with descs := m.descs.map (fun d => if d.serial = serial then f d else d) }

/-- A request of a mover channel. -/
def State.moverReq (s : State) (q k : Nat) (kind : ReqKind) (addr len base : Nat) (data : List (BitVec 8)) (dest : Dest)
    (fold : Bool := false) (stash : Option Nat := none) (lost : List Nat := []) : State :=
  let c := s.movChan q k
  s.addReq { id := 0, chan := c, tag := s.ord.nextId % 65536, kind := kind, seg := bits addr 56 3, addr := addr, len := len,
             data := if kind.isWrite then data else List.replicate len 0, have_ := len,
             pieces := s.plainPieces c.ctx addr len true, fold := fold, stash := stash, lostSrc := lost, base := base,
             ep := s.fld F.MOV_CH_CTX_EP q k, dest := dest }

/-- Feeds the check-value units a channel's written chunks, in descriptor order and ascending offset (Table 14-6, KIND 2): the chunk
that starts where descriptor `d` has been fed to, then those that follow it. -/
def State.feedDesc : Nat → State → Nat → Nat → Nat → State
  | 0, s, _, _, _ => s
  | n + 1, s, q, k, serial =>
    match (s.mover q k).descs.find? (fun d => d.serial == serial) with
    | none => s
    | some d =>
      match d.chunks.find? (fun c => c.1 == d.fed) with
      | none => s
      | some c =>
        ((s.updDesc q k serial (fun d => { d with chunks := d.chunks.erase c, fed := d.fed + c.2.1.length })).chkFeed
          { kind := 2, q := q, idx := k, ctx := some (s.fld F.MOV_CH_CTX_CTX q k), poison := c.2.2 } c.2.1).feedDesc n q k serial

/-- Descriptors of a channel in order, up to the first that still has bytes to feed. -/
def State.feedMover : Nat → State → Nat → Nat → List Desc → State
  | 0, s, _, _, _ => s
  | _ + 1, s, _, _, [] => s
  | n + 1, s, q, k, d :: rest =>
    let s := s.feedDesc 64 q k d.serial
    match (s.mover q k).descs.find? (fun x => x.serial == d.serial) with
    | some x => if x.fed < x.len && !x.denied then s else s.feedMover n q k rest
    | none => s

/-- Writes the bytes of a chunk to the destination side; false when a host write must wait for room (R316, R318). -/
def State.moverWrite (s : State) (q k : Nat) (d : Desc) (o : Nat) (data : List (BitVec 8)) (lost : List Nat) : State :=
  let n := data.length
  let s := s.updDesc q k d.serial (fun x => { x with chunks := x.chunks ++ [(o, data, !lost.isEmpty)] })
  let s := s.feedMover 8 q k (s.mover q k).descs
  if d.dh then
    if !s.winOk (d.w 2 + o) n true then
      s.updDesc q k d.serial (fun d => { d with finished := d.finished + n, worst := worseOf d.worst .accessDenied,
                                                failed := (sectorsOf o n).foldl (fun a i => insertSorted i a) d.failed })
    else s.hostWrite (d.w 2 + o) data (.mover q k d.serial)
  else s.moverReq q k .write (d.w 2 + o) n o data (.moverWrite q k d.serial o) d.fold (if d.sv then some (bits (d.w 0) 6 9) else none) lost

/-- `n` bytes of the pattern from byte `o` on (R93). -/
def patternBytes (p o n : Nat) : List (BitVec 8) := (List.range n).map (fun i => BitVec.ofNat 8 (p >>> (8 * ((o + i) % 8))))

/-- Issues the next chunk of the first descriptor that has one, when its channel and buffers have room (R67, R91, R94). -/
def State.issueChunk (s : State) (q k : Nat) : State :=
  let m := s.mover q k
  match m.descs.find? (fun d => !d.denied && d.issued < d.len) with
  | none => s
  | some d =>
    let o := d.issued
    let n := d.chunk o
    if 256 ≤ s.chanCount (s.movChan q k) || (d.dh && !s.msgRoom) then s
    else
      let s := s.updDesc q k d.serial (fun d => { d with issued := o + n })
      if d.op = 1 then s.moverWrite q k d o (patternBytes (d.w 4) o n) []
      else if d.sh then
        if s.winOk (d.w 1 + o) n false then s.startHrd (d.w 1 + o) n (.mover q k (d.serial * 2 ^ 32 + o))
        else
          let s := s.updDesc q k d.serial (fun d => { d with worst := worseOf d.worst .accessDenied,
                                                             failed := (sectorsOf o n).foldl (fun a i => insertSorted i a) d.failed })
          s.moverWrite q k d o (List.replicate n 0) (sectorsOf o n)
      else s.moverReq q k .read (d.w 1 + o) n o [] (.moverRead q k d.serial o)

/-- A read chunk has come back with its failed sectors: the same bytes are written (R94). -/
def State.chunkRead (s : State) (q k serial o : Nat) (data : List (BitVec 8)) (failed : List Nat) (worst : Status) : State :=
  match (s.mover q k).descs.find? (fun d => d.serial == serial) with
  | none => s
  | some d =>
    let s := s.updDesc q k serial (fun d => { d with worst := worseOf d.worst worst, failed := failed.foldl (fun a i => insertSorted i a) d.failed })
    s.moverWrite q k d o data failed

/-- Bytes of a chunk of `n` bytes at byte `o` outside its failed sectors (R97). -/
def goodBytes (o n : Nat) (failed : List Nat) : Nat :=
  n - (failed.map (fun i => min (64 * i + 64) (o + n) - max (64 * i) o)).sum

/-- Takes the completed requests of the movers' chunks. -/
def State.takeMoverDone (s : State) : State :=
  let ds := s.ord.done
  let mine (d : Done) : Bool := match d.dest with | .moverRead .. => true | .moverWrite .. => true | _ => false
  let s := s.setOrd { s.ord with done := ds.filter (fun d => !mine d) }
  (ds.filter mine).foldl (fun s d => match d.dest with
    | .moverRead q k serial o => s.chunkRead q k serial o d.data d.failed d.out.worst
    | .moverWrite q k serial o =>
      let n := d.data.length
      let bad := d.failed.filter (fun i => i * 64 < o + n ∧ o < i * 64 + 64)
      let s := s.count F.MOV_CH_BYTES_BYTES (goodBytes o n bad) q k
      s.updDesc q k serial (fun x =>
        { x with finished := x.finished + n, worst := worseOf x.worst d.out.worst, failed := bad.foldl (fun a i => insertSorted i a) x.failed })
    | _ => s) s

/-- A descriptor whose bytes have all finished. -/
def Desc.ended (d : Desc) : Bool := d.denied || d.len ≤ d.finished

/-- Outstanding work of a channel. -/
def State.moverBusy (s : State) (q k : Nat) : Bool :=
  let m := s.mover q k
  !m.descs.isEmpty || m.fetching.isSome || s.ord.reqs.any (fun r => r.chan.eng == .mover q k)

/-- Bytes of a descriptor whose writes have been issued. -/
def Desc.sent (d : Desc) : Nat := d.fed + (d.chunks.map (fun c => c.2.1.length)).sum

/-- A piece of the channel has failed: no further descriptor of its chain starts (R95). -/
def State.moverFailed (s : State) (q k : Nat) : Bool :=
  (s.mover q k).descs.any (fun d => d.denied || !d.failed.isEmpty) ||
    s.ord.reqs.any (fun r => r.chan.eng == .mover q k && r.pieces.any (fun p => p.status != .ok))

/-- Whether every piece of a channel's requests has started, the writes of its descriptors among them: the next descriptor may then start
(R94). -/
def State.lastStarted (s : State) (q k : Nat) : Bool :=
  (s.mover q k).descs.all (fun d => d.denied || d.len ≤ d.sent) &&
    s.ord.reqs.all (fun r => r.chan.eng != .mover q k || r.pieces.all (fun p => !p.unstarted))

/-- Keeps RUNNING and HELD with whether an access of the channel is held (R91), and halts a channel whose failure has run out
(R95). -/
def State.moverStates (s : State) (q k : Nat) : State :=
  let m := s.mover q k
  let held := s.ord.reqs.any (fun r => r.chan.eng == .mover q k && r.pieces.any Piece.isHeld)
  let st := s.movState q k
  let halt (s : State) (x : Nat × Status × Bool × Nat) : State :=
    let s := (s.setMover q k { m with failing := none }).setReg .MOV_CH_CUR x.1 q k
    ((s.setFld F.MOV_CH_STAT_WBF x.2.2.1.toNat q k).setFld F.MOV_CH_STAT_LAST_STATUS x.2.1.code q k).setFld F.MOV_CH_STAT_LAST_TAG x.2.2.2 q k
  if st = 4 then
    -- a halt of the cycle of a STOP is applied before it (R96)
    match m.failing with
    | some x => if m.stopAt = some s.now ∧ !s.moverBusy q k then halt s x else s
    | none => s
  else if st = 1 ∨ st = 2 then
    match m.failing with
    | some x =>
      if s.moverBusy q k then s.setFld F.MOV_CH_STAT_STATE (if held then 2 else 1) q k
      else (halt s x).setFld F.MOV_CH_STAT_STATE 3 q k
    | none =>
      if m.next = 0 && !m.retry && !s.moverBusy q k then s.setFld F.MOV_CH_STAT_STATE 0 q k
      else s.setFld F.MOV_CH_STAT_STATE (if held then 2 else 1) q k
  else s

/-- One round of a mover channel: the outcome write of its first ended descriptor, its next chunk, its next fetch, each while its order channel
has room (R67, R91). NEXT is fetched as it stands: one with bit 63 clear completes ACCESS_DENIED (R44), one that is not 64-byte aligned is
read where it points (DESIGN CHOICE, log 137). -/
def State.moverStep (s : State) (q k : Nat) : State :=
  let m := s.mover q k
  let s := match m.descs with
    | d :: _ =>
      if d.ended && !d.written && s.chanCount (s.movChan q k) < 256 then
        let s := s.updDesc q k d.serial (fun d => { d with written := true })
        s.moverReq q k .write (d.handle + 48) 16 0 (wordBytes d.outcome.words) (.outcome q k d.serial)
      else s
    | [] => s
  let s := s.issueChunk q k
  let m := s.mover q k
  let st := s.movState q k
  let h := if m.retry then s.regVal .MOV_CH_CUR q k else m.next
  if (st = 1 ∨ st = 2) && h ≠ 0 && m.fetching.isNone && m.failing.isNone && !m.stopping && m.descs.length < 4 &&
      !s.moverFailed q k && s.chanCount (s.movChan q k) < 256 then
    (s.setMover q k { m with fetching := some h }).moverReq q k .read h 64 0 [] (.descr q k)
  else s.moverStates q k

/-- Moves every channel on: requests in order, then what mover channels and loads do with their completions. -/
def State.settleRound (s : State) : State :=
  let s := s.pumpAll.takeMoverDone.takeLoads
  s.movers.foldl (fun s e => s.moverStep (e.1 / 16) (e.1 % 16)) s

/-- Runs `n` rounds while there is work of movers or loads to do; without any one pass over the channels is enough. -/
def State.settleN : Nat → State → State
  | 0, s => s
  | n + 1, s => if s.movers.isEmpty && s.lm.loads.isEmpty then s.pumpAll else s.settleRound.settleN n

/-- After an event: every line access that may start does, and every order channel and mover channel goes on as far as it can (log 44 for the number of rounds). -/
def State.settle (s : State) : State := s.progress.settleN 8

end Sys2Proof.Machine
end

