-- ==== Sys2Proof/Machine/LinkOps.lean ====
section
/-!
DEFINITION. The link layer as the device uses it: credits and buffers, flits sent, ACKs, retrains, going DOWN with everything that ends
with a link, sleeping and waking (R265 to R284, R317, R318, R346), and leaving deep idle (R31 to R33, R386).
-/
namespace Sys2Proof

/-- Word 1 of a capability block (Table 10-4). -/
def CapBlock.word1 (c : CapBlock) : Nat :=
  c.port.toNat + c.ver.toNat * 2 ^ 4 + c.cfg.toNat * 2 ^ 12 + c.lr.toNat * 2 ^ 13 + c.w4.toNat * 2 ^ 14 + c.ptp.toNat * 2 ^ 15
    + c.incarn.toNat * 2 ^ 16

/-- Packets that cross one hop and are consumed by the device that receives them (R416). -/
def Packet.oneHop (k : Packet) : Bool :=
  k.vc.toNat == 6 || k.typN == 0x68 || k.typN == 0x69 || (0x70 ≤ k.typN && k.typN ≤ 0x72) || (0x7A ≤ k.typN && k.typN ≤ 0x7D) ||
    k.typN == 0x62 || k.typN == 0x63

/-- Replay-buffer units a flit occupies (R274). -/
def Flit.units (f : Flit) : Nat := f.blen.toNat + 1

end Sys2Proof

namespace Sys2Proof.Machine
open Sys2Proof

/-! ### Credits (R277) -/

/-- Number of VC `v` in a list by VC. -/
def vcGet (l : List (Nat × Nat)) (v : Nat) : Nat := smGet 0 l v
def vcSet (l : List (Nat × Nat)) (v n : Nat) : List (Nat × Nat) := smSet 0 l v n

/-- Receive buffers of VC `v` under an allocation: a VC below 2 units receives 2 (R277). -/
def allocOf (a v : Nat) : Nat := max 2 (bits a (8 * v) 8) * 8

/-- The VC with the most credits not returned, and how many a flit takes (R277). -/
def nextReturn (l : Link) : Nat × Nat :=
  (List.range 8).foldl (fun a v => if a.2 < vcGet l.owed v then (v, vcGet l.owed v) else a) (0, 0)

/-- A flit of a link with its ACK and returned credits (Table 10-5); the counts follow (R278). -/
def Link.flit (l : Link) (seq vc : Nat) (sop eop : Bool) (blen : Nat) (body : FlitBody) : Flit × Link :=
  let r := nextReturn l
  let n := min 255 r.2
  ({ seq := BitVec.ofNat 12 seq, ack := BitVec.ofNat 12 (l.expect + 4095), ackv := l.ackv, vc := BitVec.ofNat 3 vc, sop := sop, eop := eop,
     crvc := BitVec.ofNat 3 r.1, crcnt := BitVec.ofNat 8 n, blen := BitVec.ofNat 2 blen, body := body },
   { l with owed := vcSet l.owed r.1 (r.2 - n), ret := vcSet l.ret r.1 ((vcGet l.ret r.1 + n) % 65536) })

/-- Replay-buffer units in use (R274). -/
def Link.unitsUsed (l : Link) : Nat := l.unacked.foldl (fun a f => a + f.units) 0

/-- Room for `n` more sequenced flits of `u` units in all (R274). -/
def Link.room (l : Link) (n u : Nat) : Bool := l.unacked.length + n ≤ 2048 && l.unitsUsed + u ≤ 4096

/-- Sends one sequenced flit: it takes the next SEQ and is kept for replay (R271, R274). -/
def State.sendSeq (s : State) (p vc : Nat) (sop eop : Bool) (blen : Nat) (body : FlitBody) : State :=
  let l := s.link p
  let (f, m) := l.flit l.sendSeq vc sop eop blen body
  (s.setLink p { m with sendSeq := (l.sendSeq + 1) % 4096, unacked := l.unacked ++ [f], busyAt := s.now,
                        replayAt := if l.unacked.isEmpty then s.now else l.replayAt }).emit (.flits p [f])

/-- Sends NULL flits that return the freed buffers: NULL flits fill every free slot (R271, R277). -/
def State.returnCredits : Nat → State → Nat → State
  | 0, s, _ => s
  | n + 1, s, p =>
    let l := s.link p
    if (nextReturn l).2 = 0 ∨ !s.portUp p then s
    else
      let (f, m) := l.flit 0 0 false false 0 .null
      ((s.setLink p m).emit (.flits p [f])).returnCredits n p

/-- Frees `n` receive buffers of a VC (R277). -/
def State.freeBuffers (s : State) (p vc n : Nat) : State :=
  let l := s.link p
  (s.setLink p { l with used := vcSet l.used vc (vcGet l.used vc - n), owed := vcSet l.owed vc (vcGet l.owed vc + n) }).returnCredits 16 p

/-- Sends an LCTL flit when the port is UP and the replay buffer has room (R271, R274). -/
def State.sendLctl (s : State) (p sub cause : Nat) : State :=
  if s.portUp p && (s.link p).room 1 1 then
    (s.sendSeq p 0 false false 0 (.lctl (BitVec.ofNat 8 sub) (BitVec.ofNat 8 cause))).emit (.lctl p sub cause)
  else s

/-- The capability block a port sends (Table 10-4). -/
def State.ownCap (s : State) (p : Nat) (rsync : Bool) : CapBlock :=
  let l := s.link p
  let a := s.regVal .PORT_CRD_CFG p
  let free (v : Nat) : Nat := allocOf a v - vcGet l.used v
  let pack (lo : Nat) : Nat := (List.range 4).foldl (fun x i => x + free (lo + i) * 2 ^ (16 * i)) 0
  { deviceId := Config.deviceId, port := BitVec.ofNat 4 p, ver := 1, cfg := s.flag F.GLB_IMG_STAT_V, lr := s.flag F.PORT_CTL_LR_EN p,
    w4 := s.flag F.PORT_CTL_W4_EN p, ptp := true, incarn := BitVec.ofNat 16 (s.fld F.PORT_LNK_STAT_INCARN p),
    alloc := BitVec.ofNat 64 a, nextSeq := if rsync then BitVec.ofNat 12 l.expect else 0, rsync := rsync,
    free0 := if rsync then BitVec.ofNat 64 (pack 0) else 0, free1 := if rsync then BitVec.ofNat 64 (pack 4) else 0 }

/-- Drops a host read that is over (R318). -/
def State.hrdGone (s : State) (h : Hrd) : State := s.setTl { s.tl with hrds := s.tl.hrds.filter (fun x => x != h) }

/-! ### Sessions and their bounce slots (R344, R345) -/

def State.sess (s : State) (t : Nat) : Sess := smGet {} s.sec.sess t
def State.setSec (s : State) (x : Sec) : State := { s with sec := x }
def State.setSess (s : State) (t : Nat) (x : Sess) : State := s.setSec { s.sec with sess := smSet {} s.sec.sess t x }

/-- Changes the bounce slot of number `id`. -/
def State.updSlot (s : State) (id : Nat) (f : BSlot → BSlot) : State :=
  s.setSec { s.sec with sess := s.sec.sess.map (fun e => (e.1, ({ e.2 with slots := e.2.slots.map (fun (b : BSlot) =>
    if b.id = id then f b else b) } : Sess))) }

/-- Ends a bounce slot's transfer with a status that fails all of it (R345). -/
def BSlot.failAll (b : BSlot) (st : Status) : BSlot :=
  { b with stage := .ended, status := st, worst := st, failed := List.range (bits (b.words.getD 1 0) 8 10 + 1) }

/-- The data of a host read, or its failure, go where they are waited for. A slot that could not be read is read again (log 62). -/
def State.hostData (s : State) (h : Hrd) (data : List (BitVec 8)) (st : Status) : State :=
  let s := s.hrdGone h
  match h.use with
  | .mover q k n =>
    let serial := n / 2 ^ 32
    let o := n % 2 ^ 32
    if st = .ok then (s.chunkRead q k serial o data [] .ok).settle
    else (s.chunkRead q k serial o (List.replicate h.len 0) (sectorsOf o h.len) st).settle
  | .slot id =>
    if st = .ok then s.updSlot id (fun b => { b with words := (List.range 16).map (fun i => wordAt data (8 * i)), stage := .read })
    else s.startHrd h.addr h.len h.use
  | .bounce id off =>
    s.updSlot id (fun b =>
      if b.stage ≠ .data then b
      else if st = .ok then { b with data := b.data.take off ++ data ++ b.data.drop (off + data.length), got := b.got + data.length }
      else b.failAll st)

/-- Starts reading the slots the host has offered, up to 16 at work, while ring and window allow (R345). A session whose SEQ reaches
2^32 reads no further. -/
def State.pumpSlots : Nat → State → Nat → State
  | 0, s, _ => s
  | n + 1, s, t =>
    let x := s.sess t
    let size := ringSlots (s.fld F.SEC_BNC_RING_LOG2N 0 t) 4 16
    let pos := s.fld F.SEC_BNC_HEAD_HEAD 0 t + x.slots.length
    let host := s.fld F.SEC_BNC_RING_BASE 0 t * 4096 + pos % size * 128
    if s.fld F.SEC_SESS_STAT_STATE 0 t ≠ 2 ∨ size = 0 ∨ 16 ≤ x.slots.length ∨ pos % 2 ^ 32 = s.fld F.SEC_BNC_TAIL_TAIL 0 t ∨ 2 ^ 32 ≤ x.next ∨
        !s.winBoth host 128 then s
    else
      let id := s.sec.nextSlot
      let s := s.setSess t { x with next := x.next + 1, slots := x.slots ++ [{ id := id, seq := x.next, host := host }] }
      ((s.setSec { s.sec with nextSlot := id + 1 }).startHrd host 128 (.slot id)).pumpSlots n t

/-- The leading slots whose completion is acknowledged leave, and HEAD counts them (R316, R345). -/
def State.retireSlots (s : State) : State :=
  [0, 1].foldl (fun s t =>
    let x := s.sess t
    let gone := x.slots.takeWhile (fun b => b.stage == .completion && b.acks == 0)
    if gone.isEmpty then s
    else (((s.setSess t { x with slots := x.slots.drop gone.length }).bump F.SEC_BNC_HEAD_HEAD gone.length 0 t).pumpSlots 16 t)) s

/-! ### Acknowledgements and retrains (R273, R279) -/

/-- Frees the flits up to and including ACK, if it names one that is outstanding (R273). -/
def Link.applyAck (l : Link) (ack now : Nat) : Link :=
  match l.unacked with
  | [] => l
  | f :: _ =>
    let d := (ack + 4096 - f.seq.toNat) % 4096
    if d < l.unacked.length then { l with unacked := l.unacked.drop (d + 1), replayAt := now, replays := 0, busyAt := now } else l

/-! ### Gate lists and the clock they follow (R300, R303) -/

/-- Time the gate lists follow: network time while locked, else local time. -/
def State.gateTime (s : State) : Int := if s.locked then (s.now : Int) + s.time.off else s.now

/-- Entries of gate list `l` of port `p`, as MASK and DUR_NS; entries of no duration are skipped, but keep their numbers. -/
def State.gateEntries (s : State) (p l : Nat) : List (Nat × Nat × Nat) :=
  let n := min 256 (s.fld (if l = 0 then F.PORT_GATE_CTL_LEN0 else F.PORT_GATE_CTL_LEN1) p)
  ((List.range n).map (fun e => (e, s.fld F.PORT_GATE_LIST_MASK p l e, s.fld F.PORT_GATE_LIST_DUR_NS p l e))).filter (fun e => e.2.2 ≠ 0)

def gateCycle (es : List (Nat × Nat × Nat)) : Nat := es.foldl (fun a e => a + e.2.2) 0

/-- First cycle start of a list at or after `t`. -/
def State.cycleStart (s : State) (p l : Nat) (t : Int) : Int :=
  let c := gateCycle (s.gateEntries p l)
  if c = 0 then t else t + ((s.regVal .PORT_GATE_BASE p l : Int) - t) % (c : Int)

/-- Network time stepped, or the time the lists follow changed: the entry in force holds to the next cycle start (R303). -/
def State.realign (s : State) : State :=
  (List.range 14).foldl (fun s p =>
    let l := s.link p
    if l.gateEnd = 0 then s
    else
      let a := s.fld F.PORT_GATE_CTL_ACT p
      let s := s.setLink p { l with gateEnd := s.cycleStart p a s.gateTime, gateHold := true }
      if s.flag F.PORT_GATE_CTL_PEND p then s.setLink p { s.link p with gateSwitch := s.cycleStart p (1 - a) s.gateTime } else s) s

/-- Changes LOCK; its fall raises source 0x1B5. -/
def State.setLock (s : State) (b : Bool) : State :=
  if s.locked = b then s
  else
    let s := (s.setFld F.HUB_TIME_STAT_LOCK b.toNat).realign
    if b then s else s.raise 0x1B5

/-- The port leaves UP: a device that follows it loses its lock (R300). -/
def State.clockLost (s : State) (p : Nat) : State :=
  if s.fld F.HUB_TIME_CTL_SRC = 2 ∧ s.fld F.HUB_TIME_CTL_SRC_PORT = p then
    ({ s with time := { s.time with good := 0, bad := 0 } } : State).setLock false
  else s

/-- The port leaves UP for a retrain with a cause (R279); a leak retrain that was pending is this one (Table 10-9). -/
def State.startRetrain (s : State) (p cause : Nat) (request : Bool) : State :=
  if !s.portUp p then s
  else
    let s := (if request then s.sendLctl p 4 0 else s).clockLost p
    let s := (s.setFld F.PORT_LNK_STAT_STATE stRetrain p).setFld F.PORT_LNK_STAT_RT_CAUSE cause p
    let s := (s.linkErr p .retrain).raise (0x141 + 8 * p)
    s.setLink p { s.link p with retrainAt := s.now, capSeen := none, replays := 0, sleepReq := false }

/-! ### Host messages of a lost Thrumlink port (R317, R318) -/

/-- The packet of a host message (Table 12-4). -/
def HostMsg.packet (m : HostMsg) (tag : Nat) : Packet :=
  match m.vector with
  | some v => { typ := 0x83, vc := 6, tag := BitVec.ofNat 16 tag, w4 := BitVec.ofNat 64 v }
  | none =>
    ({ typ := 0x80, vc := 6, addr := BitVec.ofNat 64 m.addr, tag := BitVec.ofNat 16 tag, len := BitVec.ofNat 19 m.data.length,
       last := true } : Packet).withPayload m.data

/-- The port that carries the stream: the one in use until it goes DOWN, else the preferred one, else the other (R317). -/
def State.streamPort (s : State) : Option Nat :=
  let a := 12 + s.tl.active
  let b := 12 + s.fld F.TL_CTL_PRI 12
  if s.portLive a then some a else if s.portLive b then some b else if s.portLive (25 - b) then some (25 - b) else none

/-- A message whose HWACK a port accepted before it left UP, and that has not been applied yet (Table 12-6). -/
def State.ackTaken (s : State) (tag : Nat) : Bool := s.hub.delivered.any (fun x => x.2.typN == 0x84 && x.2.tagN == tag)

/-- Resends the unacknowledged messages on a port, in original order (R317). -/
def State.resend (s : State) (p : Nat) : State :=
  let ms := s.tl.unack.filter (fun m => !s.ackTaken m.1)
  let s := ms.foldl (fun s m => s.enqueue p (504 + 6) (m.2.packet m.1)) s
  (s.count F.TL_CNT_RESENT ms.length 12).setTl { s.tl with active := p - 12 }

/-- Host reads that wait for a port leave on one that is UP (R318). -/
def State.sendReads (s : State) (p : Nat) : State :=
  (s.tl.hrds.filter (fun h => h.sent.isNone)).foldl (fun s h =>
    (s.setTl { s.tl with hrds := s.tl.hrds.map (fun x => if x = h then { x with sent := some p } else x) }).enqueue p (504 + 6) (hrdPacket h)) s

/-- Issues a host read again on whichever TL port is UP, or leaves it waiting with its timeout running (R318). -/
def State.reissueHrd (s : State) (h : Hrd) : State :=
  let q := s.tlPort
  let tag := s.tl.nextTag % 65536
  let g : Hrd := { h with tag := tag, tries := h.tries + 1, since := s.now, sent := q }
  let s := s.setTl { s.tl with nextTag := s.tl.nextTag + 1, hrds := s.tl.hrds.map (fun x => if x = h then g else x) }
  let s := s.count F.TL_CNT_RDRETRY 1 12
  match q with
  | some p => s.enqueue p (504 + 6) (hrdPacket g)
  | none => s

/-! ### Confidential sessions end (R346) -/

/-- The role number of the core that holds the captain role, as an event source (R387). -/
def srcCaptain : Nat := srcCore 0

/-- Ends a session, pending or active: its keys are erased, its slots complete no further (R346, Table 13-15). -/
def State.endSess (s : State) (t cause : Nat) : State :=
  let st := s.fld F.SEC_SESS_STAT_STATE 0 t
  if st = 0 then s
  else
    let ctx := s.fld F.SEC_SESS_STAT_CTX 0 t
    let ids := (s.sess t).slots.map (·.id)
    let mine (u : HrdUse) : Bool := match u with | .slot i => ids.contains i | .bounce i _ => ids.contains i | _ => false
    let s := s.setTl { s.tl with hrds := s.tl.hrds.filter (fun h => !mine h.use) }
    let s := s.setOrd { s.ord with
      reqs := s.ord.reqs.map (fun r => match r.dest with
        | .bounce i => if ids.contains i then r.failAll .linkLost else r
        | _ => r)
      done := s.ord.done.filter (fun d => match d.dest with | .bounce i => !ids.contains i | _ => true) }
    let s := s.setSess t {}
    let s := ((s.setFld F.SEC_SESS_STAT_STATE 0 0 t).setFld F.SEC_SESS_STAT_CAUSE cause 0 t).setFld F.SEC_SESS_STAT_CTX 0 0 t
    let s := if cause = 2 ∨ cause = 3 then s.count F.SEC_CNT_TAG_FAIL 1 else s
    (s.event srcCaptain 0x31 [t + cause * 2 + ctx * 16]).raise (0x145 + 8 * (12 + t))

/-! ### DOWN (R70, R112, R280, R300, R317, R318) -/

/-- Answers of the fabric to a lost link: requests this device forwarded over the port complete LINK_LOST towards their requesters;
what the port itself had asked is forgotten (R70, R291). -/
def State.linkLostFlows (s : State) (p : Nat) : State :=
  let gone := s.hub.flows.filter (fun f => f.out == p && f.arr != p && !f.fin)
  let s := { s with hub := { s.hub with flows := s.hub.flows.filter (fun f => f.arr ≠ p && !(f.out == p && f.arr == 15)) } }
  gone.foldl (fun s f => if f.arr = 15 then s
    else s.answer f.arr (504 + 1) { (plainOutcome f.pkt.tagN f.pkt.chN .linkLost f.pkt.lenN).packet f.pkt with epoch := s.epoch }) s

/-- What an ended link takes with it. -/
def State.linkEnds (s : State) (p : Nat) : State :=
  let s := ((s.linkLostPool p).linkLostFlows p).chainsLost p
  let agents := s.localAgents.filter (fun i => s.agentLive i && s.fld F.COH_AGENT_PORT 0 i == p)
  let s := agents.foldl (fun s i => s.declareDead i 2 true) s
  let s := if p = 12 ∨ p = 13 then s.endSess (p - 12) 1 else s
  s.clockLost p

/-- A TL port stopped carrying the stream and host reads: they move to the other one (R317, R318). -/
def State.tlDown (s : State) (p : Nat) : State :=
  let lost := s.tl.hrds.filter (fun h => h.sent == some p)
  let s := if s.tl.active = p - 12 ∧ s.portLive (25 - p) then s.resend (25 - p) else s
  lost.foldl (fun s h =>
    if h.tries = 0 then s.reissueHrd h else (s.count F.TL_CNT_RDFAIL 1 12).hostData h [] .busy) s

/-- Reset of a port's link layer: nothing of the old link survives (R280). -/
def Link.cleared (l : Link) (now : Nat) : Link :=
  { toks := l.toks, sampleAt := l.sampleAt, gateEnd := l.gateEnd, gateSwitch := l.gateSwitch, gateHold := l.gateHold,
    beaconAt := l.beaconAt, syncAt := l.syncAt, downAt := now }

/-- The port goes DOWN with a cause, after a DOWN notice where it can send one (R280). -/
def State.portDown (s : State) (p cause : Nat) (notice : Bool) : State :=
  let st := s.portState p
  if st = stDown then s
  else
    let link := st = stUp ∨ st = stRetrain ∨ st = stSleep ∨ st = stWaking
    let s := if notice then s.sendLctl p 5 cause else s
    -- an HWACK that the port accepted is still applied (Table 12-6)
    let acks := if p < 12 then [] else (s.link p).ingress.filter (fun k => k.typN == 0x84 && s.authOk p k)
    let s := acks.foldl (fun s k => s.deliver p k) (s.setLink p ((s.link p).cleared s.now))
    let s := (s.setFld F.PORT_LNK_STAT_STATE stDown p).setFld F.PORT_LNK_STAT_CAUSE cause p
    let s := ((s.linkErr p .down).setFld F.PORT_CRD_STAT_PEND 0 p).raise (0x140 + 8 * p)
    let s := s.event (srcPort p) 3 [cause + (if link then 8 else 0) + s.fld F.PORT_LNK_STAT_INCARN p * 2 ^ 16]
    let s := if link then s.linkEnds p else s
    let s := if p = 12 ∨ p = 13 then s.tlDown p else s
    s.settle

/-! ### Waking (R31 to R33, R284, R386) -/

/-- A sleeping port starts to resume. -/
def State.wakePort (s : State) (p : Nat) : State :=
  if s.portState p = stSleep then
    (s.setFld F.PORT_LNK_STAT_STATE stWaking p).setLink p { s.link p with wakeAt := s.now, retrainAt := s.now, capSeen := none }
  else s

/-- Leaves Freewheel, deep idle, or the entry to it: station clocks run, sleeping stacks that the entry put to sleep start their exit, those
on the way into self-refresh return to service before their point of no return and leave it again after it, listening ports resume (R31, R33,
R137, R386). -/
def State.wakeDevice (s : State) : State :=
  let s := s.setFld F.PWR_LP_STAT_GATED 0
  if s.power.deep = 0 then s
  else
    let s := if s.power.deep = 2 then (s.bump F.PWR_LP_STAT_WAKES).setFld F.PWR_STATPIN_CODE 9 else s
    let s : State := { s with power := { s.power with deep := 0 } }
    let s := (s.setFld F.INTC_CORE_ASLEEP 0 0 0).setFld F.INTC_CORE_ASLEEP 0 0 1
    let s := (List.range 16).foldl (fun s x => s.rouseStk x) s
    (List.range 14).foldl (fun s p => s.wakePort p) s

end Sys2Proof.Machine
end

