-- ==== Sys2Proof/Machine/CfgBase.lean ====
section
/-!
DEFINITION. What every configuration access meets before its register acts (R4, R5, R311, R391), and the answer it leaves.
-/
namespace Sys2Proof.Machine
open Sys2Proof

/-- The quarter whose reset closes a register's block (R311). -/
def RegName.quarter (r : RegName) (inst : Nat) : Option Nat :=
  match r.spec.block with
  | .xlt => some (r.home inst)
  | .coh => some (r.home inst)
  | .stn => some (r.home inst)
  | .mov => some (r.home inst)
  | .stk => some (stackQuarter (r.home inst))
  | .port => some (portQuarter (r.home inst))
  | _ => none

/-- The core a writer is, if it is one: 0 = core Q0, 1 = core Q3. -/
def writerCore : Writer → Option Nat
  | .coreQ0 => some 0
  | .coreQ3 => some 1
  | _ => none

/-- Whether a core may make class B writes: the captain in service, the holder of the token in lease mode, nobody without a captain
(R388, R393, R394). -/
def State.coreMay (s : State) (c : Nat) : Bool :=
  match s.fld F.TDM_ROLE_MODE with
  | 0 => s.fld F.TDM_ROLE_CAPT == c
  | 1 => s.fld F.TDM_LEASE_HOLDER == c + 1
  | _ => false

/-- Writes of a core that may not write complete ACCESS_DENIED (R388, R391, R393). -/
def State.barred (s : State) (w : Writer) : Bool :=
  match writerCore w with
  | some c => !s.coreMay c
  | none => false

/-- An access from outside the device wakes it from Freewheel and deep idle (R31, R413). -/
def State.wakeFor (s : State) (w : Writer) : State :=
  match w with
  | .tl0 => s.wakeDevice
  | .tl1 => s.wakeDevice
  | .sideband => s.wakeDevice
  | _ => s

/-- An access to a register of an answering block: BUSY while its quarter is under reset (R311). -/
def State.blockOpen (s : State) (r : RegName) (inst : Nat) : Bool :=
  match r.quarter inst with
  | some q => !s.quarterDown q
  | none => true

/-- The device is held in power-on reset, or has lost its input: nothing answers (R376, R401). -/
def State.heldReset (s : State) : Bool := s.power.porst || s.power.off

/-- Runs a write's effect, which answers its own status, unless the block or the writer is closed. -/
def State.regWrite (s : State) (w : Writer) (r : RegName) (inst : Nat) (f : State → State) : State :=
  let s := s.wakeFor w
  if s.heldReset then s
  else if !s.blockOpen r inst then s.respond .busy
  else if s.barred w then s.respond .accessDenied
  else f s

/-- Stores a value over a register's writable bits and answers OK. -/
def State.storeReg (s : State) (r : RegName) (inst i j : Nat) (v : Nat) (writable : Acc → Bool) : State :=
  let m := r.mask writable
  let old := s.regVal r inst i j
  (s.setReg r ((old &&& (2 ^ 64 - 1 - m)) ||| (v &&& m)) inst i j).respond .ok

/-- RW bits. -/
def accRW (a : Acc) : Bool := a == .rw || a == .rws

/-- A plain write of a register (R4). -/
def State.plainWrite (s : State) (r : RegName) (inst i j : Nat) (v : Nat) : State := s.storeReg r inst i j v accRW

end Sys2Proof.Machine
end

