-- ==== Sys2Proof/Machine/Intake.lean ====
section
/-!
DEFINITION. How a fabric request enters the device: its context, the policer of the context, the rules of confidential mode, and
the request it becomes (R34, R35, R64, R67, R99, R282, R305, R343).
-/
namespace Sys2Proof

/-- Bytes a request draws from its policer. -/
def Packet.cost (k : Packet) : Nat := if k.typN = 1 ∨ k.typN = 2 ∨ k.typN = 4 ∨ k.typN = 5 then 64 + k.lenN else 64

/-- The stash target of a write, if SV names one (R106). -/
def Packet.stash (k : Packet) : Option Nat := if k.w3.toNat.testBit 9 then some k.agent else none

/-- SUBOP of a VOP packet (Table 10-7). -/
def Packet.subop (k : Packet) : Nat := bits k.w3.toNat 19 3

end Sys2Proof

namespace Sys2Proof.Machine
open Sys2Proof

/-! ### Token buckets (R304, R305) -/

/-- A bucket's tokens at time `now`, in thousandths of a byte: they rise by RATE per ns up to BURST bytes. -/
def bucketNow (t : Int × Nat) (rate burst now : Nat) : Int :=
  min ((burst * 1000 : Nat) : Int) (t.1 + ((rate * (now - t.2) : Nat) : Int))

/-- What a policer decides of a request (R305). -/
inductive Police where
  | pass | mark | drop
  deriving DecidableEq, Repr

/-- Meters a request of context `c` that draws `cost` bytes (R305). -/
def State.police (s : State) (c cost : Nat) : Police × State :=
  let act := s.fld F.HUB_POL_CFG_ACTION 0 c
  if act = 0 ∨ act = 3 then (.pass, s)
  else
    let rate := s.fld F.HUB_POL_CFG_RATE 0 c
    let burst := min 16777216 (s.fld F.HUB_POL_CFG_BURST 0 c)
    let t := bucketNow (smGet (0, 0) s.hub.pol c) rate burst s.now
    if 0 < t then
      (.pass, { s with hub := { s.hub with pol := smSet (0, 0) s.hub.pol c (t - ((cost * 1000 : Nat) : Int), s.now) } })
    else
      let s : State := { s with hub := { s.hub with pol := smSet (0, 0) s.hub.pol c (t, s.now) } }
      if act = 1 then (.mark, s.count F.HUB_POL_CNT_MARKED 1 0 c) else (.drop, s.count F.HUB_POL_CNT_DROPPED 1 0 c)

/-! ### From a packet to a request -/

/-- The length a request may have (Table 10-7). -/
def lenOk (n : Nat) : Bool := 1 ≤ n && n ≤ 262144

/-- Refused in confidential mode on a TL port: pool data and caching requests (Table 13-9). -/
def State.sealed_ (s : State) (p : Nat) (k : Packet) : Bool :=
  s.flag F.SEC_STAT_CONF && (p == 12 || p == 13) &&
    (k.typN == 1 || k.typN == 2 || k.typN == 4 || k.typN == 5 || (0x41 ≤ k.typN && k.typN ≤ 0x43))

/-- The request a packet of context `c` on port `p` becomes. Forwarded through a REMOTE segment, it keeps its requester's endpoint as SRC (DESIGN
CHOICE, log 131). -/
def portReq (c p : Nat) (k : Packet) (kind : ReqKind) (pieces : List Piece) (marked : Bool) : Req :=
  { id := 0, chan := ⟨c, .port p, k.chN⟩, tag := k.tagN, kind := kind, seg := 0, addr := k.addr.toNat, len := k.lenN,
    vh := k.w4.toNat,
    data := if kind.isWrite then sliceBytes k.payload 0 (min k.lenN k.payload.length) ++ List.replicate (k.lenN - k.payload.length) 0
            else if kind.isRead then List.replicate k.lenN 0 else [],
    have_ := if kind.isWrite then (if k.last then k.lenN else min k.lenN k.payload.length) else k.lenN,
    pieces := pieces, fold := k.fold, stash := if kind.isWrite then k.stash else none, info := k.phint.toNat, marked := marked,
    ep := k.srcN, dest := .port p k }

/-- Counts the pieces an address resolution denied (R35). -/
def State.denyPieces (s : State) (q : Nat) (ps : List Piece) : State :=
  if ps.any (fun p => p.status == .accessDenied) then s.countDeny q else s

/-- A request of a packet: its context, the checks of its arrival, its policer, and its place in its channel. `mk` gives its pieces;
`none` refuses it ACCESS_DENIED. -/
def State.intake (s : State) (p : Nat) (k : Packet) (kind : ReqKind) (mk : State → Nat → Option (List Piece)) : State :=
  match s.ctxOf p k.srcN with
  | none => (s.countDeny (arrQuarter p)).refuse p k .accessDenied
  | some c =>
    if s.sealed_ p k then s.refuse p k .accessDenied
    else
      let (v, s) := if p < 14 then s.police c k.cost else (.pass, s)
      match mk s c with
      | none => s.admitReq { portReq c p k kind [] (v == .mark) with fixed := some .accessDenied } (v == .drop)
      | some ps =>
        let r := portReq c p k kind ps (v == .mark)
        let r := if ps.isEmpty ∧ (kind.isRead ∨ kind.isWrite ∨ kind.isCaching ∨ kind = .hint) then { r with fixed := some .accessDenied } else r
        (s.denyPieces (arrQuarter p) ps).admitReq r (v == .drop)

/-- A later data packet of a write joins the request it belongs to (R282). Data of a request that was refused is dropped. -/
def State.moreData (s : State) (p : Nat) (k : Packet) : State :=
  match s.ctxOf p k.srcN with
  | none => s
  | some c =>
    match s.ord.reqs.find? (fun r => r.chan == ⟨c, .port p, k.chN⟩ && r.tag == k.tagN && r.kind.isWrite && !r.refused) with
    | none => s
    | some r =>
      let o := k.offN
      let n := min k.payload.length (r.len - o)
      s.updReq r.id (fun r =>
        { r with data := r.data.take o ++ k.payload.take n ++ r.data.drop (o + n), have_ := if k.last then r.len else max r.have_ (o + n) })

/-- A write-like packet: its first packet makes the request, later ones bring data. -/
def State.writeIntake (s : State) (p : Nat) (k : Packet) (kind : ReqKind) (mk : State → Nat → Option (List Piece)) : State :=
  if k.offN = 0 then s.intake p k kind mk else s.moreData p k

end Sys2Proof.Machine
end

