-- ==== Sys2Proof/Machine/Coherence.lean ====
section
/-!
DEFINITION. Commands of the coherence directory: caching requests, notices, snoop responses, stashes, broadcasts, dead agents,
the agent table and the poison list (R98 to R117, R415).
-/
namespace Sys2Proof.Machine
open Sys2Proof

/-! ### Caching requests (R99, R415) -/

/-- Agent `i` is live and a packet of endpoint `ep` on port `p` comes from it: a local agent's own (port, endpoint), or a BOARD
port and the endpoint of an agent of a peer slot (R99, R112). -/
def State.agentAt (s : State) (p ep i : Nat) : Bool :=
  s.agentLive i && s.fld F.COH_AGENT_EP 0 i == ep &&
    (if s.agentLocal i then s.fld F.COH_AGENT_PORT 0 i == p else p < 14 && s.role p == 1)

/-- The agent named by a coherence message, when the message comes from it. -/
def State.senderAgent (s : State) (p : Nat) (k : Packet) : Option Nat := if s.agentAt p k.srcN k.agent then some k.agent else none

/-- The agent whose caching request this is: by its port and endpoint (R99), the one AGENT names where several share them. -/
def State.requester (s : State) (p : Nat) (k : Packet) : Option Nat :=
  match s.senderAgent p k with
  | some i => some i
  | none => (s.findRegs .COH_AGENT 0 (fun i _ _ => s.agentAt p k.srcN i)).map (·.1)

/-- A caching request: one line of the requester's context, in its place on its channel. -/
def State.caching (s : State) (p typ : Nat) (k : Packet) (kind : ReqKind) : State :=
  s.onArrival p typ k (fun s =>
    let a := s.requester p k
    let k := { k with len := 64, w4 := BitVec.ofNat 64 (a.getD 0) }
    (s.intake p k kind (fun s c =>
      if s.flag F.COH_CTL_EN && a.isSome then some (s.plainPieces c (k.addr.toNat - k.addr.toNat % 64) 64)
      else none)).settle)

/-- RDSHARED. -/
def execRdshared (p : Arr) (k : Packet) (s : State) : Res := .next (s.caching p.val 0x41 k .rdShared)
/-- RDOWN. -/
def execRdown (p : Arr) (k : Packet) (s : State) : Res := .next (s.caching p.val 0x42 k .rdOwn)
/-- UPGRADE. -/
def execUpgrade (p : Arr) (k : Packet) (s : State) : Res := .next (s.caching p.val 0x43 k .upgrade)

/-! ### Notices (R105, R109) -/

/-- The device slot in a line identity (R104). -/
def lidSlot (a : Nat) : Nat := bits a 35 3

/-- A message about a line homed here, from an agent that is not dead: the agent and the line. -/
def State.cohFrom (s : State) (p typ : Nat) (k : Packet) (f : State → Nat → Nat → State) : State :=
  s.onArrival p typ k (fun s =>
    match s.senderAgent p k with
    | some i => if lidSlot k.addr.toNat = s.slot then (f s i k.lineOf).settle else s
    | none => s)

/-- A snoop of a line to an agent that a message with tag `g` answers. -/
def Txn.snoopOf (t : Txn) (i g : Nat) : Option Snoop := t.snoops.find? (fun x => x.agent == i && x.gtag == g)

/-- Ends a snoop of a transaction; an owner's data is kept, unless newer data waits to be written (R106 step 5). -/
def State.answerSnoop (s : State) (line i : Nat) (data : Option (List (BitVec 8))) : State :=
  s.updTxn line (fun t =>
    let newer := match t.why with | .engWrite _ _ => t.stashLate | _ => false
    { t with snoops := t.snoops.filter (fun x => x.agent ≠ i),
             data := if newer then t.data else match data with | some d => some d | none => t.data })

/-- Removes a holder's pointer of grant tag `g` from its line's entry; true when it was there. -/
def State.dropPointer (s : State) (line i g : Nat) : Bool × State :=
  match s.dirEntry line with
  | some e =>
    if e.ptrs.contains (i, g) then
      let ps := e.ptrs.filter (fun x => x ≠ (i, g))
      (true, s.setDir line (if ps.isEmpty then none else some { e with ptrs := ps }))
    else (false, s)
  | none => (false, s)

/-- An eviction notice: the copy is gone, returned data is written, a crossing snoop is matched, and EvAck answers (R105, R109). -/
def State.notice (s : State) (i line g : Nat) (data : Option (List (BitVec 8))) : State :=
  let owned : Bool := match s.dirEntry line with | some e => e.state == .owned && e.ptrs.contains (i, g) | none => false
  let (_, s) := s.dropPointer line i g
  let s := match data with
    | some d => if owned then s.writeBack line d else s
    | none => s
  let hit := ((s.txn line).bind (fun t => t.snoopOf i g)).isSome
  let s := if hit then (s.count F.COH_CNT_XMATCH 1 (lineQuarter line)).answerSnoop line i (if owned then data else none) else s
  (s.toAgent i 7 line g).progress

/-- EVCLEAN. -/
def execEvclean (p : Port) (k : Packet) (s : State) : Res :=
  .next (s.cohFrom p.val 0x44 k (fun s i line => s.notice i line k.gtag none))
/-- WBDIRTY. -/
def execWbdirty (p : Port) (k : Packet) (s : State) : Res :=
  .next (s.cohFrom p.val 0x45 k (fun s i line => s.notice i line k.gtag (some (sliceBytes k.payload 0 64))))

/-! ### Snoop responses (R102, R109) -/

/-- The response of a local agent to a broadcast that another device's home started (R102 step 3). -/
def State.peerAnswer (s : State) (i : Nat) (lid : BitVec 64) : State :=
  s.setCoh { s.coh with peers := s.coh.peers.map (fun (b : PeerInv) =>
    if b.lid = lid then { b with snoops := b.snoops.filter (fun x => x.agent ≠ i) } else b) }

/-- A snoop response: to a broadcast of a peer, or to a snoop of this home. -/
def State.response (s : State) (p typ : Nat) (k : Packet) (f : State → Nat → Nat → Snoop → State) : State :=
  s.onArrival p typ k (fun s =>
    match s.senderAgent p k with
    | none => s
    | some i =>
      if lidSlot k.addr.toNat ≠ s.slot then (s.peerAnswer i k.addr).settle
      else match (s.txn k.lineOf).bind (fun t => t.snoopOf i k.gtag) with
        | some x => (f s i k.lineOf x).progress.settle
        | none => s)

/-- RSPI (R109): with EVS = 1 the snoop waits for the notice; an agent that the entry names and that denies its copy without a
notice has failed to answer. A broadcast holds no pointers, so its RspI is an answer (log 51). -/
def execRspi (p : Port) (k : Packet) (s : State) : Res :=
  .next (s.response p.val 0x4B k (fun s i line x =>
    let named : Bool := match s.dirEntry line with | some e => e.ptrs.contains (i, x.gtag) | none => false
    if named then
      if k.evs then
        s.updTxn line (fun t => { t with snoops := t.snoops.map (fun (y : Snoop) => if y = x then { y with evs := true } else y) })
      else s.declareDead i 1 true
    else s.answerSnoop line i none))

/-- RSPDATA (R109). -/
def execRspdata (p : Port) (k : Packet) (s : State) : Res :=
  .next (s.response p.val 0x4C k (fun s i line _ => s.answerSnoop line i (some (sliceBytes k.payload 0 64))))

/-- RSPOK (R109). -/
def execRspok (p : Port) (k : Packet) (s : State) : Res :=
  .next (s.response p.val 0x4D k (fun s i line _ => s.answerSnoop line i none))

/-! ### Stashes (R106) -/

/-- The request of a waiting caching access to `line` by agent `i`, whichever of the three it is: one that waits while the Stash is in flight is granted O
with its data (DESIGN CHOICE for a RdShared or an Upgrade, log 140). -/
def State.waitsFor (s : State) (line i : Nat) (x : Nat × TxnWhy) : Option Nat :=
  if x.1 ≠ line then none
  else match x.2 with
    | .rdShared id => if s.reqAgent id = i then some id else none
    | .rdOwn id => if s.reqAgent id = i then some id else none
    | .upgrade id => if s.reqAgent id = i then some id else none
    | _ => none

/-- STASHACK (R106 step 4, R111): the target owns the line, the write takes effect, and a request of the target that waited for the
line completes with the same data. -/
def execStashack (p : Port) (k : Packet) (s : State) : Res :=
  .next (s.cohFrom p.val 0x4E k (fun s i line =>
    match s.txn line with
    | some t =>
      match t.why, t.stash.map (·.1) == some i with
      | .engWrite l _, true =>
        let g := ((Config.gtag0 line).toNat + smGet 0 s.coh.grants line) % 256
        let bytes := t.data.getD []
        let s := ((s.endTxn line).setDir line (some ⟨.owned, [(i, g)], s.coh.clock⟩)).lineDone l none
        let ids := s.coh.waiting.filterMap (s.waitsFor line i)
        let s := s.setCoh { s.coh with waiting := s.coh.waiting.filter (fun x => (s.waitsFor line i x).isNone) }
        (ids.foldl (fun s id => s.grant line id true (some (bytes, false)) true) s).progress
      | _, _ => s
    | none => s))

/-- STASHREF (R106 step 5): the line is written to memory, nothing holds it, and the write takes effect. -/
def execStashref (p : Port) (k : Packet) (s : State) : Res :=
  .next (s.cohFrom p.val 0x4F k (fun s i line =>
    match s.txn line with
    | some t =>
      match t.why, t.stash.map (·.1) == some i with
      | .engWrite l _, true =>
        let s := s.count F.COH_CNT_STASH_REF 1 (lineQuarter line)
        (((s.endTxn line).setDir line none).toStack { l with under := t.data }).progress
      | _, _ => s
    | none => s))

/-! ### Broadcasts between devices (R102) -/

/-- BINV: snoops go to this device's live agents, with the LID of the home. -/
def execBinv (p : Port) (k : Packet) (s : State) : Res :=
  .next (s.onArrival p.val 0x50 k (fun s =>
    let as := s.localAgents
    let b : PeerInv := { lid := k.addr, home := k.src, port := p.val, snoops := as.map (fun i => (⟨i, 0, s.now, false⟩ : Snoop)) }
    let s := s.setCoh { s.coh with peers := s.coh.peers ++ [b] }
    let s := as.foldl (fun s i => s.sendCoh (some (s.fld F.COH_AGENT_PORT 0 i))
      { dst := BitVec.ofNat 20 (s.fld F.COH_AGENT_EP 0 i), src := BitVec.ofNat 20 s.ownEp, typ := 0x48, vc := 2, addr := k.addr,
        w3 := BitVec.ofNat 64 i }) s
    s.settle))

/-- Ends the wait for the BAck of slot `n` on a line. -/
def State.gotBack (s : State) (line n : Nat) : State :=
  s.updTxn line (fun t => { t with backs := t.backs.filter (fun b => b.1 ≠ n) })

/-- BACK. -/
def execBack (p : Port) (k : Packet) (s : State) : Res :=
  .next (s.onArrival p.val 0x51 k (fun s =>
    if lidSlot k.addr.toNat ≠ s.slot then s
    else match s.peers.find? (fun n => s.fld F.COH_PEER_EP_EP 0 n == k.srcN) with
      | some n => (s.gotBack k.lineOf n).progress.settle
      | none => s))

/-! ### Dead agents (R112, R113) -/

/-- Snoop timeout in ns. -/
def State.snpTmo (s : State) : Nat := s.fld1 F.COH_CTL_SNP_TMO * 1000

/-- DEAD. -/
def execDead (p : Port) (k : Packet) (s : State) : Res :=
  .next (s.onArrival p.val 0x52 k (fun s => (s.declareDead k.agent 4 false).settle))

/-- Declares the live agents of a peer slot dead. -/
def State.slotDead (s : State) (n why : Nat) : State :=
  (List.range 64).foldl (fun s j => s.declareDead (n * 64 + j) why true) s

/-- SNOOP_TIMEOUT (R106 step 5, R112): a snoop, or the wait for its notice, has lasted SNP_TMO; or a stash has. -/
def execSnoopTimeout (a : Fin 512) (lid : BitVec 64) (s : State) : Res :=
  .next (let i := a.val
    let late (t : Nat) : Bool := t + s.snpTmo < s.now
    let line := lidLine lid.toNat
    if lidSlot lid.toNat ≠ s.slot then
      if s.coh.peers.any (fun b => b.lid == lid && b.snoops.any (fun x => x.agent == i && late x.since)) then
        (s.declareDead i 1 true).settle
      else s
    else match s.txn line with
      | none => s
      | some t =>
        if t.snoops.any (fun x => x.agent == i && late x.since) then (s.declareDead i 1 true).settle
        else match t.stash with
          | some (j, since) =>
            if j = i ∧ late since then
              let g := ((Config.gtag0 line).toNat + smGet 0 s.coh.grants line) % 256
              let s := s.count F.COH_CNT_STASH_REF 1 (lineQuarter line)
              let s := s.snoop line (i, g) true
              (s.updTxn line (fun t => { t with stash := none, stashLate := true, snoops := t.snoops ++ [⟨i, g, s.now, false⟩] })).settle
            else s
          | none => s)

/-- BACK_TIMEOUT (R102): a BAck is missing 2 × SNP_TMO after its BInv. -/
def execBackTimeout (n : Fin 8) (lid : BitVec 64) (s : State) : Res :=
  .next (let line := lidLine lid.toNat
    match s.txn line with
    | none => s
    | some t =>
      if lidSlot lid.toNat = s.slot ∧ t.backs.any (fun b => b.1 = n.val ∧ b.2 + 2 * s.snpTmo < s.now) then
        ((s.gotBack line n.val).slotDead n.val 5).progress.settle
      else s)

/-- PEER_ROUTE_LOSS (R102, R112): no route to a peer device has existed for 1 ms. -/
def execPeerRouteLoss (n : Fin 8) (s : State) : Res :=
  .next (if s.peers.contains n.val ∧ !s.hasRoute (s.fld F.COH_PEER_EP_EP 0 n.val) ∧ smGet 0 s.coh.routeAt n.val + 1000000 ≤ s.now then
    let s := s.setCoh { s.coh with txns := s.coh.txns.map (fun (t : Txn) => { t with backs := t.backs.filter (fun b => b.1 ≠ n.val) }) }
    (s.slotDead n.val 3).progress.settle
  else s)

/-- COH_DEAD_CMD (R112, Table 4-9). -/
def execCohDeadCmd (w : Writer) (a : Fin 512) (s : State) : Res :=
  .next (s.regWrite w .COH_DEAD_CMD 0 (fun s => ((s.declareDead a.val 0 true).settle).respond .ok))

/-- COH_AGENT_WRITE (R113, Table 4-11). -/
def execCohAgentWrite (w : Writer) (i : Fin 512) (v : BitVec 64) (s : State) : Res :=
  .next (s.regWrite w .COH_AGENT 0 (fun s =>
    let cur := s.regVal .COH_AGENT 0 i.val
    let m := RegName.COH_AGENT.mask accRW
    if F.COH_AGENT_V.of cur = 1 then
      if setBits (v.toNat &&& m) 0 1 0 ≠ setBits (cur &&& m) 0 1 0 then s.respond .accessDenied
      else if F.COH_AGENT_V.of v.toNat = 1 then s.respond .ok
      else if F.COH_AGENT_DEAD.of cur = 0 then s.respond .accessDenied
      else (s.setReg .COH_AGENT (setBits (setBits cur 0 1 0) 2 1 0) 0 i.val).respond .ok
    else (s.setFld F.COH_AGENT_DEAD 0 0 i.val).plainWrite .COH_AGENT 0 i.val 0 v.toNat))

/-- Treats one entry of a slice for a dead agent: the pointers it had when it was declared dead (R113). -/
def State.sweepLine (s : State) (x : Sweep) (line : Nat) : State :=
  let agent := x.agent
  let mine (p : Nat × Nat) : Bool := p.1 == agent && x.held.contains (line, p.2)
  match s.dirEntry line with
  | none => s
  | some e =>
    if e.ptrs.any mine then
      match e.state with
      | .owned => (s.reclaimLine line agent).setDir line none
      | .shared =>
        let ps := e.ptrs.filter (fun p => !mine p)
        s.setDir line (if ps.isEmpty then none else some { e with ptrs := ps })
      | .broad => s
    else s

/-- RECLAIM_SWEEP_END (R113): 16,384 cycles after the declaration the slice of a quarter has swept every set. -/
def execReclaimSweepEnd (q : Quarter) (s : State) : Res :=
  .next (match s.coh.sweeps.find? (fun x => x.q == q.val && x.since + 16384 ≤ s.now) with
    | none => s
    | some x =>
      let ls := (s.coh.dir.filter (fun e => lineQuarter e.1 == q.val)).map (·.1)
      let s := ls.foldl (fun s l => s.sweepLine x l) s
      let this (y : Sweep) : Bool := y.q == x.q && y.agent == x.agent && y.since == x.since
      let n := ((s.coh.sweeps.find? this).map (·.lines)).getD x.lines
      let s := s.setCoh { s.coh with sweeps := s.coh.sweeps.filter (fun y => !this y) }
      let s := s.setFld F.COH_RCL_STAT_BUSY (if s.coh.sweeps.isEmpty then 0 else 1)
      ((s.event (srcCoh q.val) 0x02 [x.agent, min n (2 ^ 32 - 1)]).raise (0x044 + 0x40 * q.val)).settle)

/-! ### The poison list (R114) -/

/-- POISON_LIST_WRITE: the oldest waiting entry leaves for the ring. -/
def execPoisonListWrite (s : State) : Res :=
  .next (match s.coh.plist with
    | [] => s
    | w :: rest =>
      let n := ringSlots (s.fld F.COH_PLIST_SIZE_LOG2N) 9 20
      let k := s.fld F.COH_PLIST_PROD_PROD + s.tl.outPlist.length
      if n = 0 ∨ n ≤ (k + 2 ^ 32 - s.fld F.COH_PLIST_CONS_CONS) % 2 ^ 32 ∨ !s.msgRoom then s
      else
        let src := stackQuarter (bits w 0 4)
        let s := s.setCoh { s.coh with plist := rest }
        let s := s.setTl { s.tl with outPlist := s.tl.outPlist ++ [(false, src)] }
        s.hostWrite (s.fld F.COH_PLIST_BASE_BASE * 4096 + k % n * 8) (toBytes 8 w) (.ring .plist src))

end Sys2Proof.Machine
end

