-- ==== Sys2Proof/Machine/StackOps.lean ====
section
/-!
DEFINITION. Stack controllers: address mapping, urgency, port buffers and bank queues, serving a line, stack states and the states
of parity groups and mirror pairs (R119 to R127, R137, R138, R164).
-/
namespace Sys2Proof.Machine
open Sys2Proof

/-! ### Address mapping (R119) -/

def frameRow (page : Nat) : Nat := page / 16
def lineBgroup (page line : Nat) : Nat := (line / 512 * 4 + page % 4) ^^^ (frameRow page % 8)
/-- Bank key: channel × 32 + bank group × 4 + bank. -/
def bankKey (page line : Nat) : Nat := lineChannel page line * 32 + lineBgroup page line * 4 + page / 4 % 4

def LineReq.bank (l : LineReq) : Nat := bankKey (keyPage l.frame) l.line
def LineReq.row (l : LineReq) : Nat := frameRow (keyPage l.frame)
def LineReq.sameLine (a b : LineReq) : Bool := a.frame == b.frame && a.line == b.line

/-! ### Cycles and urgency (R122) -/

/-- Controller cycles of 0.625 ns at a time in ns. -/
def cyclesAt (ns : Nat) : Nat := ns * 8 / 5

/-- T of a latency target. -/
def targetCycles (ns : Nat) : Nat := (max 1 ns * 8 + 4) / 5

/-- Urgency of a request at cycle `c`. -/
def LineReq.urgency (l : LineReq) (c : Nat) : Nat :=
  let dead := l.arr + l.target
  if dead ≤ c then 3
  else
    let slack := dead - c
    if slack ≤ l.target / 4 then 2 else if slack ≤ l.target / 2 then 1 else 0

/-! ### Placement classes (R138) -/

/-- Class of a placement word: 0 = hot, 1 = cold, 2 = neither, 3 = pinned. -/
def State.placeClass (s : State) (w : Nat) : Nat :=
  if placeHint w = 3 then 3
  else if s.fld F.STK_PLC_CTL_SRC = 0 then (if placeHint w = 1 then 0 else if placeHint w = 2 then 1 else 2)
  else if s.fld F.STK_PLC_CTL_HOT_THR ≤ placeCnt w then 0
  else if placeCnt w ≤ s.fld F.STK_PLC_CTL_COLD_THR then 1 else 2

/-! ### Group and pair states (R164, Table 6-6) -/

/-- The new state of a unit whose missing members are `lost`; `gone` when one of them is not there to be rebuilt (R164). -/
def unitNext (old : Nat) (lost : List Nat) (gone : Bool) : Nat :=
  if old = 3 then 3
  else match lost with
    | [] => 0
    | [_] => if old = 2 ∧ !gone then 2 else 1
    | _ => 3

/-- A unit changes state: its register field is stored by `put`, the event names the stack that caused it; a rebuild that runs on a
unit which fails, or whose stack is lost again, ends POISON. -/
def State.unitChange (s : State) (cause unit pair old new : Nat) (put : State → State) : State :=
  if old = new then put s
  else
    let s := ((put s).event (srcStack cause) 0x12 [unit + pair * 2 ^ 2 + old * 2 ^ 5 + new * 2 ^ 7]).raise (4 * cause + 2)
    if (new = 3 ∨ new = 1) ∧ s.flag F.STK_REB_STAT_BUSY ∧ old = 2 then
      (s.setFld F.STK_REB_STAT_BUSY 0).setFld F.STK_REB_STAT_STATUS Status.poison.code
    else s

/-- Recomputes the P1 unit of a group. -/
def State.groupUnit (s : State) (cause g : Nat) : State :=
  let lost := ((List.range 8).map (· + 8 * g)).filter (fun x => s.stackLost 1 x)
  let f := if g = 0 then F.STK_GRP_STAT_A_STATE else F.STK_GRP_STAT_B_STATE
  let m := if g = 0 then F.STK_GRP_STAT_A_STK else F.STK_GRP_STAT_B_STK
  let old := s.fld f
  let new := unitNext old lost (lost.any (fun x => (s.stk x).missing))
  s.unitChange cause g 0 old new (fun s => (s.setFld f new).setFld m (if new = 3 then s.fld m else lost.headD 0))

/-- Recomputes the P2 unit of a pair. -/
def State.pairUnit (s : State) (cause k : Nat) : State :=
  let lo := k % 4 + k / 4 * 8
  let lost := [lo, lo + 4].filter (fun x => s.stackLost 2 x)
  let w := s.fld F.STK_GRP_STAT_PAIR
  let old := bits w (2 * k) 2
  let new := unitNext old lost (lost.any (fun x => (s.stk x).missing))
  s.unitChange cause 2 k old new (fun s =>
    (s.setFld F.STK_GRP_STAT_PAIR (setBits w (2 * k) 2 new)).setFld F.STK_GRP_STAT_PAIR_MISS
      (setBits (s.fld F.STK_GRP_STAT_PAIR_MISS) k 1 (if lost = [lo + 4] then 1 else 0)))

/-- Recomputes the units stack `x` belongs to. -/
def State.units (s : State) (x : Nat) : State := (s.groupUnit x (x / 8)).pairUnit x (pairOf x)

/-- A stack goes missing, or comes back and then awaits rebuild (R164). -/
def State.setMissing (s : State) (x : Nat) (b : Bool) : State :=
  let k := s.stk x
  if k.missing = b then s
  else if b then (s.setStk x { k with missing := true }).units x
  else (s.setStk x { k with missing := false, awaitP1 := true, awaitP2 := true, rebTo := 0, rebLost := 0 }).units x

/-- Keeps BUSY and QUEUED of `XLT_RVK_STAT` and RVK of a context. -/
def State.rvkStat (s : State) (c : Nat) : State :=
  let s := (s.setFld F.XLT_RVK_STAT_BUSY (if s.xlt.rvkRun.isEmpty then 0 else 1)).setFld F.XLT_RVK_STAT_QUEUED s.xlt.rvkQ.length
  s.setFld F.XLT_CTX_GEN_RVK (if (s.xlt.rvkQ ++ s.xlt.rvkRun).any (fun r => r.ctx == c) then 1 else 0) 0 c

/-- Frees a migration slot with a status; its source raises (Table 5-8). -/
def State.freeSlot (s : State) (x k : Nat) (st : Status) : State :=
  let m := s.stk x
  let s := s.setStk x { m with mig := setAt m.mig k {} }
  let s := (s.setFld F.STK_MIG_STAT_STATE 0 x k).setFld F.STK_MIG_STAT_STATUS st.code x k
  s.raise (4 * x + 3)

/-- Slots of one batch (R141). -/
def MigSlot.sameBatch (a b : MigSlot) : Bool := a.ctx == b.ctx && a.seg == b.seg && a.batch == b.batch

/-- Ends the batches with a slot that `p` names, in whatever state their slots are (Table 5-9): a REMAP of theirs that has not started is withdrawn; one
that runs goes on without them (log 38). -/
def State.endMigrations (s : State) (p : MigSlot → Bool) (st : Status) : State :=
  let open_ := s.migSlots.filter (fun m => m.2.2.2 ≠ 0)
  let hit := open_.filter (fun m => p m.2.2.1)
  let out := open_.filter (fun o => hit.any (fun m => m.2.2.1.sameBatch o.2.2.1))
  if out.isEmpty then s
  else
    let s := out.foldl (fun s o => s.freeSlot o.1 o.2.1 st) s
    let mine (r : Revoke) : Bool := r.slots.any (fun x => out.any (fun o => o.1 == x.1 && o.2.1 == x.2))
    let s := { s with xlt := { s.xlt with
      rvkQ := s.xlt.rvkQ.filter (fun r => !mine r)
      rvkRun := s.xlt.rvkRun.map (fun r => if mine r then { r with slots := [] } else r) } }
    (out.map (fun o => o.2.2.1.ctx)).eraseDups.foldl State.rvkStat s

/-- Sets a stack's STATE; a stack that fails or is absent is missing, one that opens is not (R164). -/
def State.setStkState (s : State) (x st : Nat) : State :=
  let old := s.stkState x
  let s := s.setFld F.STK_STAT_STATE st x
  let s := if old = st then s else s.raise (4 * x + 2)
  if st = 7 ∨ st = 0 then
    (s.setMissing x true).endMigrations (fun m => keyStack m.src == x || keyStack m.dst == x) .poison
  else if st = 2 ∨ st = 3 then s.setMissing x false
  else s

/-! ### Serving a line -/

/-- A controller serves a line of a piece: the piece's frame counts it once (R138). -/
def State.touchPiece (s : State) (id n frame : Nat) : State :=
  match s.piece id n with
  | some p => if p.seen then s else (s.touchFrame frame).updPiece id n (fun p => { p with seen := true })
  | none => s

/-- The piece that a transaction of the directory reads a line for. -/
def TxnWhy.piece : TxnWhy → Option (Nat × Nat)
  | .rdShared id => some (id, 0)
  | .rdOwn id => some (id, 0)
  | .upgrade id => some (id, 0)
  | .engWrite l _ => some (l.req, l.piece)
  | _ => none

/-- A correction on a read for a piece is counted for its context (R331). -/
def State.observeFixed (s : State) (id n : Nat) : State :=
  match s.req id, s.piece id n with
  | some q, some p => s.observeCE q.chan.ctx p.seg p.page
  | _, _ => s

/-- The line read of the directory's open transaction (R121, R415). -/
def State.serveGrant (s : State) (l : LineReq) : State :=
  let line := lineKey l.frame l.line
  match s.txn line with
  | none => s
  | some t =>
    let r := s.readLine l.frame l.line 0
    let s := if r.poison then r.state.count F.STK_UE_CNT_PRD 1 (keyStack l.frame) else r.state
    let s := match t.why.piece with
      | some (id, n) => let s := s.touchPiece id n l.frame; if !r.poison && r.fixed then s.observeFixed id n else s
      | none => s
    (s.updTxn line (fun t => { t with reading := false, got := some (r.bytes, r.poison) })).progress

/-- A metadata line that holds extent entries: the table is striped over all sixteen stacks (R48, R50; in this order: log 37). -/
def extLine (i : Nat) : Nat × Nat :=
  let n := i / 4
  (frameKey (n % 16) (metaPage 0 (n / 16 / 1024)), n / 16 % 1024)

/-- Sends the next probe of a walk to port 4 of the stack of its line (R48, R121). -/
def State.sendProbe (s : State) (x : Walk) : State :=
  match x.probes with
  | [] => s
  | i :: _ =>
    let a := extLine i
    s.toStack { req := 0, piece := 0, port := 4, frame := a.1, line := a.2, wr := false, off := 0, len := 64, bytes := [], src := .probe x.q x.walker i }

/-- A probe of a walk is served: the walker reads its next line. -/
def State.serveProbe (s : State) (q w i : Nat) : State :=
  match s.xlt.walks.find? (fun x => x.q == q && x.walker == w && x.probes.head? == some i) with
  | none => s
  | some x =>
    let y := { x with probes := x.probes.drop 1 }
    ({ s with xlt := { s.xlt with walks := s.xlt.walks.map (fun z => if z = x then y else z) } } : State).sendProbe y

/-- The line access takes effect: a read returns its bytes, a write stores them. -/
def State.serveLine (s : State) (l : LineReq) : State :=
  match l.src with
  | .grant => s.serveGrant l
  | .back => (s.writeLine l).2.progress
  | .probe q w i => s.serveProbe q w i
  | .piece =>
    let s := s.touchPiece l.req l.piece l.frame
    if l.wr then
      let (st, s) := s.writeLine l
      s.lineDone l (if st = .ok then none else some st)
    else
      let r := s.readLine l.frame l.line 0
      let t := if !r.poison && r.fixed then r.state.observeFixed l.req l.piece else r.state
      t.lineRead l r.bytes r.poison

/-- A read behind queued writes of its line, earliest first: it takes its data from them, and the rest of the line from memory (R123). -/
def State.serveBehind (s : State) (l : LineReq) (ws : List LineReq) : State :=
  let t := ws.foldl (fun (t : State) w => (t.writeLine w).2) s
  let r := t.readLine l.frame l.line 0
  match l.src with
  | .piece => (s.touchPiece l.req l.piece l.frame).lineRead l r.bytes r.poison
  | .grant => (s.updTxn (lineKey l.frame l.line) (fun t => { t with reading := false, got := some (r.bytes, r.poison) })).progress
  | _ => s

/-! ### Port buffers and bank queues (R121, R123) -/

/-- The buffered requests of all ports, oldest first. -/
def insertArr (l : LineReq) : List LineReq → List LineReq
  | [] => [l]
  | x :: xs => if l.arr < x.arr then l :: x :: xs else x :: insertArr l xs

def Stk.buffered (k : Stk) : List LineReq := (k.bufs.flatMap (·.2)).foldl (fun a l => insertArr l a) []

/-- Takes buffered requests, oldest first, into the queues of their banks; one whose queue is full keeps later ones of its bank behind it, and is
counted once. A read that finds an earlier write to its line in the queue is served from it (R123). -/
def fillQueues (x : Nat) : List LineReq → List Nat → State → State
  | [], _, s => s
  | l :: rest, blocked, s =>
    let k := s.stk x
    let q := smGet [] k.queues l.bank
    let buf := smGet [] k.bufs l.port
    let ws := q.filter (fun w => w.wr && w.sameLine l)
    if blocked.contains l.bank || 16 ≤ q.length then
      if l.waited then fillQueues x rest (l.bank :: blocked) s
      else
        let s := s.setStk x { k with bufs := smSet [] k.bufs l.port (buf.map (fun y => if y = l then { y with waited := true } else y)) }
        fillQueues x rest (l.bank :: blocked) (s.count F.STK_CNT_QWAIT 1 x)
    else
      let s := s.setStk x { k with bufs := smSet [] k.bufs l.port (buf.erase l) }
      if !l.wr && !ws.isEmpty then fillQueues x rest blocked (s.serveBehind l ws)
      else
        let k := s.stk x
        fillQueues x rest blocked (s.setStk x { k with queues := smSet [] k.queues l.bank (q ++ [l]) })

def State.fillStk (s : State) (x : Nat) : State :=
  if s.stkServes x then fillQueues x (s.stk x).buffered [] s else s

/-! ### Loss of a stack -/

/-- What waits at a stack that is lost is served as every access to a missing member is, when it next arrives (R164). -/
def State.drainLost (s : State) (x : Nat) : State :=
  let k := s.stk x
  if k.missing then
    let ls := k.queues.flatMap (·.2)
    let coming := (List.range 8).foldl (fun m p =>
      smSet [] m p (ls.filter (fun l => l.port == p) ++ smGet [] k.bufs p ++ smGet [] k.coming p)) k.coming
    s.setStk x { k with coming := coming, bufs := [], queues := [] }
  else s

/-- A temperature reading of a stack. -/
def State.setTemp (s : State) (x t : Nat) : State :=
  (s.setFld F.STK_STAT_TEMP t x).setFld F.STK_STAT_REF_2X (if s.fld F.STK_REF_HOT_C x < t then 1 else 0) x

/-- A stack fails in service (R375, R384): its state becomes 7. -/
def State.failStack (s : State) (x : Nat) : State := (s.setStkState x 7).drainLost x

end Sys2Proof.Machine
end

