-- ==== Sys2Proof/Machine/BankOps.lean ====
section
/-!
DEFINITION. Banks and channels of a stack: the timings of Table 5-3, which column access and which row command a channel issues in a cycle, row-hammer
tables and refresh debts (R122 to R133).
-/
namespace Sys2Proof.Machine
open Sys2Proof

def State.bank (s : State) (x b : Nat) : Bank := smGet {} (s.stk x).banks b
def State.setBank (s : State) (x b : Nat) (v : Bank) : State :=
  let k := s.stk x
  s.setStk x { k with banks := smSet {} k.banks b v }
def State.chanSt (s : State) (x c : Nat) : ChanSt := smGet {} (s.stk x).chans c
def State.setChanSt (s : State) (x c : Nat) (v : ChanSt) : State :=
  let k := s.stk x
  s.setStk x { k with chans := smSet {} k.chans c v }
def State.bankQ (s : State) (x b : Nat) : List LineReq := smGet [] (s.stk x).queues b

/-- The banks of a channel, and the bank group of a bank. -/
def chanBanks (ch : Nat) : List Nat := (List.range 32).map (· + ch * 32)
def bankGroup (b : Nat) : Nat := b / 4 % 8

/-- The controller cycles of the present nanosecond. -/
def State.cycles (s : State) : List Nat := (List.range (cyclesAt (s.now + 1) - cyclesAt s.now)).map (· + cyclesAt s.now)

/-! ### Strict isolation (R333, R334) -/

/-- The colour of a bank: its place in its bank group; without strict isolation all are one (R333). -/
def State.bankColour (s : State) (b : Nat) : Nat := if s.flag F.SEC_STAT_STRICT then b % 4 else 0

/-- Cycle `c` may carry commands for bank `b`: rounds of 96 cycles give each colour 16 cycles in turn, and 8 idle ones after them (R334). Where
a round begins is not given: one begins at cycle 0. -/
def State.inSlot (s : State) (b c : Nat) : Bool := !s.flag F.SEC_STAT_STRICT || (c % 24 < 16 && c / 24 % 4 == b % 4)

/-- The first cycle from `c` on that may carry commands for bank `b`. -/
def State.slotFrom (s : State) (b c : Nat) : Nat :=
  if s.inSlot b c then c else c + (96 - (c + 96 - 24 * (b % 4)) % 96)

/-- At most two activates in a slot (R334). -/
def State.slotActs (s : State) (x ch c : Nat) : Bool :=
  !s.flag F.SEC_STAT_STRICT || ((smGet {} (s.stk x).chans ch : ChanSt).acts.filter (fun a => c - c % 24 ≤ a)).length < 2

/-! ### Timings (R128, Table 5-3) -/

/-- At cycle `c`, `d` cycles have passed since an event, if it has happened. -/
def elapsed (e : Option Nat) (d c : Nat) : Bool := match e with | some a => a + d ≤ c | none => true

/-- tRC and tRFCpb as they act (R128). -/
def State.tRC (s : State) (x : Nat) : Nat := max 48 (s.fld F.STK_TIM0_TRC x)
def State.tRFC (s : State) (x : Nat) : Nat := max 160 (s.fld F.STK_REF_TRFCPB x)

/-- A closed bank may take an activate or a refresh: tRP, tRC and tRFCpb are met. -/
def State.bankReady (s : State) (x b c : Nat) : Bool :=
  let k := s.bank x b
  k.row.isNone && elapsed k.pre (s.fld F.STK_TIM0_TRP x) c && elapsed k.act (s.tRC x) c && elapsed k.ref (s.tRFC x) c

/-- An open bank may be precharged: tRAS is met. -/
def State.preReady (s : State) (x b c : Nat) : Bool :=
  let k := s.bank x b
  k.row.isSome && elapsed k.act (s.fld F.STK_TIM0_TRAS x) c

/-- A closed bank may be activated: tRRD and tFAW of its channel allow it too. -/
def State.actReady (s : State) (x ch b c : Nat) : Bool :=
  s.bankReady x b c && s.slotActs x ch c &&
    (chanBanks ch).all (fun y => elapsed (s.bank x y).act
      (if bankGroup y = bankGroup b then s.fld F.STK_TIM1_TRRD_L x else s.fld F.STK_TIM1_TRRD_S x) c) &&
    elapsed (s.chanSt x ch).acts[3]? (s.fld F.STK_TIM1_TFAW x) c

/-- A column command may follow those of its channel: tRCD, tCCD, tWTR and tRTW are met. -/
def State.colReady (s : State) (x ch : Nat) (l : LineReq) (c : Nat) : Bool :=
  let k := s.chanSt x ch
  let g := bankGroup l.bank
  let ccd (e : Nat × Nat) : Bool := e.2 + (if e.1 = g then s.fld F.STK_TIM1_TCCD_L x else s.fld F.STK_TIM1_TCCD_S x) ≤ c
  elapsed (s.bank x l.bank).act (s.fld F.STK_TIM0_TRCD x) c &&
    k.rdAt.all (fun e => ccd e && (!l.wr || e.2 + s.fld F.STK_TIM0_TRTW x ≤ c)) &&
    k.wrAt.all (fun e => ccd e && (l.wr || e.2 + (if e.1 = g then s.fld F.STK_TIM0_TWTR_L x else s.fld F.STK_TIM0_TWTR_S x) ≤ c))

/-- Closes the row of a bank at cycle `c`. -/
def State.precharge (s : State) (x b c : Nat) : State := s.setBank x b { s.bank x b with row := none, pre := some c }

/-! ### Column accesses (R123, R124, R127) -/

/-- Hits a bank may take while a request for another row waits. -/
def State.streakLimit (s : State) (x : Nat) : Nat := s.fld1 F.STK_CTL_STREAK x

/-- The accesses of a queue that are each the first of their line. -/
def lineHeads : List LineReq → List LineReq → List LineReq
  | _, [] => []
  | seen, l :: rest => if seen.any l.sameLine then lineHeads seen rest else l :: lineHeads (l :: seen) rest

/-- The request that a bank owes service: its streak has reached the limit, and this one, for another row, waits longest (R127). -/
def State.owed (s : State) (x b : Nat) : Option LineReq :=
  let k := s.bank x b
  if k.streak < s.streakLimit x then none
  else ((lineHeads [] (s.bankQ x b)).filter (fun l => some l.row ≠ k.streakRow && !s.writeWaits l)).foldl (fun (a : Option LineReq) l => match a with
    | none => some l
    | some m => if l.arr < m.arr then some l else some m) none

/-- A bank that R127 blocks: its open row takes no further hits. -/
def State.bankBlocked (s : State) (x b : Nat) : Bool :=
  (s.bank x b).row == (s.bank x b).streakRow && (s.owed x b).isSome

/-- The eligible column accesses of a channel at cycle `c` (R124). -/
def State.columnEligible (s : State) (x ch c : Nat) : List LineReq :=
  (((chanBanks ch).filter (s.inSlot · c)).flatMap (fun b =>
    let ls := (lineHeads [] (s.bankQ x b)).filter (fun l => some l.row == (s.bank x b).row)
    match s.owed x b with
    | some w => ls.filter (· == w)
    | none => ls)).filter (fun l => !s.writeWaits l && s.colReady x ch l c)

/-- `a` is picked before `b` (R124). -/
def pickBefore (c : Nat) (lastWr : Bool) (a b : LineReq) : Bool :=
  let ua := a.urgency c
  let ub := b.urgency c
  if ua ≠ ub then ub < ua
  else
    let da := a.wr == lastWr
    let db := b.wr == lastWr
    if da ≠ db then da else a.arr < b.arr

def pickBest (c : Nat) (lastWr : Bool) : List LineReq → Option LineReq
  | [] => none
  | l :: rest =>
    match pickBest c lastWr rest with
    | none => some l
    | some m => if pickBefore c lastWr m l then some m else some l

/-- Channel `ch` trains in these 2 µs (R135): its requests wait. -/
def State.inPass (s : State) (x ch : Nat) : Bool :=
  match (s.stk x).pass with
  | some (_, t) => t + 2000 * ch ≤ s.now && s.now < t + 2000 * (ch + 1)
  | none => false

/-- The column budget of a window that is left to a channel at cycle `c` (R129). -/
def State.budget (s : State) (x ch c : Nat) : Nat :=
  let k := s.chanSt x ch
  min 64 (max 1 (s.stk x).cols) - (if k.window = c / 64 then k.cols else 0)

/-- The column access a channel issues at cycle `c`, if any (R124, R129, R135). -/
def State.columnPick (s : State) (x ch c : Nat) : Option LineReq :=
  if !s.stkServes x || s.inPass x ch || s.budget x ch c = 0 || c < (s.chanSt x ch).colFree then none
  else
    let ls := s.columnEligible x ch c
    pickBest c (smGet false (s.chanSt x ch).lastWr ((ls.head?.map (fun l => s.bankColour l.bank)).getD 0)) ls

/-- The channel and the bank after a column command at cycle `c` (R124, R126, R127, R129). -/
def State.columnDone (s : State) (x ch c : Nat) (l : LineReq) : State :=
  let k := s.chanSt x ch
  let g := bankGroup l.bank
  let s := s.setChanSt x ch { k with
    window := c / 64, cols := (if k.window = c / 64 then k.cols else 0) + 1, colFree := c + 1
    lastWr := smSet false k.lastWr (s.bankColour l.bank) l.wr
    rdAt := if l.wr then k.rdAt else smInsert (smErase k.rdAt g) g c
    wrAt := if l.wr then smInsert (smErase k.wrAt g) g c else k.wrAt }
  let b := s.bank x l.bank
  let q := s.bankQ x l.bank
  let hist := (b.hist * 2 + (if b.fresh then 0 else 1)) % 256
  let hit := q.any (fun r => some r.row = b.row)
  let close := !hit && popCount 8 hist < min 8 (s.fld F.STK_CTL_PRED_THR x)
  let streak := if !b.fresh && q.any (fun r => some r.row ≠ b.row) then b.streak + 1 else 0
  s.setBank x l.bank { b with
    hist := hist, streak := streak, streakRow := b.row, fresh := false, lastHit := c
    row := if close then none else b.row
    -- an auto-precharge waits for tRAS
    pre := if close then some (max c ((b.act.getD 0) + s.fld F.STK_TIM0_TRAS x)) else b.pre }

/-! ### Row hammer (R132, R133) -/

/-- THR of a stack (R132). -/
def State.rhThr (s : State) (x : Nat) : Nat :=
  let n := s.fld F.STK_RH_THR_LOG2 x
  if 8 ≤ n ∧ n ≤ 13 then 2 ^ n else 1024

/-- The row-hammer table after an activate of row `r`, with the neighbour rows it queues. -/
def rhActivate (b : Bank) (r m : Nat) : Bool × Bank :=
  let find := b.rh.any (fun e => e.1 == r)
  let b :=
    if find then { b with rh := b.rh.map (fun e => if e.1 = r then (r, e.2 + 1) else e) }
    else if b.rh.length < 16 ∧ b.spill = 0 then { b with rh := b.rh ++ [(r, 1)] }
    else match b.rh.findIdx? (fun e => e.2 == b.spill) with
      | some i => { b with rh := setAt b.rh i (r, b.spill + 1) }
      | none => { b with spill := b.spill + 1 }
  match b.rh.find? (fun e => e.1 == r) with
  | some e =>
    if e.2 % m = 0 then
      let ns := (if 2 ≤ r then [r - 2] else []) ++ (if 1 ≤ r then [r - 1] else []) ++ ([r + 1, r + 2].filter (· ≤ 98303))
      (true, { b with nref := b.nref ++ ns })
    else (false, b)
  | none => (false, b)

/-- The time at which the row-hammer table of a bank clears next: bank b of a channel at offset b × P ÷ 32 of the period (R132). -/
def State.clearDue (s : State) (x b : Nat) : Nat :=
  let k := s.bank x b
  if k.clearAt = 0 then (s.stk x).rhAt + b % 32 * (s.rhThr x * 64) / 32 else k.clearAt

/-- An activate at cycle `c` on the channel: its last four (tFAW). -/
def State.noteAct (s : State) (x ch c : Nat) : State :=
  let k := s.chanSt x ch
  s.setChanSt x ch { k with acts := (c :: k.acts).take 4 }

/-- Activates a row at cycle `c`. -/
def State.activate (s : State) (x ch b r c : Nat) : State :=
  let (t, k) := rhActivate (s.bank x b) r (s.rhThr x / 2)
  let s := (s.setBank x b { k with row := some r, fresh := true, act := some c, lastHit := c }).noteAct x ch c
  if t then s.count F.STK_CNT_RH_TRIG 1 x else s

/-- A neighbour refresh of the first row queued: an activate that the table does not count, and a precharge once tRAS is met (R132). -/
def State.refreshRow (s : State) (x ch b c : Nat) : State :=
  let k := s.bank x b
  (s.setBank x b { k with nref := k.nref.drop 1, act := some c, pre := some (s.slotFrom b (c + s.fld F.STK_TIM0_TRAS x)) }).noteAct x ch c

/-! ### Row commands (R125, R130, R131) -/

def maxUrgency (c : Nat) (q : List LineReq) : Nat := q.foldl (fun a l => max a (l.urgency c)) 0
def oldestArr (q : List LineReq) : Nat := q.foldl (fun a l => min a l.arr) ((q.head?.map (·.arr)).getD 0)

/-- The row a closed bank activates: that of the request it owes service (R127), else that of its most urgent request, the oldest of them. Which
row it is among requests for several is not given (DESIGN CHOICE, log 142). -/
def State.wantedRow (s : State) (x b c : Nat) : Option Nat :=
  match s.owed x b with
  | some w => some w.row
  | none =>
    let q := s.bankQ x b
    let u := maxUrgency c q
    ((q.filter (fun l => l.urgency c == u)).head?).map (·.row)

/-- Debt at which a refresh is forced (R131). -/
def State.postpone (s : State) (x : Nat) : Nat := min 8 (s.fld F.STK_REF_POSTPONE x)

/-- Refreshes a bank at cycle `c`. -/
def State.refresh (s : State) (x b c : Nat) : State :=
  let k := s.bank x b
  s.setBank x b { k with debt := k.debt - 1, ref := some c }

/-- A bank's queue holds a request of urgency 3. -/
def State.urgent (s : State) (x b c : Nat) : Bool := maxUrgency c (s.bankQ x b) == 3

/-- The bank to activate: the first bank group from the pointer with an eligible bank, its most urgent then oldest bank (R125). -/
def State.activateBank (s : State) (x ch c : Nat) : Option Nat :=
  let ok := (chanBanks ch).filter (fun b => s.inSlot b c && !(s.bankQ x b).isEmpty && s.actReady x ch b c)
  let ok := if ok.any (fun b => s.urgent x b c) then ok.filter (fun b => s.urgent x b c) else ok
  let g0 := smGet 0 (s.chanSt x ch).bgp ((ok.head?.map s.bankColour).getD 0)
  let best (bs : List Nat) : Option Nat := bs.foldl (fun (a : Option Nat) b => match a with
    | none => some b
    | some y =>
      let ub := maxUrgency c (s.bankQ x b)
      let uy := maxUrgency c (s.bankQ x y)
      if uy < ub ∨ (uy = ub ∧ oldestArr (s.bankQ x b) < oldestArr (s.bankQ x y)) then some b else a) none
  (List.range 8).findSome? (fun i => best (ok.filter (fun b => bankGroup b == (g0 + i) % 8)))

/-- The first of `bs` that can take a refresh, or the precharge that must come before it. -/
def State.toRefresh (s : State) (x c : Nat) (bs : List Nat) (go : State → Nat → State) : Option State :=
  bs.findSome? (fun b => if s.bankReady x b c then some (go s b) else if s.preReady x b c then some (s.precharge x b c) else none)

/-- The row of an open bank is idle: no queued hit, and IDLE_CLOSE cycles without one (R126). -/
def State.rowIdle (s : State) (x b c : Nat) : Bool :=
  let k := s.bank x b
  k.lastHit + s.fld1 F.STK_CTL_IDLE_CLOSE x ≤ c && !(s.bankQ x b).any (fun l => some l.row == k.row)

/-- The row command a channel issues at cycle `c`, in the order of R125; none when it issues nothing. A refresh that is due and neither forced nor pulled
in stands after the forced ones (DESIGN CHOICE, log 141). Strict isolation lets only the banks of the slot's colour have commands, and postpones and pulls
in no refresh (R334). -/
def State.rowCommand (s : State) (x ch c : Nat) : Option State :=
  let strict := s.flag F.SEC_STAT_STRICT
  let bs := (chanBanks ch).filter (s.inSlot · c)
  let debt (b : Nat) : Int := (s.bank x b).debt
  if c < (s.chanSt x ch).rowFree || s.inPass x ch then none
  else
    (s.toRefresh x c (bs.filter (fun b => !strict && 0 < debt b && ((s.postpone x : Int) ≤ debt b)))
      (fun s b => (s.count F.STK_CNT_FREF 1 x).refresh x b c)).or <|
    (s.toRefresh x c (bs.filter (fun b => 0 < debt b && (strict || !s.urgent x b c))) (fun s b => s.refresh x b c)).or <|
    ((bs.filter (fun b => !(s.bank x b).nref.isEmpty)).findSome? (fun b =>
      if s.actReady x ch b c then some (s.refreshRow x ch b c) else if s.preReady x b c then some (s.precharge x b c) else none)).or <|
    ((bs.find? (fun b => s.preReady x b c && match (s.bank x b).row with
      | some r => (s.bankQ x b).any (fun l => l.row != r && l.urgency c == 3) && !(s.bankQ x b).any (fun l => l.row == r && l.urgency c == 3)
      | none => false)).map (fun b => s.precharge x b c)).or <|
    ((if s.stkServes x then s.activateBank x ch c else none).bind (fun b => (s.wantedRow x b c).map (fun r =>
      (s.setChanSt x ch { s.chanSt x ch with bgp := smSet 0 (s.chanSt x ch).bgp (s.bankColour b) ((bankGroup b + 1) % 8) }).activate x ch b r c))).or <|
    ((bs.find? (fun b => s.preReady x b c && (s.bankBlocked x b || s.rowIdle x b c))).map (fun b => s.precharge x b c)).or <|
    ((bs.find? (fun b => !strict && (s.bankQ x b).isEmpty && -8 < debt b && s.bankReady x b c)).map (fun b => s.refresh x b c))

end Sys2Proof.Machine
end

