-- ==== Sys2Proof/Machine/Stacks.lean ====
section
/-!
DEFINITION. Commands of the stack controllers: requests, commands to the stack, refresh, row hammer, training, self-refresh,
placement and migration (R118 to R143).
-/
namespace Sys2Proof.Machine
open Sys2Proof

/-! ### Arrival (R121 to R123, R137, R153, R164) -/

/-- STACK_REQUEST_ARRIVAL: the oldest access on its way to port `k` is stamped and buffered, where the buffer has room. A missing stack's accesses are
served by its group or pair, or fail (Table 6-6); `e` is what such an access finds. The request keeps the stack from sleep or wakes it. -/
def execStackRequestArrival (x : Stack) (k : Fin 8) (e : ReadErr) (s : State) : Res :=
  let x := x.val
  .next (match smGet [] (s.stk x).coming k.val with
    | [] => s
    | l :: rest =>
      let st := s.stk x
      if 64 ≤ (smGet [] st.bufs k.val).length then s
      else
        let st := { st with coming := smSet [] st.coming k.val rest }
        if st.missing then (((s.setStk x st).upset e).serveLine l).settle
        else
          let l := { l with arr := cyclesAt s.now, target := targetCycles (s.fld F.STK_PORT_TARGET_NS x k.val) }
          let s := s.setStk x { st with bufs := smSet [] st.bufs k.val (smGet [] st.bufs k.val ++ [l]) }
          ((s.askStk x).fillStk x).settle)

/-! ### Column and row commands (R123 to R133) -/

/-- COLUMN_COMMAND_ISSUE (R124, R126, R127, R129, R144, R155): in the first cycle of this nanosecond in which the channel may issue a column command, the
read or write it picks is served; `e` is what a read of the line finds. -/
def execColumnCommandIssue (x : Stack) (ch : Fin 32) (e : ReadErr) (s : State) : Res :=
  let x := x.val
  let ch := ch.val
  .next (
    let s := s.fillStk x
    match s.cycles.findSome? (fun c => (s.columnPick x ch c).map (fun l => (c, l))) with
    | none => s.settle
    | some (c, l) =>
      let s := if l.urgency c = 3 then s.count F.STK_CNT_URG3 1 x else s
      let k := s.stk x
      let s := s.setStk x { k with queues := smSet [] k.queues l.bank ((s.bankQ x l.bank).erase l) }
      let s := ((s.columnDone x ch c l).upset e).serveLine l
      (s.fillStk x).settle)

/-- ROW_COMMAND_ISSUE (R125): the row command of the first cycle of this nanosecond in which the channel has one. -/
def execRowCommandIssue (x : Stack) (ch : Fin 32) (s : State) : Res :=
  let x := x.val
  let ch := ch.val
  .next (
    let st := s.stkState x
    if st ≠ 2 ∧ st ≠ 3 ∧ st ≠ 4 then s
    else
      let s := s.fillStk x
      match s.cycles.findSome? (fun c => (s.rowCommand x ch c).map (fun t => (c, t))) with
      | none => s.settle
      | some (c, t) => (t.setChanSt x ch { t.chanSt x ch with rowFree := c + 1 }).settle)

/-- IDLE_CLOSE (R126): the precharge of an idle row, in a cycle in which it may issue. -/
def execIdleClose (x : Stack) (ch : Fin 32) (b : Fin 32) (s : State) : Res :=
  .next (let key := ch.val * 32 + b.val
    let may (c : Nat) : Bool := (s.chanSt x.val ch.val).rowFree ≤ c && s.inSlot key c && s.preReady x.val key c && s.rowIdle x.val key c
    match s.cycles.find? may with
    | none => s
    | some c => (s.precharge x.val key c).setChanSt x.val ch.val { s.chanSt x.val ch.val with rowFree := c + 1 })

/-- Double refresh rate is in force: the stack is hotter than HOT_C (R130). -/
def State.doubleRate (s : State) (x : Nat) : Bool := s.fld F.STK_REF_HOT_C x < s.fld F.STK_STAT_TEMP x

/-- REFRESH_DUE (R130, R131). -/
def execRefreshDue (x : Stack) (ch : Fin 32) (b : Fin 32) (s : State) : Res :=
  .next (let key := ch.val * 32 + b.val
    let k := s.bank x.val key
    let st := s.stkState x.val
    if (st = 2 ∨ st = 3 ∨ st = 4) ∧ k.dueAt ≤ s.now then
      let step := if s.doubleRate x.val then 1953 else 3906
      s.setBank x.val key { k with debt := min 8 (k.debt + 1), dueAt := s.now + step }
    else s)

/-- ROW_HAMMER_CLEAR (R132): at offset b × P ÷ 32 of each period. -/
def execRowHammerClear (x : Stack) (ch : Fin 32) (b : Fin 32) (s : State) : Res :=
  .next (let key := ch.val * 32 + b.val
    let p := s.rhThr x.val * 64
    let due := s.clearDue x.val key
    if due ≤ s.now then
      let k := s.bank x.val key
      s.setBank x.val key { k with rh := [], spill := 0, clearAt := due + ((s.now - due) / p + 1) * p }
    else s)

/-! ### Training (R128, R134, R135, R153, R154) -/

/-- The failed channels of a stack with their hosts, in order (R153). -/
def hostsOf (mask : Nat) : List (Nat × Nat) :=
  ((List.range 32).filter mask.testBit).foldl (fun acc a =>
    match (List.range 32).find? (fun i => let h := (a + 16 + i) % 32; !mask.testBit h && !acc.any (fun e => e.2 == h)) with
    | some i => acc ++ [(a, (a + 16 + i) % 32)]
    | none => acc) []

/-- Names the first two failed channels in `STK_ECC_STAT`, in the order in which they failed; one that fails in service has no host yet
(R153, R154). -/
def State.nameFailed (s : State) (x mask : Nat) : State :=
  let was := ([F.STK_ECC_STAT_FCH0, F.STK_ECC_STAT_FCH1].map (fun f => s.fld f x)).filter (32 ≤ ·)
  let kept := (was.map (· - 32)).filter mask.testBit
  let names := kept ++ ((List.range 32).filter (fun c => mask.testBit c && !kept.contains c))
  let put (s : State) (i : Nat) (f h : Fld) : State :=
    let v := (names[i]?.map (· + 32)).getD 0
    if s.fld f x = v then s else (s.setFld f v x).setFld h 0 x
  put (put s 0 F.STK_ECC_STAT_FCH0 F.STK_ECC_STAT_HCH0) 1 F.STK_ECC_STAT_FCH1 F.STK_ECC_STAT_HCH1

/-- The hosts of the channels that failed at training, whose check lines the zero-fill places there (R153). -/
def State.nameHosts (s : State) (x mask : Nat) : State :=
  let hs := hostsOf mask
  (s.setFld F.STK_ECC_STAT_HCH0 ((hs[0]?.map (·.2 + 32)).getD 0) x).setFld F.STK_ECC_STAT_HCH1 ((hs[1]?.map (·.2 + 32)).getD 0) x

/-- Stores the failed channels of a stack and the state that follows (Table 5-4 step 9). -/
def State.setFailed (s : State) (x mask : Nat) : State :=
  let s := s.nameFailed x mask
  let s := (s.setFld F.STK_CH_FAIL_MASK mask x).setFld F.STK_STAT_FAILCH (popCount 32 mask) x
  (s.setStkState x (openState mask)).drainLost x

/-- STACK_TRAINING_END (Table 5-4, R161): the stack's first temperature, failed channels, margin and timings, its state, and the zero-fill of a
stack that opens. -/
def execStackTrainingEnd (x : Stack) (r : StackTrain) (s : State) : Res :=
  let x := x.val
  .next (if s.stkState x ≠ 1 then s
    else if !r.answers then s.setStkState x 0
    else
      let s := ((s.setFld F.STK_STAT_DIES r.dies x).setFld F.STK_STAT_SIZE_GIB r.gib x).setTemp x r.temp
      if r.dies ≠ 16 ∨ r.gib ≠ 96 ∨ !r.initOk then (s.setFld F.STK_TRN_STAT_RESULT 2 x).setStkState x 7
      else
        let n := popCount 32 r.failed.toNat
        let s := (s.setFld F.STK_TRN_STAT_LANES_REP r.lanesRep x).setFld F.STK_TRN_STAT_MARGIN r.margin x
        let s := s.setFld F.STK_TRN_STAT_RESULT (if 3 ≤ n then 2 else if r.lanesRep = 0 then 0 else 1) x
        let s := (s.setFld F.STK_TRN_STAT_LAST_CH 31 x).setFld F.STK_TRN_STAT_PASSES 0 x
        let (a, b, c) := match r.timings with
          | some t => (t.1.toNat &&& RegName.STK_TIM0.mask accRW, t.2.1.toNat &&& RegName.STK_TIM1.mask accRW, t.2.2.toNat &&& RegName.STK_REF.mask accRW)
          | none => (RegName.STK_TIM0.resetVal 0, RegName.STK_TIM1.resetVal 0, RegName.STK_REF.resetVal 0)
        let s := ((s.setReg .STK_TIM0 a x).setReg .STK_TIM1 b x).setReg .STK_REF c x
        let k := s.stk x
        let s := s.setStk x { k with banks := [], chans := [], passAt := s.now, passTemp := r.temp, lastReq := s.now, batchAt := s.now,
                                     decayAt := s.now, leakAt := s.now, rhAt := s.now, pass := none }
        let s := ((s.setTemp x r.temp).setFailed x r.failed.toNat).nameHosts x r.failed.toNat
        if s.stkOpen x then s.setFld F.STK_ECC_STAT_INIT 1 x else s)

/-- Adds a difference of temperatures. -/
def tempDiff (a b : Nat) : Nat := if a < b then b - a else a - b

/-- The refresh of every bank is pulled in before a pass (R135), at the first cycle its timings allow. -/
def State.pullIn (s : State) (x : Nat) : State :=
  let k := s.stk x
  let c := cyclesAt s.now
  let at_ (e : Option Nat) (d : Nat) : Nat := (e.map (· + d)).getD 0
  let one (b : Bank) : Bank :=
    let pre := if b.row.isSome then some (max c (at_ b.act (s.fld F.STK_TIM0_TRAS x))) else b.pre
    if -8 < b.debt then
      { b with row := none, pre := pre, debt := b.debt - 1
               ref := some (max c (max (at_ pre (s.fld F.STK_TIM0_TRP x)) (max (at_ b.act (s.tRC x)) (at_ b.ref (s.tRFC x))))) }
    else { b with row := none, pre := pre }
  s.setStk x { k with banks := (List.range 1024).map (fun b => (b, one (smGet {} k.banks b))) }

/-- A training pass starts: one channel after the other, 2 µs each, whose requests wait meanwhile; `r` is what it finds (R135). -/
def State.startPass (s : State) (x : Nat) (r : TrainPass) : State :=
  if (s.stk x).pass.isSome then s
  else
    let s := (s.setTemp x r.temp).pullIn x
    s.setStk x { s.stk x with passAt := s.now, passTemp := r.temp, pass := some (r, s.now) }

/-- The end of a training pass: a channel that fails three in a row is failed (R135, R153, R154). A stack that is no longer open ends it
without a result. -/
def State.endPass (s : State) (x : Nat) (r : TrainPass) : State :=
  let s := (s.setStk x { s.stk x with pass := none }).setFld F.STK_TRN_CTL_START 0 x
  if !s.stkOpen x then s
  else
    let old := s.failedCh x
    let s := (List.range 32).foldl (fun s c =>
      let k := s.chanSt x c
      s.setChanSt x c { k with fails := if old.testBit c then k.fails else if r.failed.toNat.testBit c then k.fails + 1 else 0 }) s
    let mask := (List.range 32).foldl (fun m c => if 3 ≤ (s.chanSt x c).fails then m ||| 2 ^ c else m) old
    let s := (s.setFld F.STK_TRN_STAT_LAST_CH 31 x).setFld F.STK_TRN_STAT_MARGIN r.margin x
    let s := (s.setFld F.STK_TRN_STAT_RESULT (if r.failed = 0 then 0 else 2) x).bump F.STK_TRN_STAT_PASSES 1 x
    if mask = old then s
    else
      let s := if old = 0 ∧ popCount 32 mask = 1 then s.setFld F.STK_ECC_STAT_RELOC 1 x else s
      s.setFailed x mask

/-- A running pass goes on with time: the channel last trained, and the end after all 32 (R135). -/
def State.passTick (s : State) (x : Nat) : State :=
  match (s.stk x).pass with
  | none => s
  | some (r, t) =>
    let n := (s.now - t) / 2000
    if 32 ≤ n then (s.endPass x r).settle
    else if n ≠ 0 ∧ (s.now - t) % 2000 = 0 then s.setFld F.STK_TRN_STAT_LAST_CH (n - 1) x else s

/-- PERIODIC_RETRAIN (R135). -/
def execPeriodicRetrain (x : Stack) (r : TrainPass) (s : State) : Res :=
  .next (let per := s.fld F.STK_TRN_CTL_PER_MS x.val * 1000000
    let due := per ≠ 0 ∧ (s.stk x.val).passAt + per ≤ s.now
    if s.stkOpen x.val ∧ (due ∨ s.flag F.STK_TRN_CTL_START x.val) then s.startPass x.val r else s)

/-- TEMP_DRIFT_RETRAIN (R135). -/
def execTempDriftRetrain (x : Stack) (r : TrainPass) (s : State) : Res :=
  .next (let dt := s.fld F.STK_TRN_CTL_DT x.val
    if s.stkOpen x.val ∧ dt ≠ 0 ∧ dt ≤ tempDiff r.temp (s.stk x.val).passTemp then s.startPass x.val r else s)

/-- TRAINING_START_CMD (R135): the pass of an open stack starts at once, and START reads 1 until it ends; a stack that sleeps is woken for it. -/
def execTrainingStartCmd (w : Writer) (x : Stack) (r : TrainPass) (s : State) : Res :=
  .next (s.regWrite w .STK_TRN_CTL x.val (fun s =>
    let s := s.setFld F.STK_TRN_CTL_START 1 x.val
    (if s.stkOpen x.val then s.startPass x.val r else s.wakeStk x.val).respond .ok))

/-! ### Self-refresh (R136, R137, R160, R166) -/

/-- No request waits in a stack. -/
def Stk.quiet (k : Stk) : Bool := k.bufs.isEmpty && k.queues.isEmpty && k.coming.isEmpty

/-- Flushes every open fold slot of a stack (Table 6-5). -/
def State.flushFolds (s : State) (x : Nat) : State := (s.stk x).folds.foldl (fun s f => s.flushFold f.frame) s

/-- Starts self-refresh entry: fold slots are flushed first, code-dirty pages must be clean, and a training pass over; the placement words are written
back and every row is closed (R166, Table 5-5). -/
def State.startSleep (s : State) (x : Nat) : State :=
  if s.stkOpen x && (s.stk x).cdq.isEmpty && (s.stk x).pass.isNone then
    let s := (s.flushFolds x).flushPlaces x
    let k := s.stk x
    (s.setStk x { k with entryAt := s.now, banks := k.banks.map (fun e =>
      (e.1, if e.2.row.isSome then { e.2 with row := none, pre := some (cyclesAt s.now) } else e.2)) }).moveStk x 4
  else s

/-- Deep-idle entry goes on (Table 15-6): once the ports sleep or are down the stacks enter self-refresh; once every present stack
sleeps the device is in deep idle. -/
def State.deepStep (s : State) : State :=
  if s.power.deep ≠ 1 then s
  else if (List.range 14).any (fun p => s.portLive p && s.portState p != stSleep) then s
  else
    let s := (List.range 16).foldl (fun s x => s.startSleep x) s
    if (List.range 16).all (fun x => let t := s.stkState x; t == 5 || t == 0 || t == 1 || t == 7) then
      let s : State := { s with power := { s.power with deep := 2 } }
      ((s.setFld F.PWR_STATPIN_CODE 11).setFld F.INTC_CORE_ASLEEP 1 0 0).setFld F.INTC_CORE_ASLEEP 1 0 1
    else s

/-- A stack that may sleep: idle for IDLE_MS, with nothing queued, no code-dirty page, no training pass and no migration (R136, R166). -/
def State.maySleep (s : State) (x : Nat) : Bool :=
  let k := s.stk x
  s.stkOpen x && s.flag F.STK_CTL_SLEEP_EN x && k.lastReq + s.fld1 F.STK_CTL_IDLE_MS x * 1000000 ≤ s.now && k.quiet && k.cdq.isEmpty && k.pass.isNone &&
    (List.range 4).all (fun m => s.fld F.STK_MIG_STAT_STATE x m == 0)

/-- SELF_REFRESH_ENTRY (R136, R140): the stacks that sleep together start their entry once each of them may. -/
def execSelfRefreshEntry (x : Stack) (s : State) : Res :=
  .next (if s.power.deep = 1 then s.deepStep
    else
      let u := s.sleepUnit x.val
      if s.maySleep x.val && u.all s.maySleep then u.foldl State.startSleep s else s)

/-- SELF_REFRESH_ENTRY_END (R137): row-hammer tables clear and refresh debts are paid, the predictor keeps its history; a request that came too late starts
the exit. -/
def execSelfRefreshEntryEnd (x : Stack) (s : State) : Res :=
  .next (let k := s.stk x.val
    if s.stkState x.val = 4 ∧ k.entryAt + 2800 ≤ s.now then
      let banks := (k.banks.map (fun e => (e.1, ({ hist := e.2.hist } : Bank)))).filter (fun e => e.2 ≠ {})
      let s := s.setStk x.val { k with entryTemp := s.fld F.STK_STAT_TEMP x.val, banks := banks, chans := k.chans.map (fun e => (e.1, { e.2 with acts := [] })),
                                       wakeAfter := false }
      let s := s.moveStk x.val 5
      if k.quiet && !k.wakeAfter then s.deepStep else s.wakeStk x.val
    else s)

/-- SELF_REFRESH_EXIT (R137). -/
def execSelfRefreshExit (x : Stack) (s : State) : Res := .next (s.wakeStk x.val)

/-- SELF_REFRESH_EXIT_END (R137, Table 5-6): tXS after the exit at 5 µs, and 22 µs later where the channels are retrained because the temperature moved by
SLP_DT, the stack opens; the row-hammer period starts anew. -/
def execSelfRefreshExitEnd (x : Stack) (temp : Nat) (s : State) : Res :=
  .next (let k := s.stk x.val
    let dt := s.fld F.STK_TRN_CTL_SLP_DT x.val
    -- a warm start retrains every channel whatever SLP_DT reads (R408)
    let moved := dt = 0 ∨ dt ≤ tempDiff temp k.entryTemp ∨ s.fld F.GLB_STAT_STEP = 6
    let at_ := k.exitAt + 5000 + (s.fld F.STK_TIM1_TXS x.val * 5 + 7) / 8 + (if moved then 22000 else 0)
    if s.stkState x.val = 6 ∧ at_ ≤ s.now then
      let s := s.setTemp x.val temp
      let s := s.setStk x.val { k with lastReq := s.now, rhAt := s.now, passTemp := if moved then temp else k.passTemp }
      ((((s.setStkState x.val (openState (s.failedCh x.val))).takeHints x.val).fillStk x.val)).settle
    else s)

/-! ### Placement (R138, R139) -/

/-- Placement words of a stack's usable frames that are not 0, by page. -/
def State.placeOf (s : State) (x : Nat) : List (Nat × Nat) :=
  let back := (s.pool.place.filter (fun e => keyStack e.1 == x && keyPage e.1 < usableFrames)).map (fun e => (keyPage e.1, e.2.toNat))
  (s.stk x).plc.foldl (fun m e => if e.1 < usableFrames then smSet 0 m e.1 e.2.toNat else m) back

/-- Frames of a class: unlisted words read as 0. -/
def State.classCount (s : State) (x cls : Nat) : Nat :=
  let l := s.placeOf x
  let hits := (l.filter (fun e => s.placeClass e.2 == cls)).length
  if s.placeClass 0 = cls then usableFrames - l.length + hits else hits

/-- PLACEMENT_DECAY (R138): counters halve while the stack is awake, by a walk through port 6; the frames per class are counted. The walk keeps no stack
awake (Table 5-2, log 39). -/
def execPlacementDecay (x : Stack) (s : State) : Res :=
  .next (let x := x.val
    let d := s.fld F.STK_PLC_CTL_DECAY_S * 1000000000
    let k := s.stk x
    if d ≠ 0 ∧ k.decayAt + d ≤ s.now ∧ s.stkServes x then
      let s := (s.placeOf x).foldl (fun s e => s.setPlace (frameKey x e.1) (setBits e.2 0 8 (placeCnt e.2 / 2))) s
      let s := s.setStk x { k with decayAt := s.now }
      ((s.setFld F.STK_PLC_HIST_HOT (s.classCount x 0) x).setFld F.STK_PLC_HIST_COLD (s.classCount x 1) x).setFld F.STK_PLC_HIST_PINNED (s.classCount x 3) x
    else s)

/-- PLACEMENT_SCAN (R139, Table 5-16). -/
def execPlacementScan (w : Writer) (x : Stack) (cls : Fin 4) (max : BitVec 21) (s : State) : Res :=
  .next (s.regWrite w .STK_PLC_SCAN x.val (fun s =>
    let k := s.stk x.val
    if k.scan.isSome then s.respond .busy
    else if cls.val = 3 then s.respond .ok
    else
      let s := s.setStk x.val { k with scan := some ⟨cls.val, if max = 0 then none else some max.toNat, 0⟩ }
      (s.setFld F.STK_STAT_SCAN 1 x.val).respond .ok))

/-- The next frame of a class at or after `n`, from the listed words in ascending order. -/
def nextFrame (cls : Nat → Nat) (want : Nat) : List (Nat × Nat) → Nat → Option Nat
  | [], n => if cls 0 = want ∧ n < usableFrames then some n else none
  | e :: rest, n =>
    if e.1 < n then nextFrame cls want rest n
    else if cls 0 = want ∧ n < e.1 then some n
    else if cls e.2 = want then some e.1
    else nextFrame cls want rest (e.1 + 1)

/-- The next candidate of a scan. -/
def State.scanNext (s : State) (x : Nat) (c : Scan) : Option Nat :=
  if c.left = some 0 then none else nextFrame s.placeClass c.cls (s.placeOf x) c.next

/-- SCAN_ENTRY_WRITE (R139). -/
def execScanEntryWrite (x : Stack) (s : State) : Res :=
  .next (let x := x.val
    let k := s.stk x
    match k.scan with
    | none => s
    | some c =>
      match s.scanNext x c with
      | none => s
      | some f =>
        let n := ringSlots (s.fld F.STK_PLC_RING_LOG2N) 9 20
        let i := s.fld F.STK_PLC_PROD_PROD + s.tl.outPlc.length
        if n = 0 ∨ n ≤ (i + 2 ^ 32 - s.fld F.STK_PLC_CONS_CONS) % 2 ^ 32 ∨ !s.msgRoom then s
        else
          let w := s.placeWord (frameKey x f)
          let word := f + x * 2 ^ 21 + placeCnt w * 2 ^ 25 + placeHint w * 2 ^ 33
          let s := s.setStk x { k with scan := some { c with left := c.left.map (· - 1), next := f + 1 } }
          let s := s.setTl { s.tl with outPlc := s.tl.outPlc ++ [(false, x)] }
          s.hostWrite (s.fld F.STK_PLC_RING_BASE * 4096 + i % n * 8) (toBytes 8 word) (.ring .placement x))

/-- SCAN_END (R139). -/
def execScanEnd (x : Stack) (s : State) : Res :=
  .next (let k := s.stk x.val
    match k.scan with
    | some c =>
      if (s.scanNext x.val c).isNone then
        ((s.setStk x.val { k with scan := none }).setFld F.STK_STAT_SCAN 0 x.val).raise 0x1C2
      else s
    | none => s)

/-! ### Migration (R140, R141) -/

/-- MIGRATION_CMD (R140, R141): the checks of the command, a free slot, and the completing flush before the copy (R160). -/
def execMigrationCmd (w : Writer) (x : Stack) (extCount : BitVec 17) (tag : BitVec 16) (s : State) : Res :=
  let x := x.val
  .next (s.regWrite w .STK_MIG_CMD x (fun s =>
    let c := s.fld F.STK_MIG_ARG0_CTX x
    let g := s.fld F.STK_MIG_ARG0_SEG x
    let page := s.fld F.STK_MIG_ARG0_PAGE x
    let dst := frameKey (s.fld F.STK_MIG_ARG1_DST_STK x) (s.fld F.STK_MIG_ARG1_DST_PG x)
    let idx := s.fld F.STK_MIG_ARG1_EXT_INDEX x
    let cnt := extCount.toNat
    match s.pageFrame c g page with
    | none => s.respond .accessDenied
    | some src =>
      if !s.flag F.STK_PLC_CTL_MIG_EN || keyStack src ≠ x || cnt = 0 || 65536 < cnt || 16777216 < idx + cnt ||
          s.mapped idx cnt page ≠ some dst || usableFrames ≤ s.fld F.STK_MIG_ARG1_DST_PG x || keyStack dst / 8 ≠ x / 8 ||
          s.frameClass dst ≠ s.frameClass src ||
          s.migSlots.any (fun m => m.2.2.2 ≠ 0 && (m.2.2.1.ctx ≠ c || m.2.2.1.seg ≠ g)) then s.respond .accessDenied
      else match (List.range 4).find? (fun k => s.fld F.STK_MIG_STAT_STATE x k = 0) with
        | none => s.respond .busy
        | some k =>
          let s := s.flushFold src
          let st := s.stk x
          -- the open batch of the segment, which ended with its LAST command, or a new one (R141)
          let mine := (s.migSlots.filter (fun o => o.2.2.2 ≠ 0)).map (fun o => o.2.2.1)
          let b := match mine.find? (fun o => !mine.any (fun p => p.batch == o.batch && p.last)) with
            | some o => o.batch
            | none => mine.foldl (fun a o => max a (o.batch + 1)) 0
          let m : MigSlot := ⟨c, g, page, src, dst, idx, cnt, s.flag F.STK_MIG_ARG1_LAST x, b, s.now⟩
          let s := s.setStk x { st with mig := setAt st.mig k m }
          let s := (s.setFld F.STK_MIG_STAT_STATE 1 x k).setFld F.STK_MIG_STAT_TAG tag.toNat x k
          ((s.setFld F.STK_MIG_STAT_POISONED 0 x k).wakeStk (keyStack dst)).respond .ok))

/-- When the copy of a slot is done: the copies of the device go on one after the other at `STK_PLC_CTL.MIG_RATE` GB/s (R141). -/
def State.copyDue (s : State) (m : MigSlot) : Nat := max m.since s.pool.copyAt + (65536 + s.fld1 F.STK_PLC_CTL_MIG_RATE - 1) / s.fld1 F.STK_PLC_CTL_MIG_RATE

/-- MIGRATION_COPY_END (R141): at the copy rate, the 1,024 lines are at the destination, with the migration tag, once both stacks have taken the copy through port 6; it wakes
a sleeping stack, and waits while one takes no request (R121, R137). `lost` is what the cells have come to hold. -/
def execMigrationCopyEnd (x : Stack) (k : Fin 4) (lost : ReadErr) (s : State) : Res :=
  .next (let m := (s.stk x.val).mig.getD k.val {}
    if s.fld F.STK_MIG_STAT_STATE x.val k.val = 1 ∧ s.copyDue m ≤ s.now then
      let (ok1, s) := s.useStk (keyStack m.src)
      let (ok2, s) := s.useStk (keyStack m.dst)
      if !ok1 || !ok2 then s
      else
        let s := s.setPool { s.pool with copyAt := s.copyDue m }
        let s := (s.upset lost).copyPage m.src m.dst 4
        let n := ((s.pageLines m.dst).filter (fun l => l.2.2 % 2 == 1)).length
        ((s.setFld F.STK_MIG_STAT_POISONED n x.val k.val).setFld F.STK_MIG_STAT_STATE 2 x.val k.val).settle
    else s)

/-- MIGRATION_REMAP_ISSUE (R141, R115): with every slot of the batch dual-writing, firmware writes the batch's REMAP with the table
of its LAST command; the cached lines of the pages are recalled first. -/
def execMigrationRemapIssue (c : Ctx) (g : Fin 8) (s : State) : Res :=
  .next (
    let mine := s.migSlots.filter (fun m => m.2.2.2 ≠ 0 && m.2.2.1.ctx == c.val && m.2.2.1.seg == g.val)
    match mine.find? (fun m => m.2.2.1.last && m.2.2.2 ≠ 3) with
    | none => s
    | some l =>
      let mine := mine.filter (fun m => m.2.2.1.batch == l.2.2.1.batch)
      if mine.all (fun m => m.2.2.2 == 2) ∧ s.xlt.rvkQ.length < 64 then
        let first := mine.foldl (fun a m => min a m.2.2.1.page) l.2.2.1.page
        let last := mine.foldl (fun a m => max a m.2.2.1.page) l.2.2.1.page
        let new := setBits (setBits (s.segAttr c.val g.val) 16 24 l.2.2.1.extIndex) 40 17 l.2.2.1.extCount
        let r : Revoke := { ctx := c.val, seg := g.val, typ := 1, first := first, count := last - first + 1, new := new,
                            tag := s.fld F.STK_MIG_STAT_TAG l.1 l.2.1, slots := mine.map (fun m => (m.1, m.2.1)) }
        let s := mine.foldl (fun s m => s.setFld F.STK_MIG_STAT_STATE 3 m.1 m.2.1) s
        let s := { s with xlt := { s.xlt with rvkQ := s.xlt.rvkQ ++ [r] } }
        let s := mine.foldl (fun s m => s.recallFrame m.2.2.1.src) s
        let s := s.setFld F.XLT_RVK_STAT_QUEUED s.xlt.rvkQ.length
        (s.setFld F.XLT_CTX_GEN_RVK 1 0 c.val).settle
      else s)

end Sys2Proof.Machine
end

