-- ==== Sys2Proof/Machine/Links.lean ====
section
/-!
DEFINITION. Commands of the optical ports and their link layer (R262 to R286, R309).
-/
namespace Sys2Proof

/-- Flits that take SEQ (R271). -/
def FlitBody.sequenced : FlitBody → Bool
  | .header _ => true
  | .data _ => true
  | .audit _ => true
  | .lctl _ _ => true
  | _ => false

end Sys2Proof

namespace Sys2Proof.Machine
open Sys2Proof

/-! ### Register writes (Tables 10-11 to 10-14) -/

/-- A write that clears EN of a live port takes it DOWN (Table 10-11). -/
def liveOrTraining (st : Nat) : Bool := st == stTraining || st == stUp || st == stRetrain || st == stSleep || st == stWaking

/-- PORT_CTL_WRITE (R280, Table 10-11, R309, R404): ROLE is fixed while the port is not dark, and HOST on the Thrumlink ports; an image's
EN of a fabric port takes effect at start-up step 8. -/
def execPortCtlWrite (w : Writer) (p : Port) (v : BitVec 64) (s : State) : Res :=
  .next (s.regWrite w .PORT_CTL p.val (fun s =>
    let p := p.val
    let v := v.toNat
    let role := F.PORT_CTL_ROLE.of v
    let st := s.portState p
    if 4 ≤ role ∨ (12 ≤ p ∧ role ≠ 0) ∨ (role ≠ s.role p ∧ st ≠ stDark ∧ st ≠ stBeacon ∧ st ≠ stDown) then s.respond .accessDenied
    else if w = .image ∧ p < 12 ∧ F.PORT_CTL_EN.of v = 1 then
      let s : State := { s with start := { s.start with fabric := s.start.fabric ||| 2 ^ p } }
      s.plainWrite .PORT_CTL p 0 0 (setBits v 0 1 (s.fld F.PORT_CTL_EN p))
    else
      let s : State := if w = .image then { s with start := { s.start with fabric := setBits s.start.fabric p 1 0 } } else s
      let off := F.PORT_CTL_EN.of v = 0 ∧ liveOrTraining st
      let s := s.plainWrite .PORT_CTL p 0 0 v
      (if off then s.portDown p 6 true
       else if st = stDark ∧ s.flag F.PORT_CTL_BEACON p ∧ !s.flag F.PORT_CTL_EN p then s.setFld F.PORT_LNK_STAT_STATE stBeacon p
       else s).respond .ok))

/-- PORT_CRD_CFG_WRITE (R277): refused when its units sum above 256. -/
def execPortCrdCfgWrite (w : Writer) (p : Port) (v : BitVec 64) (s : State) : Res :=
  .next (s.regWrite w .PORT_CRD_CFG p.val (fun s =>
    if 256 < (List.range 8).foldl (fun a i => a + bits v.toNat (8 * i) 8) 0 then s.respond .accessDenied
    else s.plainWrite .PORT_CRD_CFG p.val 0 0 v.toNat))

/-- PORT_RETRAIN_CMD (R279): an UP port retrains; other states ignore the command. -/
def execPortRetrainCmd (w : Writer) (p : Port) (s : State) : Res :=
  .next (s.regWrite w .PORT_TRN_CMD p.val (fun s => (s.startRetrain p.val 0 true).respond .ok))

/-- PORT_DOWN_CMD (R280). A port that is dark has no link to take down. -/
def execPortDownCmd (w : Writer) (p : Port) (s : State) : Res :=
  .next (s.regWrite w .PORT_TRN_CMD p.val (fun s =>
    (if liveOrTraining (s.portState p.val) then s.portDown p.val 6 true else s).respond .ok))

/-- The port starts a full training: a new incarnation (R266). -/
def State.startTraining (s : State) (p : Nat) : State :=
  let s := (s.setFld F.PORT_LNK_STAT_STATE stTraining p).bump F.PORT_LNK_STAT_INCARN 1 p
  s.setLink p { s.link p with trainAt := s.now, capSeen := none, echoes := [] }

/-- PORT_TRAIN_CMD (R265, R266). -/
def execPortTrainCmd (w : Writer) (p : Port) (s : State) : Res :=
  .next (s.regWrite w .PORT_TRN_CMD p.val (fun s =>
    (if s.portState p.val = stDown ∧ s.flag F.PORT_CTL_EN p.val then s.startTraining p.val else s).respond .ok))

/-! ### Training (Table 10-3) -/

/-- TRAINING_START (R265, R266): on enable from DARK or BEACON, and every 10 ms from DOWN. -/
def execTrainingStart (p : Port) (s : State) : Res :=
  .next (let st := s.portState p.val
    if s.flag F.PORT_CTL_EN p.val ∧ !s.quarterDown (portQuarter p.val) ∧
        (st = stDark ∨ st = stBeacon ∨ (st = stDown ∧ (s.link p.val).downAt + 10000000 ≤ s.now)) then s.startTraining p.val
    else s)

/-- The width a training gives: 8, 4, or none (R264). -/
def trainWidth (lanes : Nat) (w4 : Bool) : Option Nat :=
  if lanes = 255 then some 8
  else if w4 && (lanes % 16 == 15 || lanes / 16 == 15) then some 4
  else none

/-- Fibre length in 0.5 m units, rounded, from sixteen round trips that sum to `sum` ns (R267). -/
def fibreUnits (sum : Nat) : Nat := (2 * ((sum - 16 * 290) * 10) + 784) / (2 * 784)

/-- Eye margins with the bytes of failed lanes cleared (Table 10-13). -/
def laneMargins (lanes margins : Nat) : Nat :=
  (List.range 8).foldl (fun a i => if lanes.testBit i then a + bits margins (8 * i) 8 * 2 ^ (8 * i) else a) 0

/-- A Thrumlink port came UP by training: it takes the stream when the other has no link, and the host reads that waited (R317, R318,
Table 12-6). -/
def State.tlUp (s : State) (p : Nat) : State :=
  (if s.portLive (25 - p) then s else if s.tl.unack.isEmpty then s.setTl { s.tl with active := p - 12 } else s.resend p).sendReads p

/-- A TL port that is UP with another partner than `id` (R309). -/
def State.otherPartner (s : State) (p : Nat) (id : BitVec 64) : Bool :=
  12 ≤ p && s.portUp (25 - p) && s.regVal .PORT_PARTNER_ID (25 - p) != id.toNat

/-- TRAINING_END (R264, R266 to R268, R309): the outcome of Table 10-3. The event needs the sixteen ECHO exchanges of step 6. -/
def execTrainingEnd (p : Port) (r : TrainResult) (s : State) : Res :=
  let p := p.val
  .next (
    if s.portState p ≠ stTraining then s
    else
      let l := s.link p
      let s := s.setReg .PORT_MARGIN (laneMargins r.lanes.toNat r.margins.toNat) p
      let cap := match r.cap with | some c => some c | none => l.capSeen
      match cap, trainWidth r.lanes.toNat (s.flag F.PORT_CTL_W4_EN p && ((cap.map (·.w4)).getD false)) with
      | _, none => s.portDown p 5 false
      | none, _ => s.portDown p 5 false
      | some c, some w =>
        if c.ver ≠ 1 then s.portDown p 5 false
        else if l.echoes.length < 16 then s
        else
          let sum := (l.echoes.take 16).foldl (· + ·) 0
          let len := fibreUnits sum
          let s := s.setReg .PORT_FIBRE (min len 8191 + min (sum / 16) 65535 * 2 ^ 16) p
          if 4000 < len ∨ (200 < len ∧ !(s.flag F.PORT_CTL_LR_EN p && c.lr)) then s.portDown p 4 false
          else
            let s := (s.setReg .PORT_PARTNER_ID c.deviceId.toNat p).setReg .PORT_PARTNER_CAP c.word1 p
            if s.otherPartner p c.deviceId then s.portDown p 3 false
            else
              let s := s.setFld F.PORT_TIMERS_REPLAY_TMO (min 65535 (sum / 16 + 256)) p
              let s := ((s.setFld F.PORT_LNK_STAT_WIDTH4 (if w = 4 then 1 else 0) p).setFld F.PORT_LNK_STAT_LONG (if 200 < len then 1 else 0) p).setFld F.PORT_LNK_STAT_RT_FAILS 0 p
              let s := (s.setReg .PORT_CRD_STAT 0 p).setFld F.PORT_LNK_STAT_STATE stUp p
              let s := s.setLink p { l.cleared l.downAt with
                cred := (List.range 8).map (fun v => (v, allocOf c.alloc.toNat v)), palloc := c.alloc, pincarn := c.incarn,
                trainAt := l.trainAt, goodAt := s.now, auditAt := s.now, busyAt := s.now, sampleAt := s.now }
              let s := s.event (srcPort p) (if w = 4 then 4 else 1)
                [s.fld F.PORT_LNK_STAT_INCARN p + s.fld F.PORT_FIBRE_LEN p * 2 ^ 16, c.deviceId.toNat]
              let s := s.raise (0x140 + 8 * p)
              if 12 ≤ p then s.tlUp p else s)

/-- CAP (R266, R268, R269): in a training the partner's block is kept and answered with this port's and the first ECHO; in a retrain or
resume its identity is compared, and a difference is a new link. A beacon's block brings up no link. -/
def State.capIn (s : State) (p : Nat) (c : CapBlock) : State :=
  let st := s.portState p
  let l := s.link p
  if st = stTraining then
    let s := (s.setLink p { l with capSeen := some c }).emit (.capFlit p (s.ownCap p false))
    s.emit (.echo p (BitVec.ofNat 64 s.now) none)
  else if st = stRetrain ∨ st = stWaking then
    if c.deviceId.toNat ≠ s.regVal .PORT_PARTNER_ID p ∨ c.incarn ≠ l.pincarn then s.portDown p 3 false
    else (s.setLink p { l with capSeen := some c, goodAt := s.now }).emit (.capFlit p (s.ownCap p true))
  else s.setLink p { l with capSeen := some c }

def execCap (p : Port) (c : CapBlock) (s : State) : Res := .next (s.capIn p.val c)

/-- ECHO (R267): the partner's is returned with this device's turnaround, which the spec leaves to the device; this port's own, returned,
gives a round trip. -/
def State.echoIn (s : State) (p : Nat) (t1 : BitVec 64) (turn : Option (BitVec 64)) : State :=
  match turn with
  | none => let (d, s) := s.draw; s.emit (.echo p t1 (some d))
  | some d =>
    let l := s.link p
    if s.portState p = stTraining ∧ l.echoes.length < 16 then
      let s := s.setLink p { l with echoes := l.echoes ++ [s.now - t1.toNat - d.toNat] }
      if l.echoes.length < 15 then s.emit (.echo p (BitVec.ofNat 64 s.now) none) else s
    else s

def execEcho (p : Port) (t1 : BitVec 64) (turn : Option (BitVec 64)) (s : State) : Res := .next (s.echoIn p.val t1 turn)

/-- BEACON_BURST (R265, R269): a port that is not up sends its beacon every 100 ms while BEACON = 1. -/
def execBeaconBurst (p : Port) (s : State) : Res :=
  .next (let p := p.val
    let st := s.portState p
    let l := s.link p
    if s.flag F.PORT_CTL_BEACON p ∧ (st = stDark ∨ st = stBeacon ∨ st = stDown) ∧ (l.beaconAt = 0 ∨ l.beaconAt + 100000000 ≤ s.now) then
      let s := if st = stDark then s.setFld F.PORT_LNK_STAT_STATE stBeacon p else s
      (s.setLink p { l with beaconAt := max 1 s.now }).emit (.beacon p (s.ownCap p false))
    else s)

/-! ### Retrains (R278 to R280, R284) -/

/-- The port comes back UP after a retrain or a resume with the partner's block `c` (R279 steps 3 to 5). -/
def State.resume (s : State) (p : Nat) (c : CapBlock) : State :=
  let l := s.link p
  if c.deviceId.toNat ≠ s.regVal .PORT_PARTNER_ID p ∨ c.incarn ≠ l.pincarn then s.portDown p 3 false
  else
    let s := s.setReg .PORT_PARTNER_CAP c.word1 p
    let un := match l.unacked with
      | [] => []
      | f :: _ => let d := (c.nextSeq.toNat + 4096 - f.seq.toNat) % 4096; if d ≤ l.unacked.length then l.unacked.drop d else l.unacked
    let free (v : Nat) : Nat := if v < 4 then bits c.free0.toNat (16 * v) 16 else bits c.free1.toNat (16 * (v - 4)) 16
    let ack := BitVec.ofNat 12 (l.expect + 4095)
    let un := un.map (fun (f : Flit) => { f with ack := ack, ackv := l.ackv })
    let s := s.setLink p { l with unacked := un, cred := (List.range 8).foldl (fun m v => vcSet m v (free v)) [], got := [], ret := [], owed := [],
                                  palloc := c.alloc, replayAt := s.now, replays := 0, goodAt := s.now, busyAt := s.now, auditAt := s.now,
                                  capSeen := none, sleepReq := false }
    let s := s.emit (.capFlit p (s.ownCap p true))
    let s := if un.isEmpty then s else s.emit (.flits p un)
    let s := ((s.setFld F.PORT_CRD_STAT_PEND 0 p).setFld F.PORT_CRD_STAT_LEAKED 0 p).setFld F.PORT_LNK_STAT_RT_FAILS 0 p
    let s := s.setFld F.PORT_LNK_STAT_STATE stUp p
    let s := if 12 ≤ p then s.sendReads p else s
    let s := s.event (srcPort p) 2 [s.fld F.PORT_LNK_STAT_RT_CAUSE p + s.fld F.PORT_LNK_STAT_INCARN p * 2 ^ 16]
    s.raise (0x140 + 8 * p)

/-- RETRAIN_END (R279, R284): needs the partner's CAP with RSYNC = 1. -/
def execRetrainEnd (p : Port) (c : CapBlock) (s : State) : Res :=
  .next (let st := s.portState p.val
    if (st = stRetrain ∨ st = stWaking) ∧ c.rsync then s.resume p.val c else s)

/-- RETRAIN_TIMEOUT (R279, R280, R284): a failed retrain or resume; the third in a row ends the link. -/
def execRetrainTimeout (p : Port) (s : State) : Res :=
  .next (let p := p.val
    let st := s.portState p
    if (st = stRetrain ∨ st = stWaking) ∧ (s.link p).retrainAt + s.fld1 F.PORT_CTL_RTRN_TMO p * 10000 ≤ s.now then
      let s := s.setFld F.PORT_LNK_STAT_RT_FAILS (min 3 (s.fld F.PORT_LNK_STAT_RT_FAILS p + 1)) p
      if s.fld F.PORT_LNK_STAT_RT_FAILS p = 3 then s.portDown p 2 false
      else
        let s := s.setLink p { s.link p with retrainAt := s.now, capSeen := none }
        if st = stRetrain then (s.linkErr p .retrain).raise (0x141 + 8 * p) else s
    else s)

/-- RETRAIN_REQ (R279): the partner's request makes the port retrain too. -/
def execRetrainReq (p : Port) (s : State) : Res := .next (s.startRetrain p.val 0 false)

/-- LOSS_RETRAIN (R280): after 1 µs of loss in UP. -/
def execLossRetrain (p : Port) (s : State) : Res :=
  .next (if (s.link p.val).goodAt + 1000 ≤ s.now then s.startRetrain p.val 1 false else s)

/-- LOSS_DOWN (R280, R284): loss lasting LOSS_MS, or a wake that took as long. -/
def execLossDown (p : Port) (s : State) : Res :=
  .next (let p := p.val
    let st := s.portState p
    let ms := s.fld1 F.PORT_CTL_LOSS_MS p * 1000000
    if ((st = stUp ∨ st = stRetrain) ∧ (s.link p).goodAt + ms ≤ s.now) ∨ (st = stWaking ∧ (s.link p).wakeAt + ms ≤ s.now) then
      s.portDown p 1 false
    else s)

/-- DOWN_NOTICE (R280). -/
def execDownNotice (p : Port) (s : State) : Res :=
  .next (if s.portLive p.val then s.portDown p.val 7 false else s)

/-- The link of a port is idle: no packet queued, no flit unacknowledged (R278, R283). -/
def Link.idle (l : Link) : Bool := l.queues.isEmpty && l.unacked.isEmpty

/-- LEAK_RETRAIN (R278). -/
def execLeakRetrain (p : Port) (s : State) : Res :=
  .next (let l := s.link p.val
    if s.flag F.PORT_CRD_STAT_PEND p.val ∧ l.idle ∧ l.busyAt + 1000 ≤ s.now then s.startRetrain p.val 3 true else s)

/-- LEAK_RETRAIN_FORCE (R278). -/
def execLeakRetrainForce (p : Port) (s : State) : Res :=
  .next (if s.flag F.PORT_CRD_STAT_PEND p.val ∧ (s.link p.val).leakAt + 100000000 ≤ s.now then s.startRetrain p.val 3 true else s)

/-! ### Audits (R278) -/

/-- AUDIT_SEND (R278). -/
def execAuditSend (p : Port) (s : State) : Res :=
  .next (let p := p.val
    let l := s.link p
    let n := s.fld F.PORT_TIMERS_AUDIT p
    if s.portUp p ∧ n ≠ 0 ∧ l.auditAt + n * 10000 ≤ s.now ∧ l.room 1 1 then
      let counts := (List.range 8).map (vcGet l.ret)
      ((s.setLink p { l with auditAt := s.now }).sendSeq p 0 false false 0 (.audit counts)).emit (.audit p counts)
    else s)

/-- The leak of VC `v` that an AUDIT shows. -/
def Link.leak (l : Link) (counts : List Nat) (v : Nat) : Nat := (counts.getD v 0 + 65536 - vcGet l.got v % 65536) % 65536

/-- AUDIT (R278): the exact leak of each VC; below RETRAIN_PCT a retrain is pending. -/
def State.auditIn (s : State) (p : Nat) (counts : List Nat) : State :=
  if !(s.portUp p || s.portState p == stRetrain) then s
  else
    let l := s.link p
    let alloc (v : Nat) : Nat := allocOf l.palloc.toNat v
    let left (v : Nat) : Nat := alloc v - l.leak counts v
    let w := (List.range 8).foldl (fun a v => if left v * alloc a < left a * alloc v then v else a) 0
    let pct := min 100 (s.fld F.PORT_CTL_RETRAIN_PCT p)
    let low := pct ≠ 0 ∧ (List.range 8).any (fun v => left v * 100 < pct * alloc v)
    let s := (s.setFld F.PORT_CRD_STAT_WIN_PCT (left w * 100 / alloc w) p).setFld F.PORT_CRD_STAT_WIN_VC w p
    let s := s.setFld F.PORT_CRD_STAT_LEAKED (min 65535 ((List.range 8).foldl (fun a v => a + l.leak counts v) 0)) p
    if low ∧ !s.flag F.PORT_CRD_STAT_PEND p then (s.setFld F.PORT_CRD_STAT_PEND 1 p).setLink p { l with leakAt := s.now } else s

def execAudit (p : Port) (counts : List Nat) (s : State) : Res := .next (s.auditIn p.val counts)

/-! ### Sleep and wake (R283, R284) -/

/-- SLEEP_REQ (R283): answered SLEEP_ACK when this end's queue is empty and its flits are acknowledged; the end that agrees sleeps too. -/
def State.sleepReqIn (s : State) (p : Nat) : State :=
  if !s.portUp p then s
  else if (s.link p).idle || ((s.link p).queues.isEmpty && (s.link p).sleepReq) then
    (((s.sendLctl p 2 0).clockLost p).setFld F.PORT_LNK_STAT_STATE stSleep p).deepStep
  else s.sendLctl p 3 0

def execSleepReq (p : Port) (s : State) : Res := .next (s.sleepReqIn p.val)

/-- SLEEP_ACK (R283): the port enters SLEEP. Where a trigger abandoned the entry meanwhile, it resumes at once (Table 10-9). -/
def State.sleepAckIn (s : State) (p : Nat) : State :=
  let l := s.link p
  if s.portUp p ∧ l.sleepReq then
    let s := ((s.setLink p { l with sleepReq := false }).clockLost p).setFld F.PORT_LNK_STAT_STATE stSleep p
    if s.power.deep = 0 then s.wakePort p else s.deepStep
  else s

def execSleepAck (p : Port) (s : State) : Res := .next (s.sleepAckIn p.val)

/-- SLEEP_NAK (R283): the port stays UP, and the entry to deep idle is abandoned (R33). -/
def State.sleepNakIn (s : State) (p : Nat) : State :=
  let l := s.link p
  if s.portUp p ∧ l.sleepReq then
    let s := s.setLink p { l with sleepReq := false }
    if s.power.deep = 1 then s.wakeDevice else s
  else s

def execSleepNak (p : Port) (s : State) : Res := .next (s.sleepNakIn p.val)

/-- WAKE_BURST (R284): a sleeping end with a packet to send moves to WAKING; an end in WAKING sends a burst every 10 µs. -/
def execWakeBurst (p : Port) (s : State) : Res :=
  .next (let p := p.val
    let l := s.link p
    if s.portState p = stSleep ∧ !l.queues.isEmpty then (s.wakePort p).emit (.wakeBurst p)
    else if s.portState p = stWaking then s.emit (.wakeBurst p)
    else s)

/-- WAKE_BURST_DETECT (R31, R284): the partner wakes this device, and the port resumes: at once, or, entering SLEEP, at SLEEP_ACK (Table 10-9). -/
def execWakeBurstDetect (p : Port) (s : State) : Res :=
  .next (if s.portState p.val = stSleep then s.wakeDevice.wakePort p.val
    else if s.portUp p.val && (s.link p.val).sleepReq then s.wakeDevice else s)

/-! ### Flits (R270 to R275) -/

/-- A whole packet has arrived on a port: malformed ones are discarded (R281). One on a listening port, or a Thrumlink message, wakes the
device from Freewheel and ends an entry to deep idle (R31, R33). -/
def State.packetIn (s : State) (p : Nat) (k : Packet) : State :=
  if k.wellFormed then
    let s := if s.flag F.PORT_CTL_LISTEN p || 12 ≤ p then s.wakeDevice else s
    -- a packet of the old epoch has arrived (R293 step 3)
    let old := s.flag F.HUB_RT_STAT_LOCK && k.epoch != s.epoch && (s.role p == 1 || s.role p == 2) && !k.oneHop
    let s : State := if old then { s with hub := { s.hub with oldAt := s.now } } else s
    s.setLink p { s.link p with ingress := (s.link p).ingress ++ [k] }
  else (s.linkErr p .crc).freeBuffers p k.vc.toNat k.flitCount

/-- A data flit of a packet: it is taken when a packet is in progress (R281). -/
def State.dataIn (s : State) (p : Nat) (bytes : List (BitVec 8)) : State :=
  let l := s.link p
  match l.part with
  | none => s
  | some (k, n) =>
    let k := { k with payload := k.payload ++ bytes }
    let s := s.setLink p { l with used := vcSet l.used k.vc.toNat (vcGet l.used k.vc.toNat + 1), part := if n ≤ 1 then none else some (k, n - 1) }
    if n ≤ 1 then s.packetIn p k else s

/-- The first flit of a packet. -/
def State.headerIn (s : State) (p : Nat) (k : Packet) : State :=
  let l := s.link p
  let n := k.ndata.toNat
  let s := s.setLink p { l with used := vcSet l.used k.vc.toNat (vcGet l.used k.vc.toNat + 1), part := if n = 0 then none else some (k, n) }
  if n = 0 then s.packetIn p k else s

/-- The body of an accepted flit acts (R271). -/
def State.bodyIn (s : State) (p : Nat) (b : FlitBody) : State :=
  match b with
  | .header k => s.headerIn p k
  | .data bs => s.dataIn p bs
  | .audit c => s.auditIn p c
  | .cap c => s.capIn p c
  | .echo t d => s.echoIn p t d
  | .null => s
  | .lctl sub _ =>
    if sub = 1 then s.sleepReqIn p
    else if sub = 2 then s.sleepAckIn p
    else if sub = 3 then s.sleepNakIn p
    else if sub = 4 then s.startRetrain p 0 false
    else if sub = 5 then (if s.portLive p then s.portDown p 7 false else s)
    else s

/-- Credits a flit returns (R277, R278). -/
def Link.credit (l : Link) (f : Flit) : Link :=
  let v := f.crvc.toNat
  let n := f.crcnt.toNat
  { l with cred := vcSet l.cred v (vcGet l.cred v + n), got := vcSet l.got v ((vcGet l.got v + n) % 65536) }

/-- FLIT_RECEIVE (R263, R270 to R273): FEC counts, the CRC, the ACK, SEQ against E, and the body. -/
def execFlitReceive (p : Port) (f : Flit) (r : RxCheck) (s : State) : Res :=
  let p := p.val
  .next (
    let st := s.portState p
    if st = stDark ∨ st = stSleep then s
    else
      let s := (s.count F.PORT_FEC_CNT_CORR r.corr p).evrCodeword p r.corr r.uncorr
      let s := if r.uncorr then (s.count F.PORT_FEC_CNT_UNCORR 1 p).raise (0x143 + 8 * p) else s
      if r.uncorr ∨ !r.crcOk then s.linkErr p .crc
      else
        let s := s.setLink p { s.link p with goodAt := s.now }
        if st = stUp ∨ st = stRetrain then
          let l := if f.ackv then (s.link p).applyAck f.ack.toNat s.now else s.link p
          if f.body.sequenced then
            if f.seq.toNat = l.expect then
              (s.setLink p { l.credit f with expect := (l.expect + 1) % 4096, ackv := true, busyAt := s.now }).bodyIn p f.body
            else
              let s := s.setLink p l
              let d := (l.expect + 4096 - f.seq.toNat) % 4096
              if 1 ≤ d ∧ d ≤ 2048 then s.count F.PORT_CNT_DUP 1 p else s
          else (s.setLink p (l.credit f)).bodyIn p f.body
        else match f.body with
          | .cap c => s.capIn p c
          | .echo t d => s.echoIn p t d
          | _ => s)

/-- The oldest unacknowledged flit of an UP port has waited REPLAY_TMO (R275). -/
def State.replayDue (s : State) (p : Nat) : Bool :=
  s.portUp p && !(s.link p).unacked.isEmpty && decide ((s.link p).replayAt + s.fld1 F.PORT_TIMERS_REPLAY_TMO p ≤ s.now)

/-- Every unacknowledged flit is sent again with the current ACK; after REPLAY_MAX timeouts in a row the port retrains (R275). -/
def State.replayNow (s : State) (p : Nat) : State :=
  let l := s.link p
  let ack := BitVec.ofNat 12 (l.expect + 4095)
  let un := l.unacked.map (fun (f : Flit) => { f with ack := ack, ackv := l.ackv })
  let s := s.setLink p { l with unacked := un, replayAt := s.now, replays := l.replays + 1 }
  let s := (s.emit (.flits p un)).linkErr p .replay
  if s.fld1 F.PORT_CTL_REPLAY_MAX p ≤ l.replays + 1 then s.startRetrain p 2 true else s

/-- REPLAY_TIMEOUT (R275, Table 10-9): a timeout that is due is taken at the end of the cycle, after the ACKs of the cycle. -/
def execReplayTimeout (p : Port) (s : State) : Res :=
  .next (if s.replayDue p.val then s.decideLate (.replay p.val) else s)

end Sys2Proof.Machine
end

