-- ==== Sys2Proof/Machine/Hub.lean ====
section
/-!
DEFINITION. Commands of the hub: switching, routing versions and flips, multicast, network time, egress queues, gates, shapers and policers
(R287 to R308).
-/
namespace Sys2Proof

/-- Multicast requests, which the hub itself replicates (R297). -/
def Packet.isMulticast (k : Packet) : Bool := k.typN == 0x60 || k.typN == 0x61

end Sys2Proof

namespace Sys2Proof.Machine
open Sys2Proof

def State.setHub (s : State) (h : Hub) : State := { s with hub := h }

/-! ### Forwarding (R287 to R291, R313, R416) -/

/-- The epoch a packet that arrives on port `p` carries onward: HOST and TENANT ports take the ingress epoch, or the one its request
already has (R289, R295). -/
def State.stampIn (s : State) (p : Nat) (k : Packet) : Packet :=
  if s.role p = 0 ∨ s.role p = 3 then
    match s.hub.flows.find? (fun f => f.onChan p k.srcN k.chN && f.pkt.tag == k.tag) with
    | some f => { k with epoch := f.pkt.epoch }
    | none => { k with epoch := s.epoch }
  else k

/-- A request of VC0 or VC4 that must wait for the old epoch's requests of its channel (R295). -/
def State.waitsEpoch (s : State) (p : Nat) (k : Packet) : Bool :=
  (s.role p == 0 || s.role p == 3) && (k.vc.toNat == 0 || k.typN == 8) && k.epoch == s.epoch &&
    s.hub.flows.any (fun f => f.onChan p k.srcN k.chN && f.pkt.epoch != s.epoch)

/-- The egress queue of a packet in transit (Table 11-4). -/
def State.transitQueue (s : State) (p : Nat) (k : Packet) : Nat :=
  if s.role p = 1 ∨ s.role p = 2 then 496 + k.vc.toNat else 504 + k.vc.toNat

/-- The hub gives up on a packet: it is counted, and a request completes with the status of the verdict (R291). -/
def State.giveUp (s : State) (p : Nat) (k : Packet) (v : Verdict) : State :=
  (s.countDiscard v).refuseOnce p k v.status

/-- Sends a packet on to egress port `out`, or a reply to the requester whose request the hub forwarded (R288, R291). -/
def State.forwardTo (s : State) (p out : Nat) (k : Packet) : State :=
  let q := s.transitQueue p k
  let k := { k with hops := k.hops + 1 }
  if k.typN = 0x10 ∨ k.typN = 0x11 then s.answer out q k
  else
    let s := if k.isRequest then s.noteFlow p out k (s.role p == 0 || s.role p == 3) else s
    s.enqueue out q k

/-- A packet that passed its port goes where the table routes it. While the device waits for an image every pool request and every call
completes ACCESS_DENIED (R405). -/
def State.route (s : State) (p : Nat) (k : Packet) : State :=
  if k.oneHop || k.isMulticast then s.deliver p k
  else if s.flag F.GLB_STAT_WAIT_IMG && k.isRequest then s.refuseOnce p k .accessDenied
  else
    let r := s.routeVer k.epoch
    let s := if r.2 then s.count F.HUB_CNT_LATE else s
    let v := match s.lookup r.1 k.dstN with | some n => s.portVerdict n | none => .noRoute
    let v := if s.role p = 3 ∧ v ≠ .here then .noRoute else v
    match v with
    | .here =>
      if k.typN = 0x79 then s
      else (if k.isRequest then s.noteFlow p 15 k (s.role p == 0 || s.role p == 3) else s).deliver p k
    | .port out => s.forwardTo p out k
    | v => s.giveUp p k v

/-- First packet of VC `vc` that may leave the ingress of port `p`. -/
def State.nextIngress (s : State) (p vc : Nat) : Option Packet :=
  (s.link p).ingress.find? (fun k => k.vc.toNat == vc && !s.waitsEpoch p (s.stampIn p k))

/-- HUB_FORWARD (R287, R288, R313): authentication, the hop limit, then the route; the packet's receive buffers are freed. -/
def execHubForward (p : Port) (vc : Fin 8) (s : State) : Res :=
  let p := p.val
  .next (match s.nextIngress p vc.val with
    | none => s
    | some k =>
      let s := s.setLink p { s.link p with ingress := (s.link p).ingress.erase k }
      let s := s.freeBuffers p vc.val k.flitCount
      let k' := s.stampIn p k
      if !s.authOk p k then
        if k.isRequest then s.refuseOnce p k' .accessDenied (fun s => (s.count F.PORT_AUTH_CNT_DENIED 1 p).raise (0x144 + 8 * p))
        else (s.count F.PORT_AUTH_CNT_DISCARD 1 p).raise (0x144 + 8 * p)
      else
        let s := s.chkPacket p k (s.ctxOf p k.srcN)
        if s.fld1 F.HUB_CTL_HOP_MAX ≤ k.hops.toNat then
          -- the hub that sent a multicast copy on counts it LOST (R297)
          let s := s.count F.HUB_CNT_HOPS
          if k.isMulticast then s else s.refuseOnce p k' .noRoute
        else s.route p k')

/-! ### Routing table (R290, R292) -/

/-- Inactive version of the routing table. -/
def State.idleVer (s : State) : Nat := 1 - s.epoch.toNat

/-- A write to version `v` is refused: it is active, or still locked (R292). -/
def State.verClosed (s : State) (v : Nat) : Bool := v == s.epoch.toNat || s.flag F.HUB_RT_STAT_LOCK

def State.rtEntry (s : State) (v i : Nat) : BitVec 64 := smGet 0 s.hub.rt (v * 16384 + i)
def State.mcEntry (s : State) (v g : Nat) : BitVec 64 := smGet 0 s.hub.mc (v * 1024 + g)

/-- ROUTE_READ (R290, R292). -/
def execRouteRead (w : Writer) (s : State) : Res :=
  .next (s.regWrite w .HUB_RT_OP 0 (fun s =>
    if s.flag F.HUB_RT_STAT_BUSY then s.respond .busy
    else (s.setReg .HUB_RT_DATA (s.rtEntry (s.fld F.HUB_RT_INDEX_VER) (s.fld F.HUB_RT_INDEX_INDEX)).toNat).respond .ok))

/-- What R290 asks of an entry written at index `i` of version `v`. -/
def State.rtOk (s : State) (v i e : Nat) : Bool :=
  bits e 30 33 == 0 && (!rtBlock e || bits e 0 6 == 0) &&
    (!rtV e || !s.hub.rt.any (fun x => x.1 / 16384 == v && x.1 % 16384 != i && rtV x.2.toNat && rtKey x.2.toNat == rtKey e &&
      rtBlock x.2.toNat == rtBlock e))

/-- ROUTE_WRITE (R290, R292). -/
def execRouteWrite (w : Writer) (s : State) : Res :=
  .next (s.regWrite w .HUB_RT_OP 0 (fun s =>
    let v := s.fld F.HUB_RT_INDEX_VER
    let i := s.fld F.HUB_RT_INDEX_INDEX
    let e := s.regVal .HUB_RT_DATA
    if s.flag F.HUB_RT_STAT_BUSY then s.respond .busy
    else if s.verClosed v || !s.rtOk v i e then s.respond .accessDenied
    else (s.setHub { s.hub with rt := smSet 0 s.hub.rt (v * 16384 + i) (BitVec.ofNat 64 e) }).respond .ok))

/-- Starts a COPY or CLEAR: BUSY reads 1 for the 17,409 hub cycles the entries take (R292). -/
def State.startRtOp (s : State) (f : State → State) : State :=
  if s.flag F.HUB_RT_STAT_BUSY then s.respond .busy
  else if s.flag F.HUB_RT_STAT_LOCK then s.respond .accessDenied
  else
    let s := f s
    ((s.setHub { s.hub with opEnd := some (s.now + 17409) }).setFld F.HUB_RT_STAT_BUSY 1).respond .ok

/-- Everything of the inactive version, emptied. -/
def State.clearIdle (s : State) : State :=
  let v := s.idleVer
  (s.setHub { s.hub with rt := s.hub.rt.filter (fun e => e.1 / 16384 != v), mc := s.hub.mc.filter (fun e => e.1 / 1024 != v) }).setReg .HUB_RT_DEF 0 0 v

/-- The inactive version made equal to the active one. -/
def State.copyActive (s : State) : State :=
  let v := s.idleVer
  let s := s.clearIdle
  let rt := (s.hub.rt.filter (fun e => e.1 / 16384 == 1 - v)).foldr (fun e m => smSet 0 m (v * 16384 + e.1 % 16384) e.2) s.hub.rt
  let mc := (s.hub.mc.filter (fun e => e.1 / 1024 == 1 - v)).foldr (fun e m => smSet 0 m (v * 1024 + e.1 % 1024) e.2) s.hub.mc
  (s.setHub { s.hub with rt := rt, mc := mc }).setReg .HUB_RT_DEF (s.regVal .HUB_RT_DEF 0 (1 - v)) 0 v

/-- ROUTE_CLEAR (R292). -/
def execRouteClear (w : Writer) (s : State) : Res := .next (s.regWrite w .HUB_RT_OP 0 (fun s => s.startRtOp State.clearIdle))

/-- ROUTE_COPY (R292). -/
def execRouteCopy (w : Writer) (s : State) : Res := .next (s.regWrite w .HUB_RT_OP 0 (fun s => s.startRtOp State.copyActive))

/-- ROUTE_OP_END (R292). -/
def execRouteOpEnd (s : State) : Res :=
  .next (match s.hub.opEnd with
    | some t => if t ≤ s.now then (s.setHub { s.hub with opEnd := none }).setFld F.HUB_RT_STAT_BUSY 0 else s
    | none => s)

/-- The ingress epoch changes (R293 step 1). -/
def State.flip (s : State) : State :=
  let s := (s.setFld F.HUB_RT_STAT_EPOCH (1 - s.epoch.toNat)).setFld F.HUB_RT_STAT_LOCK 1
  let s := ((s.setFld F.HUB_RT_STAT_DRAINED 0).setFld F.HUB_RT_STAT_TMO 0).bump F.HUB_RT_STAT_FLIPS
  s.setHub { s.hub with flipAt := s.now, oldAt := s.now }

/-- FLIP (R293). -/
def execFlip (w : Writer) (s : State) : Res :=
  .next (s.regWrite w .HUB_RT_CMD 0 (fun s => if s.flag F.HUB_RT_STAT_LOCK then s.respond .accessDenied else s.flip.respond .ok))

/-- RECHECK (R293 step 4): the drain check starts again. -/
def execRecheck (w : Writer) (s : State) : Res :=
  .next (s.regWrite w .HUB_RT_CMD 0 (fun s =>
    (if s.flag F.HUB_RT_STAT_LOCK then (s.setFld F.HUB_RT_STAT_TMO 0).setHub { s.hub with flipAt := s.now } else s).respond .ok))

/-- Packets of the old epoch that the hub or a port holds, completions that wait for their turn among them (R293 step 3). -/
def State.heldOld (s : State) : Nat :=
  let old (k : Packet) : Bool := k.epoch != s.epoch && !k.oneHop
  (List.range 14).foldl (fun n p =>
    let l := s.link p
    n + (l.queues.foldl (fun a q => a + (q.2.filter (fun x => old x.pkt)).length) 0)
      + (if s.role p = 0 ∨ s.role p = 3 then 0 else ((l.ingress ++ (l.part.map (·.1)).toList).filter old).length))
    (s.hub.flows.foldl (fun a f => a + (if f.arr = 15 then 0 else (f.replies.filter (fun x => old x.2)).length)) 0)

/-- DRAIN_DETECT (R293, R295): DRAINED is set, the old version unlocks, and held coherence packets leave. -/
def execDrainDetect (s : State) : Res :=
  .next (if s.flag F.HUB_RT_STAT_LOCK ∧ !s.flag F.HUB_RT_STAT_TMO ∧ s.heldOld = 0 ∧ s.hub.oldAt + s.fld1 F.HUB_CTL_DRAIN_QUIET * 1000 ≤ s.now then
      let s := (s.setFld F.HUB_RT_STAT_DRAINED 1).setFld F.HUB_RT_STAT_LOCK 0
      let held := s.hub.heldCoh
      held.foldl (fun s x => if x.1 = 15 then (s.originate none x.2.2).2 else s.enqueue x.1 x.2.1 { x.2.2 with epoch := s.epoch })
        (s.setHub { s.hub with heldCoh := [] })
    else s)

/-- DRAIN_TIMEOUT (R293 step 4). -/
def execDrainTimeout (s : State) : Res :=
  .next (if s.flag F.HUB_RT_STAT_LOCK ∧ !s.flag F.HUB_RT_STAT_TMO ∧ s.hub.flipAt + s.fld1 F.HUB_CTL_DRAIN_TMO * 1000 ≤ s.now then
      let n := min 65535 s.heldOld
      let s := (s.setFld F.HUB_RT_STAT_TMO 1).setFld F.HUB_RT_STAT_HELD n
      (s.event srcHub 0x21 [n + s.fld F.HUB_RT_STAT_FLIPS * 2 ^ 16]).raise 0x1B4
    else s)

/-- The copy with which a failover starts, the entries at `idx` of the inactive version changed by `f`, and the flip (R294 steps 1 to 3). -/
def State.moveRoutes (s : State) (idx : List Nat) (f : Nat → Nat) : State :=
  let s := s.copyActive
  let i := s.idleVer
  (s.setHub { s.hub with
    rt := s.hub.rt.map (fun e => if e.1 / 16384 = i ∧ idx.contains (e.1 % 16384) then (e.1, BitVec.ofNat 64 (f e.2.toNat)) else e)
    copyDue := true }).flip

/-- Indices of the active version's valid entries with an alternate whose PORT is `p` (R294). -/
def State.altHits (s : State) (p : Nat) : List Nat :=
  ((s.hub.rt.filter (fun e => e.1 / 16384 == s.epoch.toNat)).map (·.1 % 16384)).filter (fun i =>
    let e := (s.rtEntry s.epoch.toNat i).toNat
    rtV e && rtPort e == p && rtAltV e)

/-- Indices of the entries that failover moved away from port `p` and that still name their alternate. -/
def State.altMoved (s : State) (p : Nat) : List Nat :=
  (s.hub.moved.filter (fun m => m.1 == p &&
    (let e := (s.rtEntry s.epoch.toNat m.2).toNat
     rtV e && rtAltV e && rtPort e == rtAlt e))).map (·.2)

/-- AUTO_ALT_FAILOVER (R294): firmware's next action for a fabric port. The second COPY comes once DRAINED reads 1; the entries of a port
that is DOWN move to their alternates; those moved are restored in the same way once it is UP. -/
def execAutoAltFailover (p : Port) (s : State) : Res :=
  .next (
    let p := p.val
    if !s.flag F.HUB_CTL_AUTO_ALT || s.fld F.TDM_ROLE_MODE == 2 || s.flag F.HUB_RT_STAT_LOCK || s.flag F.HUB_RT_STAT_BUSY || 12 ≤ p then s
    else if s.hub.copyDue then
      if s.flag F.HUB_RT_STAT_DRAINED then
        let s := s.copyActive
        (s.setHub { s.hub with opEnd := some (s.now + 17409), copyDue := false }).setFld F.HUB_RT_STAT_BUSY 1
      else s
    else if s.portState p = stDown ∧ s.altHits p ≠ [] then
      let hits := s.altHits p
      (s.setHub { s.hub with moved := s.hub.moved.filter (fun m => !hits.contains m.2) ++ hits.map (fun i => (p, i)) }).moveRoutes hits
        (fun e => setBits e 21 4 (rtAlt e))
    else if s.portState p = stUp ∧ s.altMoved p ≠ [] then
      let back := s.altMoved p
      (s.setHub { s.hub with moved := s.hub.moved.filter (fun m => m.1 != p) }).moveRoutes back (fun e => setBits e 21 4 p)
    else s)

/-! ### Multicast (R296 to R298) -/

/-- GROUP_READ (R292, R296). -/
def execGroupRead (w : Writer) (s : State) : Res :=
  .next (s.regWrite w .HUB_MC_OP 0 (fun s =>
    if s.flag F.HUB_RT_STAT_BUSY then s.respond .busy
    else (s.setReg .HUB_MC_DATA (s.mcEntry (s.fld F.HUB_MC_INDEX_VER) (s.fld F.HUB_MC_INDEX_GROUP)).toNat).respond .ok))

/-- GROUP_WRITE (R292, R296). -/
def execGroupWrite (w : Writer) (s : State) : Res :=
  .next (s.regWrite w .HUB_MC_OP 0 (fun s =>
    let v := s.fld F.HUB_MC_INDEX_VER
    if s.flag F.HUB_RT_STAT_BUSY then s.respond .busy
    else if s.verClosed v then s.respond .accessDenied
    else (s.setHub { s.hub with mc := smSet 0 s.hub.mc (v * 1024 + s.fld F.HUB_MC_INDEX_GROUP)
                                          (BitVec.ofNat 64 (s.regVal .HUB_MC_DATA)) }).respond .ok))

/-- STATUS of a report (R298). -/
def Report.status (r : Report) : Status :=
  if r.fenced = 0 ∧ r.lost = 0 ∧ r.refused = 0 then .ok else if 0 < r.delivered then .partialFail else .noRoute

/-- Sends the report of an entry: MREP to the hub it got its copy from, or MCMPL to the requester (R297 step 5). -/
def State.sendReport (s : State) (r : Report) : State :=
  let k := r.requester
  let (typ, rid) := match r.upRid with | some n => (0x62, n) | none => (0x63, r.rid)
  let m : Packet := { dst := k.src, src := k.dst, typ := typ, vc := 5, inl := 1, tag := k.tag, ch := k.ch, epoch := s.epoch,
                      payload := mcBody k.tagN k.chN r.group r.status r.delivered r.fenced r.lost r.refused rid }
  if r.arrPort = 15 then s.deliver 15 m else s.enqueue r.arrPort (504 + 5) m

/-- Number of the lowest free report entry. -/
def State.freeRid (s : State) : Option Nat := (List.range 1024).find? (fun i => !s.hub.reports.any (fun r => r.rid == i))

/-- One branch of a multicast packet: the report entry with its copy counted or queued (R297 step 2). -/
def State.branch (s : State) (g fmask : Nat) (ctx : Option Nat) (k : Packet) (r : Report) (q : Nat) : Report × State :=
  if fmask.testBit q then ({ r with fenced := r.fenced + 1 }, s.count F.HUB_MC_GCNT_FENCED 1 0 g)
  else
    let queue := match ctx with | some c => s.fld F.HUB_QSEL_QUEUE 0 c | none => if r.upRid.isSome then 496 + 5 else 504 + 5
    if !s.portUp q || !Config.vc5Room (smGet [] (s.link q).queues queue).length then
      ({ r with lost := r.lost + 1 }, s.count F.HUB_MC_GCNT_LOST 1 0 g)
    else ({ r with wait := r.wait ++ [q] }, s.enqueue q queue { k with hops := k.hops + 1, w4 := BitVec.ofNat 64 r.rid })

/-- A multicast request at this hub (R297): `here` delivers the local copy, answering the report with what it counts now. -/
def State.multicast (s : State) (p : Nat) (k : Packet) (here : State → Report → Report × State) : State :=
  let first := k.hops = 0
  let ctx := s.ctxOf p k.srcN
  let g := k.dstN
  let e := (s.mcEntry (s.routeVer k.epoch).1 g).toNat
  let up := if first then none else some (bits k.w4.toNat 0 16)
  let base : Report := ⟨0, g % 1024, p, k, up, [], 0, 0, 0, 0, 0, s.now⟩
  if 2048 < k.lenN ∧ first then s.refuse p k .accessDenied
  else if first ∧ (1024 ≤ g ∨ !e.testBit 15) then s.refuse p k .accessDenied
  else if 1024 ≤ g ∨ !e.testBit 15 then s.sendReport { base with lost := 1 }
  else
    let (v, s) := match ctx with
      | some c => if first ∧ p < 14 then s.police c (64 + k.lenN) else (.pass, s)
      | none => (.pass, s)
    if v = .drop then s.refuse p k .busy
    else match s.freeRid with
      | none => (s.count F.HUB_MC_GCNT_LOST 1 0 g).sendReport { base with lost := 1 }
      | some rid =>
        let fmask := s.regVal .HUB_MC_FMASK 0 g
        let ports := (List.range 14).filter (fun q => e.testBit q && q != p)
        let (r, s) := ports.foldl (fun (a : Report × State) q => a.2.branch g fmask (if first then ctx else none) k a.1 q) ({ base with rid := rid }, s)
        let (r, s) : Report × State := if !e.testBit 14 then (r, s)
          else if fmask.testBit 14 then ({ r with fenced := r.fenced + 1 }, s.count F.HUB_MC_GCNT_FENCED 1 0 g)
          else if 256 ≤ s.hub.mcPool.length then ({ r with lost := r.lost + 1 }, s.count F.HUB_MC_GCNT_LOST 1 0 g)
          else here s r
        (s.setHub { s.hub with reports := s.hub.reports ++ [r] }).settle

/-- The local copy of an MWR: a write in the context bound to its arrival port and source, outside the order channels (R297). -/
def State.mwrHere (p : Nat) (k : Packet) (s : State) (r : Report) : Report × State :=
  match s.ctxOf p k.srcN with
  | none => ({ r with refused := r.refused + 1 }, s.countDeny (arrQuarter p))
  | some c =>
    let n := min 2048 k.lenN
    if n = 0 then ({ r with refused := r.refused + 1 }, s)
    else
      let ps := s.plainPieces c k.addr.toNat n
      let q : Req := { id := 0, chan := ⟨c, .port p, 8 + r.rid⟩, tag := r.rid, kind := .write, seg := 0, addr := k.addr.toNat, len := n,
                       data := sliceBytes k.payload 0 n, have_ := n, pieces := ps, ep := k.srcN, dest := .mcast r.rid }
      let s := (s.denyPieces (arrQuarter p) ps).addReq q
      ({ r with locals := r.locals + 1 }, s.setHub { s.hub with mcPool := s.hub.mcPool ++ [(r.rid, k)] })

/-- MWR (R296, R297). -/
def execMwr (p : Port) (k : Packet) (s : State) : Res :=
  .next (s.onArrival p.val 0x60 k (fun s => s.multicast p.val k (State.mwrHere p.val k)))

/-- Adds a downstream report to its entry; a report that comes late is discarded (R297). -/
def execMrep (p : Port) (k : Packet) (s : State) : Res :=
  .next (s.onArrival p.val 0x62 k (fun s =>
    let w1 := wordAt k.payload 8
    let w2 := wordAt k.payload 16
    let rid := bits (wordAt k.payload 24) 0 16
    s.setHub { s.hub with reports := s.hub.reports.map (fun (r : Report) =>
      if r.rid = rid ∧ r.wait.contains p.val then
        { r with wait := r.wait.erase p.val, delivered := r.delivered + bits w1 0 32, fenced := r.fenced + bits w1 32 32,
                 lost := r.lost + bits w2 0 32, refused := r.refused + bits w2 32 32 }
      else r) }))

/-- MULTICAST_REPORT_SEND (R297 step 5, R298): once every copy has reported and every local delivery has ended. -/
def execMulticastReportSend (rid : Fin 1024) (s : State) : Res :=
  .next (match s.hub.reports.find? (fun r => r.rid == rid.val) with
    | some r => if r.wait.isEmpty ∧ r.locals = 0 then (s.setHub { s.hub with reports := s.hub.reports.erase r }).sendReport r else s
    | none => s)

/-- MC_BRANCH_TIMEOUT (R297). -/
def execMcBranchTimeout (rid : Fin 1024) (p : Port) (s : State) : Res :=
  .next (s.setHub { s.hub with reports := s.hub.reports.map (fun (r : Report) =>
    if r.rid = rid.val ∧ r.wait.contains p.val ∧ r.since + s.fld1 F.HUB_CTL_MC_TMO * 10000 ≤ s.now then
      { r with wait := r.wait.erase p.val, lost := r.lost + 1 } else r) })

/-! ### Gates (R303) -/

/-- Puts an entry of the active list in force until `t`. -/
def State.gateEntry (s : State) (p : Nat) (e : Nat × Nat × Nat) (start : Int) : State :=
  let s := (s.setFld F.PORT_GATE_STAT_ENTRY e.1 p).setFld F.PORT_GATE_STAT_OPEN e.2.1 p
  s.setLink p { s.link p with gateEnd := start + e.2.2, gateHold := false }

/-- Starts list `l` at instant `t`; a list with no cycle opens every gate (R303). -/
def State.startList (s : State) (p l : Nat) (t : Int) : State :=
  let s := (s.setFld F.PORT_GATE_CTL_ACT l p).setFld F.PORT_GATE_CTL_PEND 0 p
  match s.gateEntries p l with
  | [] => ((s.setFld F.PORT_GATE_STAT_ENTRY 0 p).setFld F.PORT_GATE_STAT_OPEN 255 p).setLink p { s.link p with gateEnd := 0, gateHold := false }
  | e :: _ => s.gateEntry p e t

/-- A write of PEND (R303): the switch comes at the other list's next cycle start; one without a cycle switches at once. -/
def State.pendGates (s : State) (p : Nat) : State :=
  let l := 1 - s.fld F.PORT_GATE_CTL_ACT p
  if gateCycle (s.gateEntries p l) = 0 then s.startList p l s.gateTime
  else
    (s.setFld F.PORT_GATE_CTL_PEND 1 p).setLink p { s.link p with gateSwitch := s.cycleStart p l s.gateTime }

/-- GATE_ENTRY_END (R303): the pending switch, or the next entry of the list in force. -/
def execGateEntryEnd (p : Port) (s : State) : Res :=
  .next (let p := p.val
    let l := s.link p
    let a := s.fld F.PORT_GATE_CTL_ACT p
    if s.flag F.PORT_GATE_CTL_PEND p ∧ l.gateSwitch ≤ s.gateTime then s.startList p (1 - a) l.gateSwitch
    else if l.gateEnd = 0 ∨ s.gateTime < l.gateEnd then s
    else
      let es := s.gateEntries p a
      match (if l.gateHold then none else es.find? (fun e => s.fld F.PORT_GATE_STAT_ENTRY p < e.1)), es with
      | some e, _ => s.gateEntry p e l.gateEnd
      | none, e :: _ => (s.bump F.PORT_GATE_STAT_CYCLES 1 p).gateEntry p e l.gateEnd
      | none, [] => s.startList p a s.gateTime)

/-- Classes open now. -/
def State.gatesOpen (s : State) (p : Nat) : Nat := if (s.link p).gateEnd = 0 then 255 else s.fld F.PORT_GATE_STAT_OPEN p

/-- Time until the gate of class `g` closes, in ns: through the entries that follow the one in force; none: it does not close. -/
def openRun (g : Nat) : List (Nat × Nat × Nat) → Nat → Option Nat
  | [], _ => none
  | e :: rest, t => if e.2.1.testBit g then openRun g rest (t + e.2.2) else some t

def State.closesIn (s : State) (p g : Nat) : Option Nat :=
  let l := s.link p
  let a := s.fld F.PORT_GATE_CTL_ACT p
  let here : Option Nat :=
    if l.gateEnd = 0 then none
    else
      let es := s.gateEntries p a
      let n := s.fld F.PORT_GATE_STAT_ENTRY p
      openRun g ((if l.gateHold then [] else es.filter (fun e => n < e.1)) ++ es) (l.gateEnd - s.gateTime).toNat
  -- a pending switch puts the other list in force (R303, Table 11-5)
  if !s.flag F.PORT_GATE_CTL_PEND p then here
  else
    let w := (l.gateSwitch - s.gateTime).toNat
    match here with
    | some t => if t < w then some t else openRun g (s.gateEntries p (1 - a)) w
    | none => openRun g (s.gateEntries p (1 - a)) w

/-! ### Egress (R302, R304) -/

/-- OVH of a shaper, bounded (Table 11-9). -/
def shaperOvh (v : Nat) : Int := if 128 ≤ v then max (-32) ((v : Int) - 256) else min 64 (v : Int)

/-- Tokens of the shaper of queue `q` now, in thousandths of a byte. -/
def State.shaperTokens (s : State) (p q : Nat) : Int :=
  bucketNow (smGet (0, 0) (s.link p).toks q) (s.fld F.PORT_Q_CFG_RATE p q) (min 16777216 (s.fld F.PORT_Q_CFG_BURST p q)) s.now

/-- Nanoseconds that `n` flits take, rounded up (R264, R302). -/
def State.flitTime (s : State) (p n : Nat) : Nat :=
  let ps := if s.flag F.PORT_LNK_STAT_WIDTH4 p then 2560 else 1280
  (n * ps + 999) / 1000

/-- The head packet of queue `q` may start now (R302, R274). -/
def State.queueEligible (s : State) (p : Nat) (q : Nat × List QPkt) : Bool :=
  match q.2 with
  | [] => false
  | h :: _ =>
    let l := s.link p
    let n := h.pkt.flitCount
    let g := s.fld F.PORT_Q_CFG_GC p q.1
    (s.gatesOpen p).testBit g && n ≤ vcGet l.cred h.pkt.vc.toNat && l.room n (h.pkt.usedBytes / 64) &&
      (!s.flag F.PORT_Q_CFG_SHEN p q.1 || decide (0 < s.shaperTokens p q.1)) &&
      (!s.flag F.PORT_EGR_CTL_GUARD p || (match s.closesIn p g with | none => true | some t => s.flitTime p n ≤ t))

/-- The next of the eligible queues after the one served last, in turn. -/
def nextTurn (last : Nat) (qs : List (Nat × List QPkt)) : Option (Nat × List QPkt) :=
  match qs.find? (fun q => last < q.1) with
  | some q => some q
  | none => qs.head?

/-- The queue served next: the highest gate class with an eligible queue, its queues in turn (R302). -/
def State.schedule (s : State) (p : Nat) : Option (Nat × List QPkt) :=
  let l := s.link p
  let qs := l.queues.filter (s.queueEligible p)
  let g := qs.foldl (fun a q => max a (s.fld F.PORT_Q_CFG_GC p q.1)) 0
  nextTurn (vcGet l.rr g) (qs.filter (fun q => s.fld F.PORT_Q_CFG_GC p q.1 == g))

/-- Data bytes in pieces of 256. -/
def dataFlits : Nat → List (BitVec 8) → List (List (BitVec 8))
  | 0, _ => []
  | n + 1, bs => if bs.isEmpty then [] else bs.take 256 :: dataFlits n (bs.drop 256)

/-- Sends the flits of a packet, contiguously (R277, R281). -/
def State.sendPacket (s : State) (p : Nat) (k : Packet) : State :=
  let vc := k.vc.toNat
  if k.ndata = 0 then s.sendSeq p vc true true k.inl.toNat (.header k)
  else
    let ds := dataFlits (k.payload.length / 256 + 1) k.payload
    let s := s.sendSeq p vc true false 0 (.header { k with payload := [] })
    (ds.zipIdx).foldl (fun s d => s.sendSeq p vc false (d.2 + 1 == ds.length) ((d.1.length + 63) / 64 - 1) (.data d.1)) s

/-- EGRESS_START (R302, R304): the scheduler starts one packet, which draws its credits and tokens. -/
def execEgressStart (p : Port) (s : State) : Res :=
  let p := p.val
  .next (if !s.portUp p then s
    else match s.schedule p with
      | some (q, h :: rest) =>
        let l := s.link p
        let k := h.pkt
        let cost := max 0 ((k.usedBytes : Int) + shaperOvh (s.fld F.PORT_Q_CFG_OVH p q))
        let toks := if s.flag F.PORT_Q_CFG_SHEN p q then smSet (0, 0) l.toks q (s.shaperTokens p q - cost * 1000, s.now) else l.toks
        let vc := k.vc.toNat
        let s := s.setLink p { l with queues := smSet [] l.queues q rest, toks := toks, rr := vcSet l.rr (s.fld F.PORT_Q_CFG_GC p q) q,
                                      cred := vcSet l.cred vc (vcGet l.cred vc - k.flitCount), busyAt := s.now }
        let s := (s.sendPacket p k).emit (.packet p k)
        if vc = 1 then s.releaseFlows s.flowWork p k.dstN k.chN else s
      | _ => s)

/-- PORT_Q_CFG_WRITE (R304): T starts from FILL. -/
def execPortQCfgWrite (w : Writer) (p : Port) (q : Fin 512) (v : BitVec 64) (s : State) : Res :=
  .next (s.regWrite w .PORT_Q_CFG p.val (fun s =>
    let s := s.plainWrite .PORT_Q_CFG p.val q.val 0 v.toNat
    let t := if s.flag F.PORT_Q_CFG_FILL p.val q.val then min 16777216 (s.fld F.PORT_Q_CFG_BURST p.val q.val) else 0
    s.setLink p.val { s.link p.val with toks := smSet (0, 0) (s.link p.val).toks q.val (((t * 1000 : Nat) : Int), s.now) }))

/-- HUB_POL_CFG_WRITE (R305): T starts from FILL. -/
def execHubPolCfgWrite (w : Writer) (c : Ctx) (v : BitVec 64) (s : State) : Res :=
  .next (s.regWrite w .HUB_POL_CFG 0 (fun s =>
    let s := s.plainWrite .HUB_POL_CFG 0 c.val 0 v.toNat
    let t := if s.flag F.HUB_POL_CFG_FILL 0 c.val then min 16777216 (s.fld F.HUB_POL_CFG_BURST 0 c.val) else 0
    s.setHub { s.hub with pol := smSet (0, 0) s.hub.pol c.val (((t * 1000 : Nat) : Int), s.now) }))

/-- HUB_QSEL_WRITE (Table 11-7): queues above 495 are refused. -/
def execHubQselWrite (w : Writer) (c : Ctx) (v : BitVec 64) (s : State) : Res :=
  .next (s.regWrite w .HUB_QSEL 0 (fun s =>
    if 495 < F.HUB_QSEL_QUEUE.of v.toNat ∨ 495 < F.HUB_QSEL_QALT.of v.toNat then s.respond .accessDenied
    else s.plainWrite .HUB_QSEL 0 c.val 0 v.toNat))

/-- The bin of a depth in 256-byte units: 0 when empty, else k with 2^(k−1) ≤ d < 2^k, at most 15 (R306). -/
def histBin (d : Nat) : Nat := if d = 0 then 0 else min 15 (d.log2 + 1)

/-- Samples queue `q`. A head that has waited less than 10 ns counts in bin 1 (log 60). -/
def State.sampleQueue (s : State) (p : Nat) (q : Nat) : State :=
  let qs := smGet [] (s.link p).queues q
  let depth := qs.foldl (fun a x => a + x.pkt.flitCount) 0
  let delay := match qs with | [] => 0 | h :: _ => s.now - h.since
  let db := if qs.isEmpty then 0 else max 1 (histBin (delay / 10))
  let s := if s.flag F.SEC_STAT_CONF then s
    else (s.count F.PORT_HIST_DEPTH 1 p q (histBin depth)).count F.PORT_HIST_DELAY 1 p q db
  let s := s.setFld F.PORT_Q_STAT_MAXDEPTH (max (s.fld F.PORT_Q_STAT_MAXDEPTH p q) (min 16777215 depth)) p q
  s.setFld F.PORT_Q_STAT_MAXDELAY (max (s.fld F.PORT_Q_STAT_MAXDELAY p q) (min 4294967295 delay)) p q

/-- QUEUE_SAMPLE (R306). -/
def execQueueSample (p : Port) (s : State) : Res :=
  .next (let p := p.val
    let n := s.fld F.PORT_EGR_CTL_SAMPLE p
    let l := s.link p
    if n ≠ 0 ∧ l.sampleAt + n * 100 ≤ s.now then
      let s := s.evrNote 6 p (fun d => l.queues.foldl (fun d q =>
        recQueue d (s.fld F.PORT_Q_CFG_GC p q.1) ((q.2.map (fun h => s.now - h.since)).headD 0) (q.2.foldl (fun a x => a + x.pkt.flitCount) 0)) d)
      (List.range 512).foldl (fun s q => s.sampleQueue p q) (s.setLink p { l with sampleAt := s.now })
    else s)

/-! ### Network time (R299, R300) -/

/-- Domain and sequence of a SYNC or FOLLOW_UP (log 61 for their layout). -/
def syncKey (k : Packet) : Nat × Nat := (bits k.w3.toNat 0 8, k.tagN)

/-- SYNC (R299, R300): the arrival of a sample from the followed port. -/
def execSync (p : Port) (k : Packet) (s : State) : Res :=
  .next (s.onArrival p.val 0x68 k (fun s =>
    if s.fld F.HUB_TIME_CTL_SRC = 2 ∧ s.fld F.HUB_TIME_CTL_SRC_PORT = p.val ∧ (syncKey k).1 = s.fld F.HUB_TIME_CTL_DOMAIN then
      { s with time := { s.time with sync := some ((syncKey k).1, (syncKey k).2, (s.now : Int) + s.time.off) } }
    else s))

/-- One offset sample acts (R300): a step above 1 µs, else a slew; LOCK after eight within 50 ns, lost after eight outside or a step. -/
def State.timeSample (s : State) (offset : Int) : State :=
  let s := s.setFld F.HUB_TIME_STAT_OFFSET (offset % 16777216).toNat
  if 1000 < offset.natAbs then
    let s : State := { s with time := { s.time with off := s.time.off - offset, slew := 0, good := 0, bad := 0 } }
    let s := s.count F.HUB_TIME_STAT_STEPS
    (s.setLock false).realign
  else
    let s : State := { s with time := { s.time with slew := -offset } }
    if offset.natAbs ≤ 50 then
      let s : State := { s with time := { s.time with good := s.time.good + 1, bad := 0 } }
      if 8 ≤ s.time.good then s.setLock true else s
    else
      let s : State := { s with time := { s.time with bad := s.time.bad + 1, good := 0 } }
      if 8 ≤ s.time.bad then s.setLock false else s

/-- FOLLOW_UP (R299, R300): it brings the instant the SYNC of its sequence left; the path delay is half the measured round trip. -/
def execFollowUp (p : Port) (k : Packet) (s : State) : Res :=
  .next (s.onArrival p.val 0x69 k (fun s =>
    match s.time.sync with
    | some (d, n, t2) =>
      if s.fld F.HUB_TIME_CTL_SRC = 2 ∧ s.fld F.HUB_TIME_CTL_SRC_PORT = p.val ∧ syncKey k = (d, n) then
        let s : State := { s with time := { s.time with sync := none } }
        s.timeSample (t2 - ((k.w4.toNat : Int) + s.fld F.PORT_FIBRE_RTT_NS p.val / 2))
      else s
    | none => s))

/-- SYNC_SEND (R299): on an UP fabric port whose partner follows it. -/
def execSyncSend (p : Port) (s : State) : Res :=
  .next (let p := p.val
    let l := s.link p
    let us := s.fld1 F.HUB_TIME_CTL_SYNC_US * 1000
    if p < 12 ∧ s.portUp p ∧ (l.syncAt = 0 ∨ l.syncAt + us ≤ s.now) then
      let k : Packet := { typ := 0x68, vc := 7, tag := BitVec.ofNat 16 (s.now / us), w3 := BitVec.ofNat 64 (s.fld F.HUB_TIME_CTL_DOMAIN), epoch := s.epoch }
      let s := s.setLink p { l with syncAt := max 1 s.now }
      (s.enqueue p (504 + 7) k).enqueue p (504 + 7) { k with typ := 0x69, w4 := BitVec.ofNat 64 s.netNow }
    else s)

/-- TIME_SET (R300): the grandmaster's time; it reads LOCK = 1 from the first write on. -/
def execTimeSet (w : Writer) (v : BitVec 64) (s : State) : Res :=
  .next (s.regWrite w .HUB_TIME_SET 0 (fun s =>
    if s.fld F.HUB_TIME_CTL_SRC ≠ 1 then s.respond .accessDenied
    else
      let s : State := { s with time := { s.time with off := (v.toNat : Int) - s.now, slew := 0 } }
      ((s.setLock true).realign).respond .ok))

end Sys2Proof.Machine
end

