-- ==== Sys2Proof/Machine/Looms.lean ====
section
/-!
DEFINITION. Commands of looms: load, reset, pause and resume; calls from admission to start; chained calls (R235 to R252).
-/
namespace Sys2Proof.Machine
open Sys2Proof

/-! ### Commands (R237, R238) -/

/-- A write of `STN_LOOM_CMD`. -/
def State.loomCmd (s : State) (w : Writer) (f : State → State) : State :=
  s.regWrite w .STN_LOOM_CMD 0 (fun s => (f s).respond .ok)

/-- LOOM_LOAD (R237): the loom unit starts to read the draft image. -/
def execLoomLoad (w : Writer) (n : Loom) (s : State) : Res :=
  .next (s.loomCmd w (fun s =>
    let n := n.val
    if s.loomState n ≠ 0 then s.loomErr n .accessDenied
    else if !s.loadAllowed n then (s.setLoomState n 6).loomErr n .accessDenied
    else
      let x : Load := { serial := s.lm.serial, loom := n }
      let s := (s.setLm { s.lm with serial := x.serial + 1, loads := s.lm.loads ++ [x] }).setLoomState n 1 |>.loomErr n .ok
      (s.loadReads x [(0, .read, s.regVal .STN_LOOM_IMG 0 n, 64)]).settle))

/-- LOOM_LOAD_END (R237 steps 3 and 4). -/
def execLoomLoadEnd (n : Loom) (s : State) : Res :=
  .next (let n := n.val
    if s.loomState n = 1 ∧ !(s.loom n).resetting ∧ !s.lm.loads.any (fun x => x.loom == n) then
      let key := BitVec.ofNat 64 (s.regVal .STN_LOOM_KEY 0 n)
      let s := (s.loom n).sites.foldl (fun s k => (s.updStn k (fun t => { t with key := key, loadAt := s.now })).setSiteState k 3) s
      let s := (List.range (s.fld F.STN_LOOM_CTL_SEQN 0 n)).foldl (fun s i => s.setSlot n i {}) s
      (s.setLoomState n 2).settle
    else s)

/-- LOOM_RESET (R238): accepted in any state but EMPTY. -/
def execLoomReset (w : Writer) (n : Loom) (s : State) : Res :=
  .next (s.loomCmd w (fun s =>
    if s.loomState n.val = 0 then s.loomErr n.val .accessDenied else ((s.loomErr n.val .ok).resetLoom n.val).settleLooms))

/-- LOOM_PAUSE (R238): accepted in ACTIVE and DEGRADED. -/
def execLoomPause (w : Writer) (n : Loom) (s : State) : Res :=
  .next (s.loomCmd w (fun s =>
    let n := n.val
    if s.loomState n = 2 ∨ s.loomState n = 5 then
      ((s.loomErr n .ok).updLoom n (fun l => { l with byCmd := true })).pauseLoom n
    else s.loomErr n .accessDenied))

/-- LOOM_RESUME (R238): a loom that PAUSE paused; a mend of its set that is not over keeps it paused. -/
def execLoomResume (w : Writer) (n : Loom) (s : State) : Res :=
  .next (s.loomCmd w (fun s =>
    let n := n.val
    if (s.loomState n = 3 ∨ s.loomState n = 4) ∧ (s.loom n).byCmd then
      let s := (s.loomErr n .ok).updLoom n (fun l => { l with byCmd := false })
      if s.mending n then s else s.resumeLoom n
    else s.loomErr n .accessDenied))

/-! ### Calls (R244, R245) -/

/-- The call a packet asks for (Table 9-4). DRAFT and PCSEL come from its entry point. -/
def State.callFrom (s : State) (bs : List (BitVec 8)) : Call :=
  let w (i : Nat) : Nat := wordAt bs (8 * i)
  let loom := bits (w 0) 24 6
  let entry := bits (w 0) 30 4
  let e := (s.loom loom).entries.getD entry 0
  { loom := loom, entry := entry, tag := bits (w 0) 0 16, ch := bits (w 0) 16 3, arg := w 1, rmode := bits (w 2) 0 2
    failv := (w 2).testBit 2, repEp := bits (w 2) 4 20, failEp := bits (w 2) 24 20, jid := bits (w 3) 0 32
    slots := if (w 0).testBit 34 then w 4 + w 5 * 2 ^ 64 + w 6 * 2 ^ 128 + w 7 * 2 ^ 192 else 0
    draft := bits e 1 4, pcsel := bits e 5 2 }

/-- Admission of a call in context `c`, but for its channel (Table 9-5): the status of the first check it fails. -/
def State.callCheck (s : State) (c : Option Nat) (bs : List (BitVec 8)) : Status :=
  let w (i : Nat) : Nat := wordAt bs (8 * i)
  let x := s.callFrom bs
  let e := (s.loom x.loom).entries.getD x.entry 0
  if x.rmode = 3 || !onlyBits (w 0) (0x7FFFF + 0x7FF * 2 ^ 24) || !onlyBits (w 2) (2 ^ 44 - 1 - 8) || !onlyBits (w 3) (2 ^ 32 - 1) then .accessDenied
  else if s.loomState x.loom = 0 || c ≠ some (s.loomCtx x.loom) then .accessDenied
  else if !(2 ≤ s.loomState x.loom && s.loomState x.loom ≤ 5) || (s.loom x.loom).resetting then .accessDenied
  else if !(e.testBit 0 && (!e.testBit 7 || (w 0).testBit 34)) then .accessDenied
  else if !(slotsOf x.slots).all (fun i => i < s.fld F.STN_LOOM_CTL_SEQN 0 x.loom && (smGet {} (s.loom x.loom).slots i).st ≠ 1) then .accessDenied
  else match (s.loom x.loom).drafts[x.draft]? with
    | none => .accessDenied
    | some d => if d.lost || 16 ≤ d.queue.length || s.closed d.q then .busy else .ok

/-- An admitted call: its slots are IN_CALL, and it joins its draft's queue (R245). -/
def State.admitCall (s : State) (x : Call) : State :=
  let s := (slotsOf x.slots).foldl (fun s i =>
    let y := smGet {} (s.loom x.loom).slots i
    s.setSlot x.loom i { y with st := 1, draft := x.draft, tag := x.tag }) s
  (s.updDraft x.loom x.draft (fun d => { d with queue := d.queue ++ [x] })).count F.STN_LOOM_CNT_ADMIT 1 0 x.loom

/-- Counts a call refused at admission. -/
def State.refuseCall (s : State) (bs : List (BitVec 8)) : State := s.count F.STN_LOOM_CNT_REFUSE 1 0 (s.callFrom bs).loom

/-- A call from a port: admitted or refused in channel order; every BUSY refusal starts the refusal rule of R68. -/
def State.portCall (s : State) (p : Nat) (k : Packet) : State :=
  match s.ctxOf p k.srcN with
  | none => ((s.countDeny (arrQuarter p)).refuseCall k.payload).refuse p k .accessDenied
  | some c =>
    let (v, s) := s.police c k.cost
    let r := portReq c p k .call [] (v == .mark)
    let ch := r.chan
    let st := s.callCheck (some c) k.payload
    let full := 256 ≤ s.chanCount ch || 4096 ≤ s.portCount ch.eng
    if v = .drop then ((s.refuseCall k.payload).admitReq r true).settle
    else if st = .accessDenied then ((s.refuseCall k.payload).addReq { r with fixed := some .accessDenied }).settle
    else if s.refusing ch || full || st = .busy then ((s.refuseCall k.payload).admitReq r false (st == .busy)).settle
    else if s.ord.reqs.any (fun y => y.chan == ch && y.tag == r.tag) then ((s.refuseCall k.payload).admitReq r false).settle
    else ((s.admitCall (s.callFrom k.payload)).admitReq { r with fixed := some .ok } false).settle

/-- A chained call that travels through the hub without a port: its sender is the loom of the chain, or for any other packet the loom whose EP is its
source (R245, R248). -/
def State.localCall (s : State) (k : Packet) : State :=
  let chain := s.lm.chains.find? (fun x => match x.sent with
      | some q => q.tag == k.tag && q.ch == k.ch && q.src == k.src && q.dst == k.dst
      | none => false)
  let own := match chain with
    | some x => some x.call.loom
    | none => (List.range 64).find? (fun n => s.loomLive n && s.loomEp n == k.srcN)
  let st := s.callCheck (own.map s.loomCtx) k.payload
  let s := if st = .ok then s.admitCall (s.callFrom k.payload) else s.refuseCall k.payload
  match chain with
  | some x => if st = .ok then s.setLm { s.lm with chains := s.lm.chains.erase x } else s.chainFails x st
  | none => s

/-- CALL (R245). -/
def execCall (p : Arr) (k : Packet) (s : State) : Res :=
  .next (s.onArrival p.val 0x08 k (fun s => if p.val = 15 then s.localCall k else s.portCall p.val k))

/-- The local copy of an MCALL: admission counts it at once (R297, R245). -/
def State.mcallHere (p : Nat) (k : Packet) (s : State) (r : Report) : Report × State :=
  match s.ctxOf p k.srcN with
  | none => ({ r with refused := r.refused + 1 }, s.countDeny (arrQuarter p))
  | some c =>
    if s.callCheck (some c) k.payload = .ok then ({ r with delivered := r.delivered + 1 }, s.admitCall (s.callFrom k.payload))
    else ({ r with refused := r.refused + 1 }, s.refuseCall k.payload)

/-- MCALL (R296, R297). -/
def execMcall (p : Port) (k : Packet) (s : State) : Res :=
  .next (s.onArrival p.val 0x61 k (fun s => s.multicast p.val k (State.mcallHere p.val k)))

/-- CALL_START (R246): the draft's first queued call starts in every station whose entry pc is not 0xFFFF. -/
def execCallStart (n : Loom) (d : Fin 16) (s : State) : Res :=
  .next (let n := n.val
    let d := d.val
    let l := s.loom n
    match l.drafts[d]? with
    | none => s
    | some x =>
      match x.queue with
      | [] => s
      | c :: rest =>
        if (s.loomState n = 2 ∨ s.loomState n = 5) ∧ x.run.isNone ∧ !x.lost ∧ !l.resetting then
          let es := l.stns.filter (fun e => e.draft == d && e.pcs.getD c.pcsel 0 != 65535 && s.siteState e.site == 3)
          let c : Call := { c with start := s.now, wait := es.map (·.site) }
          let s := s.ungate x.q
          let s := (s.updDraft n d (fun x => { x with run := some c, queue := rest })).setRun n d true
          let s := es.foldl (fun s e => s.updStn e.site (fun t =>
            { t with entry := c.entry, arg := BitVec.ofNat 64 c.arg, pc := e.pcs.getD c.pcsel 0, run := true, blocked := false })) s
          if es.isEmpty then s.endOk n d c else s
        else s)

/-- CHAINED_CALL_SEND (R248): the image is here; it goes as a call packet with word 1 replaced by A. A read that failed, or a packet without
a path, falls back to the completion message. -/
def execChainedCallSend (n : Loom) (s : State) : Res :=
  .next (match s.lm.chains.find? (fun x => x.call.loom == n.val && x.sent.isNone && s.ord.done.any (fun d => d.dest == .chain x.serial)) with
    | none => s
    | some x =>
      match s.ord.done.find? (fun d => d.dest == .chain x.serial) with
      | none => s
      | some d =>
        let s := s.setOrd { s.ord with done := s.ord.done.erase d }
        if d.out.status ≠ .ok then s.chainFails x (if d.out.status = .partialFail then d.out.worst else d.out.status)
        else
          let bs := sliceBytes d.data 0 8 ++ toBytes 8 x.a ++ sliceBytes d.data 16 48
          let w0 := wordAt bs 0
          let k : Packet := { dst := BitVec.ofNat 20 x.call.repEp, src := BitVec.ofNat 20 (s.loomEp n.val), typ := 0x08, vc := 4, inl := 1
                              tag := BitVec.ofNat 16 w0, ch := BitVec.ofNat 3 (bits w0 16 3), len := 64, last := true, payload := bs }
          let y : Chain := { x with sent := some k, port := match s.verdict s.epoch k.dstN with | .port p => some p | _ => none }
          let s := s.setLm { s.lm with chains := s.lm.chains.map (fun z => if z = x then y else z) }
          let (v, s) := s.originate (some (s.loomCtx n.val)) k
          match v with
          | .port _ => s
          | .here => s
          | _ => s.chainFails y .noRoute)

end Sys2Proof.Machine
end

