-- ==== Sys2Proof/Machine/Movers.lean ====
section
/-!
DEFINITION. Commands of the mover channels (R91 to R96).
-/
namespace Sys2Proof.Machine
open Sys2Proof

/-- MOV_CH_CTX_WRITE (R92): DONE counts from the bind. -/
def execMovChCtxWrite (w : Writer) (q : Quarter) (k : Fin 16) (v : BitVec 64) (s : State) : Res :=
  .next (s.regWrite w .MOV_CH_CTX q.val (fun s =>
    if s.movState q.val k.val ≠ 0 then s.respond .accessDenied
    else if F.MOV_CH_CTX_V.of v.toNat = 1 ∧ !s.ctxV (F.MOV_CH_CTX_CTX.of v.toNat) then s.respond .accessDenied
    else (s.setFld F.MOV_CH_STAT_DONE 0 q.val k.val).plainWrite .MOV_CH_CTX q.val k.val 0 v.toNat))

/-- MOV_CH_START (R92). -/
def execMovChStart (w : Writer) (q : Quarter) (k : Fin 16) (h : BitVec 64) (s : State) : Res :=
  .next (s.regWrite w .MOV_CH_START q.val (fun s =>
    if s.movState q.val k.val ≠ 0 then s.respond .busy
    else if !s.flag F.MOV_CH_CTX_V q.val k.val || !h.toNat.testBit 63 || h.toNat % 64 ≠ 0 then s.respond .accessDenied
    else
      let m := s.mover q.val k.val
      let s := (s.setMover q.val k.val { m with next := h.toNat, failing := none, retry := false, stopping := false }).setFld F.MOV_CH_STAT_STATE 1 q.val k.val
      s.settle.respond .ok))

/-- The completed request of a destination, taken out of those that wait. -/
def State.takeDone (s : State) (p : Dest → Bool) : Option (Done × State) :=
  match s.ord.done.find? (fun d => p d.dest) with
  | some d => some (d, s.setOrd { s.ord with done := s.ord.done.erase d })
  | none => none

/-- Notes the first failure of a chain (R95). -/
def Mover.fails (m : Mover) (h : Nat) (st : Status) (wbf : Bool) (tag : Nat) : Mover :=
  if m.failing.isSome then m else { m with failing := some (h, st, wbf, tag) }

/-- DESCRIPTOR_FETCH (R93 to R95): the fetched descriptor is checked and starts, once the last piece of the one before it has
started. A fetch that failed halts the channel with WBF; no descriptor was read, so LAST_TAG takes the number of the fetch's own request (DESIGN
CHOICE, log 138). After a RETRY the chain goes on behind the last started descriptor. -/
def execDescriptorFetch (q : Quarter) (k : Fin 16) (s : State) : Res :=
  let q := q.val
  let k := k.val
  .next (
    let m := s.mover q k
    match m.fetching with
    | none => s
    | some h =>
      if m.stopping || m.failing.isSome || s.moverFailed q k then
        match s.takeDone (fun d => d == .descr q k) with
        | some (_, s) => (s.setMover q k { m with fetching := none }).settle
        | none => s
      else if !s.lastStarted q k || 4 ≤ m.descs.length then s
      else match s.takeDone (fun d => d == .descr q k) with
        | none => s
        | some (d, s) =>
          if d.out.status ≠ .ok then
            (s.setMover q k ({ m with fetching := none }.fails h d.out.status true d.out.tag)).settle
          else
            let w := (List.range 8).map (fun i => wordAt d.data (8 * i))
            let ok := descOk w (s.flag F.SEC_STAT_CONF)
            let x : Desc := { serial := m.serial, handle := h, words := w, denied := !ok, issued := 0, finished := 0, failed := [],
                              worst := if ok then .ok else .accessDenied }
            let m := { m with fetching := none, serial := m.serial + 1, descs := m.descs ++ [x],
                              next := if m.retry then m.next else x.next, retry := false }
            ((s.setMover q k m).setReg .MOV_CH_CUR h q k).settle)

/-- DESCRIPTOR_COMPLETE (R94, R95): the outcome write of a descriptor has completed; DONE counts it, INT raises the completion
source, and a descriptor or write that failed halts the channel. -/
def execDescriptorComplete (q : Quarter) (k : Fin 16) (s : State) : Res :=
  let q := q.val
  let k := k.val
  .next (match s.takeDone (fun d => match d with | .outcome a b _ => a == q && b == k | _ => false) with
    | none => s
    | some (d, s) =>
      let m := s.mover q k
      match d.dest, m.descs with
      | .outcome _ _ n, _ =>
        match m.descs.find? (fun x => x.serial == n) with
        | none => s
        | some x =>
          let o := x.outcome
          let m := { m with descs := m.descs.filter (fun y => y.serial ≠ n) }
          let m := if d.out.status ≠ .ok then m.fails x.handle d.out.status true x.tag
            else if o.status ≠ .ok then m.fails x.handle o.status false x.tag else m
          let s := s.setMover q k m
          let s := if d.out.status = .ok then
              let s := (s.bump F.MOV_CH_STAT_DONE 1 q k).setFld F.MOV_CH_STAT_WBF 0 q k
              let s := (s.setFld F.MOV_CH_STAT_LAST_STATUS o.status.code q k).setFld F.MOV_CH_STAT_LAST_TAG x.tag q k
              if x.int then s.raise (0x040 + 0x40 * q + 10) else s
            else s
          s.settle
      | _, _ => s)

/-- MOVER_RESUME (R95): a halted chain goes on with the first descriptor that had not started. -/
def execMoverResume (w : Writer) (q : Quarter) (k : Fin 16) (s : State) : Res :=
  .next (s.regWrite w .MOV_CH_CMD q.val (fun s =>
    if s.movState q.val k.val = 3 then ((s.setFld F.MOV_CH_STAT_STATE 1 q.val k.val).settle).respond .ok else s.respond .accessDenied))

/-- MOVER_RETRY (R95): the descriptor at CUR runs again from its first byte, then the chain goes on. -/
def execMoverRetry (w : Writer) (q : Quarter) (k : Fin 16) (s : State) : Res :=
  .next (s.regWrite w .MOV_CH_CMD q.val (fun s =>
    if s.movState q.val k.val = 3 then
      let m := s.mover q.val k.val
      -- a fetch that failed had not started its descriptor: the chain goes on from what that descriptor names
      let again := s.flag F.MOV_CH_STAT_WBF q.val k.val && s.regVal .MOV_CH_CUR q.val k.val == m.next
      let s := s.setMover q.val k.val { m with retry := !again }
      ((s.setFld F.MOV_CH_STAT_STATE 1 q.val k.val).settle).respond .ok
    else s.respond .accessDenied))

/-- MOVER_STOP (R95). -/
def execMoverStop (w : Writer) (q : Quarter) (k : Fin 16) (s : State) : Res :=
  .next (s.regWrite w .MOV_CH_CMD q.val (fun s =>
    let st := s.movState q.val k.val
    if st = 1 ∨ st = 2 ∨ st = 3 then
      let m := s.mover q.val k.val
      let s := s.setMover q.val k.val { m with next := 0, retry := false, stopping := true, stopAt := some s.now }
      (s.setFld F.MOV_CH_STAT_STATE 4 q.val k.val).respond .ok
    else s.respond .accessDenied))

/-- MOVER_STOP_END (R95, R92): a stopping channel whose started work has ended is idle. -/
def execMoverStopEnd (q : Quarter) (k : Fin 16) (s : State) : Res :=
  .next (let m := s.mover q.val k.val
    if s.movState q.val k.val = 4 ∧ !s.moverBusy q.val k.val then
      let s := (s.setMover q.val k.val { m with stopping := false, failing := none, clearV := false }).setFld F.MOV_CH_STAT_STATE 0 q.val k.val
      if m.clearV then s.setFld F.MOV_CH_CTX_V 0 q.val k.val else s
    else s)

end Sys2Proof.Machine
end

