-- ==== Sys2Proof/Machine/Thrumlink.lean ====
section
/-!
DEFINITION. Commands of the Thrumlink host messages and the event ring (R315 to R319).
-/
namespace Sys2Proof.Machine
open Sys2Proof

/-- The oldest waiting message leaves while fewer than 1,024 are unacknowledged (R316, R317). -/
def State.sendMsg (s : State) : State :=
  match s.tl.held, s.streamPort with
  | m :: rest, some p =>
    if s.tl.unack.length < 1024 then
      let tag := s.tl.nextTag % 65536
      let s := s.setTl { s.tl with held := rest, unack := s.tl.unack ++ [(tag, m)], nextTag := s.tl.nextTag + 1, active := p - 12 }
      s.enqueue p (504 + 6) (m.packet tag)
    else s
  | _, _ => s

/-- HOST_MESSAGE_SEND (R316, R317): a waiting message first wakes a device in deep idle (Table 12-6). -/
def execHostMessageSend (s : State) : Res :=
  .next (if s.tl.held.isEmpty then s else (if s.power.deep = 0 then s else s.wakeDevice).sendMsg)

/-! ### Producer registers (R316) -/

/-- Marks the `n`-th record that is not acknowledged yet. -/
def ackNth : List (Bool × Nat) → Nat → List (Bool × Nat)
  | [], _ => []
  | (true, x) :: rest, n => (true, x) :: ackNth rest n
  | (false, x) :: rest, 0 => (true, x) :: rest
  | (false, x) :: rest, n + 1 => (false, x) :: ackNth rest n

/-- The leading acknowledged records, and the others. -/
def ackedPrefix : List (Bool × Nat) → List Nat × List (Bool × Nat)
  | (true, x) :: rest => let r := ackedPrefix rest; (x :: r.1, r.2)
  | l => ([], l)

/-- A record counted in its producer register raises its source when the ring's interrupt is enabled (Table 14-1). -/
def State.counted (s : State) (r : RingId) (src : Nat) : State :=
  match r with
  | .fault => let s := s.bump F.XLT_FLT_PROD_PROD; if s.flag F.XLT_CTL_FLT_INT then s.raise (0x040 + 0x40 * bits src 10 2) else s
  | .plist => let s := s.bump F.COH_PLIST_PROD_PROD; if s.flag F.COH_CTL_PLIST_INT then s.raise (0x043 + 0x40 * src) else s
  | .placement => s.bump F.STK_PLC_PROD_PROD
  | .event => let s := s.bump F.TL_EVT_PROD_PROD 1 12; if s.flag F.TL_CTL_EVT_INT 12 then s.raise 0x1C0 else s

/-- Records of a ring sent and not counted. -/
def Tl.outOf (t : Tl) : RingId → List (Bool × Nat)
  | .fault => t.outFault
  | .plist => t.outPlist
  | .placement => t.outPlc
  | .event => t.outEvt

def Tl.setOut (t : Tl) (r : RingId) (l : List (Bool × Nat)) : Tl :=
  match r with
  | .fault => { t with outFault := l }
  | .plist => { t with outPlist := l }
  | .placement => { t with outPlc := l }
  | .event => { t with outEvt := l }

/-- The `n`-th unacknowledged record of ring `r` has been acknowledged: the producer register counts the leading ones (R316). -/
def State.ringAck (s : State) (r : RingId) (n : Nat) : State :=
  let (c, l) := ackedPrefix (ackNth (s.tl.outOf r) n)
  c.foldl (fun s x => s.counted r x) (s.setTl (s.tl.setOut r l))

/-- A fault record has been acknowledged: its entry, if it still holds the fault, shows it as written (Table 2-16). -/
def State.recordWritten (s : State) (data : List (BitVec 8)) : State :=
  if bits (wordAt data 0) 16 8 = 1 then
    { s with xlt := { s.xlt with faults := s.xlt.faults.map (fun (f : FaultEntry) =>
      if s.fid f.q f.e = bits (wordAt data 24) 0 16 then { f with recorded := true } else f) } }
  else s

def Announce.isRing (a : Announce) (r : RingId) : Bool := match a with | .ring x _ => x == r | _ => false

/-- HWACK (R316): its message is freed, and what it announces may be counted or go on. -/
def execHwack (p : Port) (k : Packet) (s : State) : Res :=
  .next (s.onArrival p.val 0x84 k (fun s =>
    match s.tl.unack.find? (fun m => m.1 == k.tagN) with
    | none => s
    | some (tag, m) =>
      let before := s.tl.unack.takeWhile (fun x => x.1 ≠ tag)
      let s := s.setTl { s.tl with unack := s.tl.unack.erase (tag, m) }
      match m.ann with
      | .ring r _ =>
        (if r = .fault then s.recordWritten m.data else s).ringAck r (before.filter (fun x => x.2.ann.isRing r)).length
      | .mover q d serial => ((s.updDesc q d serial (fun x => { x with finished := x.finished + m.data.length })).count F.MOV_CH_BYTES_BYTES m.data.length q d).settle
      | .group g => s.completeGroup g
      | .bounce id => (s.updSlot id (fun b => { b with acks := b.acks - 1 })).retireSlots
      | _ => s))

/-! ### Host reads (R318) -/

/-- HRDATA (R318): a late answer is discarded. -/
def execHrdata (p : Port) (k : Packet) (s : State) : Res :=
  .next (s.onArrival p.val 0x82 k (fun s =>
    match s.tl.hrds.find? (fun h => h.tag == k.tagN && h.sent.isSome) with
    | none => s
    | some h => s.hostData h (sliceBytes k.payload 0 h.len) (if bits k.w3.toNat 0 4 = 0 then .ok else .poison)))

/-- HRD_TIMEOUT (R318): the read is issued again once; its second failure completes it BUSY. -/
def execHrdTimeout (tag : BitVec 16) (s : State) : Res :=
  .next (match s.tl.hrds.find? (fun h => h.tag == tag.toNat) with
    | none => s
    | some h =>
      if s.now < h.since + s.fld1 F.TL_CTL_HRD_TMO 12 * 10000 then s
      else if h.tries = 0 then s.reissueHrd h
      else (s.count F.TL_CNT_RDFAIL 1 12).hostData h [] .busy)

/-- STREAM_RETURN (R317). -/
def execStreamReturn (s : State) : Res :=
  .next (let b := s.fld F.TL_CTL_PRI 12
    if s.tl.active ≠ b ∧ s.portUp (12 + b) ∧ s.tl.unack.isEmpty then s.setTl { s.tl with active := b } else s)

/-- EVENT_RING_WRITE (R53, R319): the oldest waiting event goes to the event ring. -/
def execEventRingWrite (s : State) : Res :=
  .next (match s.tl.events with
    | [] => s
    | e :: rest =>
      let n := ringSlots (s.fld F.TL_EVT_SIZE_LOG2N 12) 6 20
      let k := s.fld F.TL_EVT_PROD_PROD 12 + s.tl.outEvt.length
      if n = 0 ∨ n ≤ (k + 2 ^ 32 - s.fld F.TL_EVT_CONS_CONS 12) % 2 ^ 32 ∨ !s.msgRoom then s
      else
        let s := s.setTl { s.tl with events := rest, outEvt := s.tl.outEvt ++ [(false, e.src)] }
        s.hostWrite (s.fld F.TL_EVT_BASE_BASE 12 * 4096 + k % n * 64) (wordBytes e.words) (.ring .event e.src))

end Sys2Proof.Machine
end

