-- ==== Sys2Proof/Machine/Translation.lean ====
section
/-!
DEFINITION. Commands of translation: bindings, segments, extents, walks, faults and revokes (R34 to R63).
-/
namespace Sys2Proof.Machine
open Sys2Proof

/-! ### Bindings, segments and extents (R36 to R38, R43) -/

/-- XLT_CTX_BIND_WRITE (R36). -/
def execXltCtxBindWrite (w : Writer) (c : Ctx) (v : BitVec 64) (s : State) : Res :=
  .next (s.regWrite w .XLT_CTX_BIND 0 (fun s =>
    let v := v.toNat
    let cur := s.regVal .XLT_CTX_BIND 0 c.val
    let new := v &&& (RegName.XLT_CTX_BIND.mask accRW)
    let port := F.XLT_CTX_BIND_PORT.of v
    if F.XLT_CTX_BIND_V.of cur = 1 then s.respond (if new = cur then .ok else .accessDenied)
    else if port = 14 then s.respond .accessDenied
    else if F.XLT_CTX_BIND_V.of v = 1 ∧ (s.ctxOf port (F.XLT_CTX_BIND_SRC_EP.of v)).isSome then s.respond .accessDenied
    else s.plainWrite .XLT_CTX_BIND 0 c.val 0 v))

/-- XLT_SEG_ATTR_WRITE (R37, R38, R62): of a valid segment only EXT_INDEX and EXT_COUNT change, and only where it is not REMOTE. -/
def execXltSegAttrWrite (w : Writer) (c : Ctx) (g : Fin 8) (v : BitVec 64) (s : State) : Res :=
  .next (s.regWrite w .XLT_SEG_ATTR 0 (fun s =>
    let v := v.toNat
    let cur := s.segAttr c.val g.val
    if s.flag F.XLT_CTX_GEN_RVK 0 c.val then s.respond .busy
    else if F.XLT_SEG_ATTR_V.of cur = 1 then
      if F.XLT_SEG_ATTR_REMOTE.of cur = 0 ∧ attrNoTable v = attrNoTable cur ∧ s.segSetOk c.val g.val v then
        s.plainWrite .XLT_SEG_ATTR 0 c.val g.val v
      else s.respond .accessDenied
    else if F.XLT_SEG_ATTR_V.of v = 1 then
      if s.segSetOk c.val g.val v && !attrReserved v then s.plainWrite .XLT_SEG_ATTR 0 c.val g.val v else s.respond .accessDenied
    else if F.XLT_SEG_ATTR_PCLASS.of v = 3 then s.respond .accessDenied
    else s.plainWrite .XLT_SEG_ATTR 0 c.val g.val v))

/-- EXT_READ (R43). -/
def execExtRead (w : Writer) (s : State) : Res :=
  .next (s.regWrite w .XLT_EXT_OP 0 (fun s =>
    let e := s.extWords (s.fld F.XLT_EXT_INDEX_INDEX)
    ((s.setReg .XLT_EXT_DATA0 e.1).setReg .XLT_EXT_DATA1 e.2).respond .ok))

/-- EXT_WRITE (R43, R329). -/
def execExtWrite (w : Writer) (s : State) : Res :=
  .next (s.regWrite w .XLT_EXT_OP 0 (fun s =>
    let i := s.fld F.XLT_EXT_INDEX_INDEX
    let e := (s.regVal .XLT_EXT_DATA0, s.regVal .XLT_EXT_DATA1)
    if s.extWriteOk e then
      let ext := smSet 0 (smSet 0 s.pool.ext (2 * i) (BitVec.ofNat 64 e.1)) (2 * i + 1) (BitVec.ofNat 64 e.2)
      (s.setPool { s.pool with ext := ext }).respond .ok
    else s.respond .accessDenied))

/-! ### Walks (R48 to R50) -/

/-- The entries that cover pages of a block in the table in force (R48). -/
def State.walkEnts (s : State) (c g block : Nat) : List (Nat × Nat) :=
  let a := s.segAttr c g
  if F.XLT_SEG_ATTR_V.of a = 1 ∧ F.XLT_SEG_ATTR_REMOTE.of a = 0 then
    ((List.range 16).filterMap (fun i =>
      s.extentAt (F.XLT_SEG_ATTR_EXT_INDEX.of a) (F.XLT_SEG_ATTR_EXT_COUNT.of a) (block * 16 + i))).eraseDups
  else []

/-- A walk serves a miss of the same quarter, context, segment and 16-page block (R48). -/
def Walk.serves (x : Walk) (m : Miss) : Bool := x.q == m.q && x.ctx == m.ctx && x.seg == m.seg && x.block == m.page / 16

/-- The lines of four entries that a bisection of lines `lo` to `hi` of the table at entry `first` reads, by their first entries (R48). -/
def State.probesIn (s : State) (first page : Nat) : Nat → Nat → Nat → List Nat
  | 0, lo, _ => [first + 4 * lo]
  | n + 1, lo, hi =>
    if hi ≤ lo + 1 then [first + 4 * lo]
    else
      let mid := (lo + hi) / 2
      (first + 4 * mid) :: (if extPage (s.extWords (first + 4 * mid)) ≤ page then s.probesIn first page n mid hi else s.probesIn first page n lo mid)

/-- The probes of a walk for a page (R48). -/
def State.walkProbes (s : State) (c g page : Nat) : List Nat :=
  let a := s.segAttr c g
  let n := F.XLT_SEG_ATTR_EXT_COUNT.of a
  if F.XLT_SEG_ATTR_V.of a = 1 ∧ F.XLT_SEG_ATTR_REMOTE.of a = 0 ∧ n ≠ 0 then
    s.probesIn (F.XLT_SEG_ATTR_EXT_INDEX.of a) page 16 0 ((n + 3) / 4)
  else []

/-- WALK_START (R48): the first miss that no walk serves takes a free walker, which reads the lines of its bisection one after the other; misses on its
block join it. -/
def execWalkStart (q : Quarter) (s : State) : Res :=
  let ws := s.xlt.walks.filter (fun x => x.q == q.val)
  .next (match s.xlt.missQ.find? (fun m => m.q == q.val && !m.fault && !s.xlt.walks.any (fun x => x.serves m)) with
    | none => s
    | some m =>
      match (List.range 32).find? (fun n => !ws.any (fun x => x.walker == n)) with
      | none => s
      | some n =>
        let x : Walk := { q := q.val, walker := n, ctx := m.ctx, seg := m.seg, block := m.page / 16, gen := s.gen m.ctx,
                          ents := s.walkEnts m.ctx m.seg (m.page / 16), probes := s.walkProbes m.ctx m.seg m.page }
        ({ s with xlt := { s.xlt with walks := s.xlt.walks ++ [x] } } : State).sendProbe x)

/-- A fault takes place for a miss: it joins the entry of its page, or takes a free one and stamps its record, or waits in the miss
queue for one (R51 to R53). -/
def State.fault (s : State) (m : Miss) : State :=
  match s.req m.req with
  | none => s
  | some r =>
    let drop (s : State) : State := { s with xlt := { s.xlt with missQ := s.xlt.missQ.filter (· ≠ m) } }
    match s.xlt.faults.find? (fun f => f.q == m.q && f.ctx == m.ctx && f.seg == m.seg && f.page == m.page) with
    | some f =>
      let s := drop s
      let f' := { f with waiters := f.waiters ++ [(m.req, m.piece)], joined := f.joined + 1 }
      let s := { s with xlt := { s.xlt with faults := s.xlt.faults.map (fun g => if g = f then f' else g) } }
      s.updPiece m.req m.piece (fun p => { p with state := .held f.q f.e })
    | none =>
      match (List.range 128).find? (fun e => !s.xlt.faults.any (fun f => f.q == m.q && f.e == e)) with
      | none =>
        { s with xlt := { s.xlt with missQ := s.xlt.missQ.map (fun x => if x = m then { m with fault := true } else x) } }
      | some e =>
        let s := drop s
        let port := match r.chan.eng with | .port p => p | _ => 15
        -- engines without an order channel of their own name channel 0 (Table 2-4)
        let ch := if r.chan.ch < 8 then r.chan.ch else 0
        let f : FaultEntry := { q := m.q, e := e, ctx := m.ctx, seg := m.seg, page := m.page, kind := r.kind.kind.code, ch := ch,
                                port := port, gen := s.gen m.ctx, waiters := [(m.req, m.piece)], joined := 1, since := s.now,
                                recorded := false }
        let w3 := s.fid m.q e + m.ctx * 2 ^ 16 + m.seg * 2 ^ 28 + r.kind.kind.code * 2 ^ 32 + ch * 2 ^ 35 + port * 2 ^ 38
        let words := s.eventWords (srcXlt m.q) 0x01 [w3, m.page, s.gen m.ctx]
        let s := s.nextSeq (srcXlt m.q)
        let s := { s with xlt := { s.xlt with
          faults := s.xlt.faults ++ [f]
          recQ := s.xlt.recQ ++ [(⟨m.q, some (m.q, e), 0, words⟩ : LogRec)] } }
        s.updPiece m.req m.piece (fun p => { p with state := .held m.q e })

/-- What a finished walk does for one of its misses: fill and retry, or fault; an access a revoke has queued only waits (R50). -/
def State.walkMiss (s : State) (x : Walk) (bad : Bool) (m : Miss) : State :=
  let drop (s : State) : State := { s with xlt := { s.xlt with missQ := s.xlt.missQ.filter (· ≠ m) } }
  let rvk := ((s.piece m.req m.piece).map (·.rvk)).getD false
  -- a hint skips a page with no frame and never faults (Table 8-11)
  let hint := (s.req m.req).any (fun r => r.kind == .hint)
  let miss (s : State) : State :=
    if hint then (drop s).updPiece m.req m.piece (fun p => { p with state := .done, begun := true })
    else (s.updPiece m.req m.piece (fun p => { p with heldAt := s.now })).fault m
  if rvk then (drop s).updPiece m.req m.piece (fun p => { p with state := .waiting })
  else if bad then (drop s).updPiece m.req m.piece (fun p => p.fail .poison)
  else
    match x.ents.find? (fun e => extPage e ≤ m.page && m.page < extPage e + extLen e) with
    | some e =>
      if extNP e then miss s
      else
        let run : TlbEntry := ⟨m.ctx, m.seg, extPage e, extLen e, extFramePg e, extFrameStk e, extSpread e, bits (s.segAttr m.ctx m.seg) 1 4, x.gen⟩
        let mask := (List.range 16).foldl (fun a i =>
          if extPage e ≤ x.block * 16 + i ∧ x.block * 16 + i < extPage e + extLen e then a + 2 ^ i else a) 0
        let s := s.l2Fill x.q ⟨x.block, mask, run⟩
        let s := match (s.req m.req).map (·.chan.eng) with
          | some eng => s.tlbFill eng run
          | none => s
        (drop s).updPiece m.req m.piece (fun p => { p with state := .waiting })
    | none => miss s

/-- WALK_END (R50, R51, R52, R329): the walk of walker `n` ends; `bad` says which copies of a line it read failed; it fails where all three did
(R152, Table 6-8). It ends once its probes are served (R121). A walk that saw the generation change restarts in place. -/
def execWalkEnd (q : Quarter) (n : Fin 32) (bad : CopyErr) (s : State) : Res :=
  let bad := bad.c0 && bad.c1 && bad.c2
  .next (match s.xlt.walks.find? (fun x => x.q == q.val && x.walker == n.val) with
    | none => s
    | some x =>
      if !x.probes.isEmpty then s
      else if s.gen x.ctx ≠ x.gen then
        let y := { x with gen := s.gen x.ctx, ents := s.walkEnts x.ctx x.seg x.block, probes := s.walkProbes x.ctx x.seg (x.block * 16) }
        ({ s with xlt := { s.xlt with walks := s.xlt.walks.map (fun z => if z = x then y else z) } } : State).sendProbe y
      else
        let s := { s with xlt := { s.xlt with walks := s.xlt.walks.filter (· ≠ x) } }
        let ms := s.xlt.missQ.filter (fun m => x.serves m && !m.fault)
        (ms.foldl (fun s m => s.walkMiss x bad m) s).settle)

/-! ### Faults (R51 to R56) -/

/-- FAULT_ENTRY_ALLOCATE (R53). -/
def execFaultEntryAllocate (q : Quarter) (s : State) : Res :=
  .next (match s.xlt.missQ.find? (fun m => m.q == q.val && m.fault) with
    | none => s
    | some m => (s.fault m).settle)

/-- FAULT_RECORD_WRITE (R52, R53, R316): the oldest waiting record of the quarter leaves, with the accesses that have joined its entry by now,
or had when it freed. -/
def execFaultRecordWrite (q : Quarter) (s : State) : Res :=
  .next (match s.xlt.recQ.find? (fun r => r.q == q.val) with
    | none => s
    | some r =>
      let n := ringSlots (s.fld F.XLT_FLT_LOG_SIZE_LOG2N) 6 16
      let k := s.fld F.XLT_FLT_PROD_PROD + s.tl.outFault.length
      if s.logFull ∨ !s.msgRoom then s
      else
        let waiters := match r.entry with
          | some (fq, fe) => ((s.xlt.faults.find? (fun f => f.q == fq && f.e == fe)).map (·.joined)).getD r.waiters
          | none => r.waiters
        let words := if bits (r.words.getD 0 0) 16 8 = 1 then
            setAt r.words 3 (r.words.getD 3 0 + min waiters 65535 * 2 ^ 42) else r.words
        let s := { s with xlt := { s.xlt with recQ := s.xlt.recQ.erase r } }
        let s := s.setTl { s.tl with outFault := s.tl.outFault ++ [(false, srcXlt r.q)] }
        s.hostWrite (s.fld F.XLT_FLT_LOG_BASE_BASE * 4096 + k % n * 64) (wordBytes words) (.ring .fault (srcXlt r.q)))

/-- The fault-table entry a fault identifier names, when its serial matches (R54). -/
def State.faultOf (s : State) (fid : Nat) : Option FaultEntry :=
  (s.xlt.faults.find? (fun f => f.q == bits fid 14 2 && f.e == bits fid 7 7)).filter (fun f => s.fid f.q f.e == fid)

/-- `XLT_FLT_RSTAT` after a resume. -/
def State.setRstat (s : State) (fid result waiters : Nat) : State :=
  s.setReg .XLT_FLT_RSTAT (fid + result * 2 ^ 16 + waiters * 2 ^ 18)

/-- RESUME_RETRY (R54): every waiter walks again, in its place; a stale FID changes nothing. -/
def execResumeRetry (w : Writer) (fid : BitVec 16) (s : State) : Res :=
  .next (s.regWrite w .XLT_FLT_RESUME 0 (fun s =>
    match s.faultOf fid.toNat with
    | none => (s.setRstat fid.toNat 1 0).respond .ok
    | some f =>
      let s := f.waiters.foldl (fun s x => s.updPiece x.1 x.2 (fun p => { p with state := .waiting, retried := some s.now })) s
      ((s.setRstat fid.toNat 0 f.waiters.length).dropWaiters.settle).respond .ok))

/-- Fails the waiters of an entry that `p` names, and the requests behind them. -/
def State.failWaiters (s : State) (f : FaultEntry) (p : Piece → Bool) (st : Status) : State :=
  f.waiters.foldl (fun s x => match s.piece x.1 x.2 with
    | some y => if y.state == .held f.q f.e && p y then (s.failChannel x.1 x.2 st).2 else s
    | none => s) s

/-- RESUME_FAIL (R54). -/
def execResumeFail (w : Writer) (fid : BitVec 16) (s : State) : Res :=
  .next (s.regWrite w .XLT_FLT_RESUME 0 (fun s =>
    match s.faultOf fid.toNat with
    | none => (s.setRstat fid.toNat 1 0).respond .ok
    | some f =>
      (((s.setRstat fid.toNat 0 f.waiters.length).failWaiters f (fun _ => true) .accessDenied).dropWaiters.settle).respond .ok))

/-- The time a held access may be held, ns (R55). -/
def State.fltTmo (s : State) : Nat := s.fld1 F.XLT_CTL_FLT_TMO * 10000

/-- An access whose hold has lasted too long (R53, R55). -/
def State.overdue (s : State) (id n : Nat) : Bool :=
  match s.piece id n with
  | some p => decide (p.heldAt + s.fltTmo < s.now)
  | none => false

/-- The waiters of an entry that have been held too long fail with the requests behind them, and so do the accesses of the quarter whose fault
still waits for an entry (R53, R55). -/
def State.timeoutNow (s : State) (q e : Nat) : State :=
  let s := match s.xlt.faults.find? (fun f => f.q == q && f.e == e) with
    | some f => s.failWaiters f (fun p => p.heldAt + s.fltTmo < s.now) .faultTimeout
    | none => s
  let ms := s.xlt.missQ.filter (fun m => m.q == q && m.fault && s.overdue m.req m.piece)
  (ms.foldl (fun s m => match s.piece m.req m.piece with
    | some p => if p.state = .missed then (s.failChannel m.req m.piece .faultTimeout).2 else s
    | none => s) s).dropWaiters

/-- FAULT_TIMEOUT (R55): at the end of the cycle, after a resume of the same cycle (R56). -/
def execFaultTimeout (q : Quarter) (e : Fin 128) (s : State) : Res :=
  .next (if (s.xlt.faults.any (fun f => f.q == q.val && f.e == e.val && f.waiters.any (fun x => s.overdue x.1 x.2))) ||
        s.xlt.missQ.any (fun m => m.q == q.val && m.fault && s.overdue m.req m.piece) then s.decideLate (.timeout q.val e.val) else s)

/-! ### Revokes (R57 to R62) -/

/-- Ends the open batches that `p` names by context and segment (R142). -/
def State.endBatches (s : State) (p : Nat → Nat → Bool) (st : Status) : State :=
  (s.migSlots.filter (fun m => m.2.2.2 ≠ 0 && m.2.2.2 ≠ 3 && p m.2.2.1.ctx m.2.2.1.seg)).foldl (fun s m => s.freeSlot m.1 m.2.1 st) s

/-- A write of `XLT_RVK_CMD` (R57, R60, R142). -/
def State.queueRevoke (s : State) (w : Writer) (c g typ tag : Nat) : State :=
  s.regWrite w .XLT_RVK_CMD 0 (fun s =>
    let new := s.regVal .XLT_RVK_NEW
    if !s.imageOk c g typ new then s.respond .accessDenied
    else if 64 ≤ s.xlt.rvkQ.length then s.respond .busy
    else
      let r : Revoke := { ctx := c, seg := g, typ := typ, first := s.fld F.XLT_RVK_RANGE_FIRST, count := s.fld F.XLT_RVK_RANGE_COUNT,
                          new := new, tag := tag }
      let s := { s with xlt := { s.xlt with rvkQ := s.xlt.rvkQ ++ [r] } }
      ((s.endBatches (fun x _ => x == c) .revoked).rvkStat c).respond .ok)

/-- REVOKE_UNMAP, REVOKE_REMAP, REVOKE_PROTECT, REVOKE_SEGMENT, REVOKE_CONTEXT (R57). -/
def execRevokeUnmap (w : Writer) (c : Ctx) (g : Fin 8) (tag : BitVec 16) (s : State) : Res := .next (s.queueRevoke w c.val g.val 0 tag.toNat)
def execRevokeRemap (w : Writer) (c : Ctx) (g : Fin 8) (tag : BitVec 16) (s : State) : Res := .next (s.queueRevoke w c.val g.val 1 tag.toNat)
def execRevokeProtect (w : Writer) (c : Ctx) (g : Fin 8) (tag : BitVec 16) (s : State) : Res := .next (s.queueRevoke w c.val g.val 2 tag.toNat)
def execRevokeSegment (w : Writer) (c : Ctx) (g : Fin 8) (tag : BitVec 16) (s : State) : Res := .next (s.queueRevoke w c.val g.val 3 tag.toNat)
def execRevokeContext (w : Writer) (c : Ctx) (tag : BitVec 16) (s : State) : Res := .next (s.queueRevoke w c.val 0 4 tag.toNat)

/-- A page of a segment lies in what the revoke covers (Table 2-5, Table 2-6). -/
def Revoke.covers (r : Revoke) (c g page : Nat) : Bool :=
  r.ctx == c &&
    (if r.typ ≤ 1 then r.seg == g && r.first ≤ page && (r.count == 0 || page < r.first + r.count)
     else if r.typ ≤ 3 then r.seg == g
     else true)

/-- A queued access that fails REVOKED (Table 2-6). -/
def Revoke.names (r : Revoke) (c g page : Nat) (k : Kind) : Bool :=
  r.covers c g page && (if r.typ = 1 then false else if r.typ = 2 then !attrAllows r.new k else true)

/-- Ends a revoke: its status, its record and its source (R58 step 5). -/
def State.revokeDone (s : State) (r : Revoke) (st : Status) (n : Nat) : State :=
  let s := (s.setFld F.XLT_RVK_STAT_DONE_TAG r.tag).setFld F.XLT_RVK_STAT_DONE_STATUS st.code
  let words := s.eventWords (srcXlt 0) 0x02 [r.tag + st.code * 2 ^ 16 + r.ctx * 2 ^ 20, min n (2 ^ 32 - 1)]
  let s := s.nextSeq (srcXlt 0)
  let s := { s with xlt := { s.xlt with recQ := s.xlt.recQ ++ [(⟨0, none, 0, words⟩ : LogRec)] } }
  (s.rvkStat r.ctx).raise 0x041

/-- The page a table gives a frame, if any entry's run holds it. -/
def State.tablePage (s : State) (attr frame : Nat) : Option Nat :=
  (List.range (F.XLT_SEG_ATTR_EXT_COUNT.of attr)).findSome? (fun i =>
    let e := s.extWords (F.XLT_SEG_ATTR_EXT_INDEX.of attr + i)
    let d := 2 ^ extSpread e
    let k := keyStack frame
    let p := keyPage frame
    if extV e ∧ extFrameStk e ≤ k ∧ k < extFrameStk e + d ∧ extFramePg e ≤ p then
      let i := (p - extFramePg e) * d + (k - extFrameStk e)
      if i < extLen e then some (extPage e + i) else none
    else none)

/-- A frame that a revoke withdraws, or of which it takes C or W: its cached lines are recalled (R115). An UNMAP or a REMAP
withdraws the frames of the pages that the new table maps elsewhere or no longer maps. -/
def State.withdraws (s : State) (r : Revoke) (frame : Nat) : Bool :=
  r.old.any (fun x =>
    F.XLT_SEG_ATTR_REMOTE.of x.2 == 0 &&
    match s.tablePage x.2 frame with
    | some page => (
        if r.typ ≤ 1 then s.tablePage r.new frame != some page
        else r.typ ≠ 2 || (attrAllows x.2 .own && !attrAllows r.new .own) || (attrAllows x.2 .write && !attrAllows r.new .write))
    | none => false)

/-- The mover channels bound to a context, as quarter and channel. -/
def State.boundMovers (s : State) (c : Nat) : List (Nat × Nat) :=
  ((List.range 64).map (fun n => (n / 16, n % 16))).filter (fun e => s.flag F.MOV_CH_CTX_V e.1 e.2 && s.fld F.MOV_CH_CTX_CTX e.1 e.2 == c)

/-- Stops the mover channels bound to a context, as STOP does; V clears once they are idle, at once where they are (R92). -/
def State.stopMovers (s : State) (c : Nat) : State :=
  (s.boundMovers c).foldl (fun s e =>
    if s.movState e.1 e.2 = 0 then s.setFld F.MOV_CH_CTX_V 0 e.1 e.2
    else (s.setMover e.1 e.2 { s.mover e.1 e.2 with next := 0, retry := false, stopping := true, clearV := true, stopAt := some s.now }).setFld
      F.MOV_CH_STAT_STATE 4 e.1 e.2) s

/-- Regions a revoke makes invalid (R87). -/
def State.killedRegions (s : State) (r : Revoke) : List Nat :=
  s.regionsWhere (fun x =>
    s.rgnCtx x == r.ctx &&
      (r.typ == 4 || (r.typ == 3 && (s.rgnSeg x == r.seg || s.rgnSh x == r.seg)) ||
        (r.typ == 0 && s.rgnSh x == r.seg && (s.region x).heldPages.any (fun p => r.covers r.ctx r.seg p))))

/-- REVOKE_START (R57, R58 steps 1 and 2, R87, R115): the first queued revoke of a context with none running is rechecked and
starts. -/
def execRevokeStart (c : Ctx) (s : State) : Res :=
  .next (if s.xlt.rvkRun.any (fun r => r.ctx == c.val) then s
    else match s.xlt.rvkQ.find? (fun r => r.ctx == c.val) with
      | none => s
      | some r =>
        let s := { s with xlt := { s.xlt with rvkQ := s.xlt.rvkQ.erase r } }
        if !s.imageOk r.ctx r.seg r.typ r.new || (r.typ ≤ 3 && !s.segV r.ctx r.seg) then (s.revokeDone r .accessDenied 0)
        else
          let segs := if r.typ = 4 then List.range 8 else [r.seg]
          let r := { r with old := (segs.filter (fun g => s.segV r.ctx g)).map (fun g => (g, s.segAttr r.ctx g)) }
          let dead := s.killedRegions r
          let s := if r.typ = 4 then (s.idleCtxSlots r.ctx).pumpAll else s
          let s := s.bump F.XLT_CTX_GEN_GEN 1 0 r.ctx
          let s := if r.typ ≤ 2 then s.setReg .XLT_SEG_ATTR r.new 0 r.ctx r.seg
            else if r.typ = 3 then s.setFld F.XLT_SEG_ATTR_V 0 0 r.ctx r.seg
            else ((List.range 8).foldl (fun s g => s.setFld F.XLT_SEG_ATTR_V 0 0 r.ctx g) s).setFld F.XLT_CTX_BIND_V 0 0 r.ctx
          let s := s.invalidate (fun x _ => x == r.ctx)
          let s := dead.foldl State.killRegion s
          let s := s.setOrd { s.ord with reqs := s.ord.reqs.map (fun x =>
            if x.chan.ctx = r.ctx then { x with pieces := x.pieces.map (fun p => if p.unstarted then { p with rvk := true } else p) } else x) }
          let s := if r.typ = 4 then (s.stopMovers r.ctx).resetLooms r.ctx else s
          let s := { s with xlt := { s.xlt with rvkRun := s.xlt.rvkRun ++ [r] } }
          let s := (s.trackedFrames.filter (s.withdraws r)).foldl State.recallFrame s
          s.rvkStat r.ctx)

/-- Accesses of the context that started under an old generation are still in flight. Those of another context that translate through a
region of this one are not waited for (DESIGN CHOICE, log 135). -/
def State.oldInFlight (s : State) (c : Nat) : Bool :=
  s.ord.reqs.any (fun r => r.chan.ctx == c && r.pieces.any (fun p => !p.unstarted && p.state != .done && p.gen != s.gen c))

/-- Whether a running revoke may pass to step 4 (R58, R92, R115). -/
def State.drained (s : State) (r : Revoke) : Bool :=
  !s.oldInFlight r.ctx && !s.trackedFrames.any (s.withdraws r) &&
    (r.typ ≠ 4 || (List.range 64).all (fun n => s.loomState n == 0 || s.loomCtx n != r.ctx))

/-- Recalls lines that accesses of the old generation took after the revoke's own recall (R115). -/
def State.recallRest (s : State) (r : Revoke) : State :=
  ((s.trackedFrames.filter (s.withdraws r)).foldl (fun s f =>
    ((s.coh.dir.filter (fun e => lineFrame e.1 == f && e.2.isSome)).map (·.1)).foldl (fun s l => if (s.txn l).isSome then s else s.recall l) s) s).progress

/-- Step 4 for one queued piece: how many requests it ends, and the state. A waiter that a fault holds on a page outside the revoke stays held
for its resume (DESIGN CHOICE, log 134). -/
def State.revokePiece (s : State) (r : Revoke) (id n : Nat) : Nat × State :=
  match s.req id, s.piece id n with
  | some q, some p =>
    if !p.rvk || !p.unstarted then (0, s)
    else
      let g := if q.kind == .vread || q.kind == .vwrite then s.rgnSeg (vhRegion q.vh) else p.seg
      let page := if q.kind == .vread || q.kind == .vwrite then s.rgnFirst (vhRegion q.vh) + p.page else p.page
      if r.names q.chan.ctx g page q.kind.kind then
        if p.isHeld then (s.updPiece id n (fun p => { p with retried := some s.now })).failChannel id n .revoked
        else (if q.pieces.any (fun x => x.status == .revoked) then 0 else 1,
            s.updPiece id n (fun p => { p.fail .revoked with retried := some s.now }))
      else if p.isHeld && !r.covers q.chan.ctx g page then (0, s.updPiece id n (fun p => { p with rvk := false }))
      else (0, s.updPiece id n (fun p => { p with rvk := false, state := .waiting }))
  | _, _ => (0, s)

/-- Zero-fills a frame: zero lines, no tags, no page state (R330, R328, R161). -/
def State.zeroFrame (s : State) (frame : Nat) : State := (s.dropFold frame).stream frame []

/-- Step 4 of a revoke: what Table 2-6 names ends REVOKED, the rest walks again; folds of withdrawn frames are flushed; the sources of a
migration's own REMAP are zeroed and its slots freed (R58, R141, R160). -/
def State.revokeStep4 (s : State) (r : Revoke) : Nat × State :=
  let items := s.ord.reqs.flatMap (fun x => if x.chan.ctx = r.ctx then (List.range x.pieces.length).map (fun i => (x.id, i)) else [])
  let (n, s) := items.foldl (fun (a : Nat × State) x => let b := a.2.revokePiece r x.1 x.2; (a.1 + b.1, b.2)) (0, s)
  let s := s.dropWaiters
  let fs := s.stks.flatMap (fun e => e.2.folds.map (·.frame))
  let s := (fs.filter (fun f => r.typ ≠ 2 && s.withdraws r f)).foldl (fun s f => s.flushFold f) s
  (n, r.slots.foldl (fun s x =>
    let src := ((s.stk x.1).mig.getD x.2 {}).src
    (s.zeroFrame src).freeSlot x.1 x.2 .ok) s)

/-- Step 5 of a revoke may follow: a CONTEXT revoke waits until the movers of its context are idle (R92). -/
def State.revokeIdle (s : State) (r : Revoke) : Bool := r.typ ≠ 4 || (s.boundMovers r.ctx).isEmpty

/-- REVOKE_DRAIN_END (R58 steps 4 and 5, R92, R141, R160, R330). -/
def execRevokeDrainEnd (c : Ctx) (s : State) : Res :=
  .next (let s := s.settleLooms
    match s.xlt.rvkRun.find? (fun r => r.ctx == c.val) with
    | none => s
    | some r =>
      let drop (s : State) (x : Revoke) : State := { s with xlt := { s.xlt with rvkRun := s.xlt.rvkRun.erase x } }
      match r.ended with
      | some n => if s.revokeIdle r then ((drop s r).revokeDone r .ok n).settle else s
      | none =>
        if !s.drained r then if s.oldInFlight r.ctx then s else s.recallRest r
        else
          let (n, s) := s.revokeStep4 r
          if s.revokeIdle r then ((drop s r).revokeDone r .ok n).settle
          else
            ({ s with xlt := { s.xlt with rvkRun := s.xlt.rvkRun.map (fun x => if x = r then { x with ended := some n } else x) } } : State).settle)

end Sys2Proof.Machine
end

