-- ==== Sys2Proof/Machine/Security.lean ====
section
/-!
DEFINITION. Commands of the SEC block: release, attestation, confidential sessions, management commands, the settings ledger (R328 to R349).
Cryptographic functions are those of Config, of which nothing is assumed.
-/
namespace Sys2Proof.Machine
open Sys2Proof

/-! ### Release (R328, R329) -/

/-- RELEASE_CMD (R328). -/
def execReleaseCmd (w : Writer) (v : BitVec 64) (s : State) : Res :=
  .next (s.regWrite w .SEC_REL_CMD 0 (fun s =>
    let n := F.SEC_REL_CMD_EXT_COUNT.of v.toNat
    if n = 0 ∨ 65536 < n then s.respond .accessDenied
    else if 16 ≤ s.sec.relQ.length then s.respond .busy
    else
      let r : Release := ⟨F.SEC_REL_CMD_EXT_INDEX.of v.toNat, n, F.SEC_REL_CMD_TAG.of v.toNat⟩
      let s := s.setSec { s.sec with relQ := s.sec.relQ ++ [r] }
      (s.setFld F.SEC_REL_STAT_QUEUED s.sec.relQ.length).respond .ok))

/-- Frames that the valid entries of a range name, entries that cannot be read left out (R328). -/
def State.relFrames (s : State) (r : Release) (bad : List Nat) : List Nat :=
  ((List.range r.count).flatMap (fun i =>
    let e := s.extWords (r.first + i)
    if extV e && !bad.contains (r.first + i) then extFrames e else [])).eraseDups

/-- RELEASE_START (R328 step 1): `bad` are the extent entries that cannot be read. -/
def execReleaseStart (bad : List (BitVec 24)) (s : State) : Res :=
  .next (match s.sec.relRun, s.sec.relQ with
    | none, r :: rest =>
      let bad := bad.map (·.toNat)
      let fs := s.relFrames r bad
      let hit := bad.any (fun i => r.first ≤ i && i < r.first + r.count)
      let s := s.setPool { s.pool with release := fs.foldl (fun m f => smSet false m f true) s.pool.release }
      let s := s.setSec { s.sec with relQ := rest, relRun := some ⟨r, fs, hit, s.now⟩ }
      (s.setFld F.SEC_REL_STAT_QUEUED rest.length).setFld F.SEC_REL_STAT_BUSY 1
    | _, _ => s)

/-- When the fill of a release is done: it runs at `SEC_CTL.REL_RATE`, in units of 4 GB/s (R328). -/
def State.relDue (s : State) (r : RelRun) : Nat :=
  r.since + (r.frames.length * 16384 + s.fld1 F.SEC_CTL_REL_RATE - 1) / s.fld1 F.SEC_CTL_REL_RATE

/-- RELEASE_END (R328 steps 2 and 3). -/
def execReleaseEnd (s : State) : Res :=
  .next (match s.sec.relRun with
    | none => s
    | some r =>
      if s.now < s.relDue r then s else
      let s := r.frames.foldl (fun s f => s.zeroFrame f) s
      let s := s.setPool { s.pool with release := r.frames.foldl (fun m f => smSet false m f false) s.pool.release }
      let s := s.setSec { s.sec with relRun := none }
      let st : Status := if r.bad then .poison else .ok
      let s := ((s.setFld F.SEC_REL_STAT_BUSY 0).setFld F.SEC_REL_STAT_DONE_TAG r.rel.tag).setFld F.SEC_REL_STAT_DONE_STATUS st.code
      (s.event srcCaptain 0x30 [r.rel.tag + st.code * 2 ^ 16]).raise 0x1C3)

/-! ### Measurement (R338) -/

/-- Bytes of committed register `m`. -/
def State.mrBytes (s : State) (m : Nat) : List (BitVec 8) := wordBytes ((List.range 8).map (fun w => s.regVal .SEC_MR 0 m w))

def State.setMr (s : State) (m : Nat) (bs : List (BitVec 8)) : State :=
  (List.range 8).foldl (fun s w => s.setReg .SEC_MR (wordAt bs (8 * w)) 0 m w) s

/-- Extends a register by a 64-byte digest, in the working copy during a transition. -/
def State.extend (s : State) (m : Nat) (d : List (BitVec 8)) : State :=
  match s.sec.mrWork with
  | some w => s.setSec { s.sec with mrWork := some (setAt w m (Config.shake (w.getD m [] ++ d) 64)) }
  | none => s.setMr m (Config.shake (s.mrBytes m ++ d) 64)

/-- A transition starts: extensions collect in a working copy. -/
def State.beginTrans (s : State) : State :=
  let s := s.setFld F.SEC_STAT_TRANS 1
  if s.sec.mrWork.isSome then s else s.setSec { s.sec with mrWork := some ((List.range 8).map s.mrBytes) }

/-- A transition ends: the working copy is committed once none is left. -/
def State.endTrans (s : State) : State :=
  if s.sec.fwTrans || s.fld F.GLB_STAT_QRST ≠ 0 then s
  else
    let w := s.sec.mrWork.getD []
    let s := (w.zipIdx).foldl (fun s x => s.setMr x.2 x.1) s
    (s.setSec { s.sec with mrWork := none }).setFld F.SEC_STAT_TRANS 0

/-! ### Attestation (R339 to R342) -/

/-- AK_GENERATE (R339): after start-up, or in the background; one identity leaf is drawn and committed first. -/
def execAkGenerate (s : State) : Res :=
  .next (let leaf := s.fld F.SEC_IDX_ID_IDX
    if !s.flag F.GLB_STAT_READY || 1048576 ≤ leaf then s
    else
      let n := s.sec.akMade
      if s.sec.ak.isNone then
        let s := s.setSec { s.sec with akMade := n + 1, ak := some (n, leaf) }
        ((s.setFld F.SEC_IDX_ID_IDX (leaf + 1)).setFld F.SEC_IDX_AK_IDX 0).setFld F.SEC_STAT_AK_READY 1
      else if s.sec.akNext.isNone ∧ 786432 < s.fld F.SEC_IDX_AK_IDX then
        let s := s.setSec { s.sec with akMade := n + 1, akNext := some (n, leaf) }
        (s.setFld F.SEC_IDX_ID_IDX (leaf + 1)).setFld F.SEC_STAT_AK_NEXT 1
      else s)

/-- An AK leaf has been used; a spent key is replaced by the next one (R339). -/
def State.useLeaf (s : State) : State :=
  let i := s.fld F.SEC_IDX_AK_IDX + 1
  if i < 1048576 then s.setFld F.SEC_IDX_AK_IDX i
  else
    let s := (s.setSec { s.sec with ak := s.sec.akNext, akNext := none }).setFld F.SEC_STAT_AK_NEXT 0
    (s.setFld F.SEC_IDX_AK_IDX (if s.sec.ak.isSome then 0 else i)).setFld F.SEC_STAT_AK_READY (if s.sec.ak.isSome then 1 else 0)

/-- Packets of a response of several packets, by the rule of R282. -/
def respPackets (k : Packet) (typ : Nat) (bs : List (BitVec 8)) : List Packet :=
  let n := (bs.length + 2047) / 2048
  (List.range n).map (fun i =>
    ({ dst := k.src, src := k.dst, typ := BitVec.ofNat 8 typ, vc := 7, tag := k.tag, len := BitVec.ofNat 19 bs.length,
       off := BitVec.ofNat 19 (2048 * i), last := i + 1 = n } : Packet).withPayload (sliceBytes bs (2048 * i) (min 2048 (bs.length - 2048 * i))))

/-- Words 0 to 72 of a quote body (Table 13-8); `ids` are the AK and identity leaves. -/
def State.quoteWords (s : State) (st : Status) (nonce : List Nat) (ids : Nat × Nat) (kex cert : Bool) : List Nat :=
  let b (f : Fld) (i : Nat) : Nat := s.fld f * 2 ^ i
  [st.code + 16 + b F.SEC_STAT_CONF 8 + b F.SEC_STAT_DEBUG_EFF 9 + b F.SEC_STAT_STRICT 10 + b F.SEC_STAT_TRANS 11
     + (if kex then 2 ^ 12 else 0) + (if cert then 2 ^ 13 else 0) + b F.SEC_STAT_QRST 16,
   s.fld F.SEC_VER_UGEN + b F.SEC_VER_FLOOR 32, Config.deviceId.toNat, ids.1 + ids.2 * 2 ^ 32, s.netNow % 2 ^ 64] ++ nonce
  ++ (List.range 8).flatMap (fun m => (List.range 8).map (fun w => s.regVal .SEC_MR 0 m w))

/-- Answers an ATT_REQ with the words that name only its status (R340). -/
def State.shortQuote (s : State) (k : Packet) (st : Status) : State :=
  (respPackets k 0x79 (wordBytes ((s.quoteWords st [] (0, 0) false false).take 2))).foldl (fun s k => (s.originate none k).2) s

/-- ATT_REQ (R340 to R342, R344 step 1). -/
def execAttReq (p : Port) (k : Packet) (s : State) : Res :=
  .next (s.onArrival p.val 0x78 k (fun s =>
    let w4 := wordAt k.payload 32
    let kex := w4.testBit 0
    let t := bits w4 1 1
    let cert := w4.testBit 2
    let nonce := (List.range 4).map (fun i => wordAt k.payload (8 * i))
    if kex ∧ (p.val < 12 ∨ s.fld F.SEC_SESS_STAT_STATE 0 t = 2) then s.shortQuote k .accessDenied
    else match s.sec.ak with
      | none => s.shortQuote k (if 1048576 ≤ s.fld F.SEC_IDX_ID_IDX then .accessDenied else .busy)
      | some (n, leaf) =>
        let st : Status := if s.flag F.SEC_STAT_TRANS then .inTransition else .ok
        let ek := if kex then Config.kemPublic s.sec.keks else []
        let ekh := if kex then (List.range 4).map (fun i => wordAt (Config.shake ek 32) (8 * i)) else [0, 0, 0, 0]
        let ai := s.fld F.SEC_IDX_AK_IDX
        let body := s.quoteWords st nonce (ai, leaf) kex cert ++ ekh ++ [0, 0, 0]
        let pk := Config.akPublic n
        let bs := wordBytes body ++ Config.akSign n ai (wordBytes body) ++ pk ++
          Config.idSign leaf (pk ++ toBytes 8 Config.deviceId.toNat ++ toBytes 4 leaf) ++ ek ++
          (if cert then Config.identity ++ Config.identityCert else [])
        let s := if kex then
            let x : Sess := { ek := some s.sec.keks, nonce := nonce, body := body, ekAt := s.now }
            ((s.setSess t x).setSec { (s.setSess t x).sec with keks := s.sec.keks + 1 }).setFld F.SEC_SESS_STAT_STATE 1 0 t
          else s
        (respPackets k 0x79 bs).foldl (fun s k => (s.originate none k).2) s.useLeaf))

/-! ### Sessions (R344 to R346) -/

/-- Sends a reply out of the port a VC7 command arrived on. -/
def State.mgtReply (s : State) (p : Nat) (k : Packet) (typ : Nat) (st : Status) (payload : List (BitVec 8)) : State :=
  let m : Packet := ({ dst := k.src, src := k.dst, typ := BitVec.ofNat 8 typ, vc := 7, tag := k.tag, epoch := s.epoch, last := true,
                       w3 := BitVec.ofNat 64 st.code } : Packet).withPayload payload
  s.enqueue p (504 + 7) m

/-- A KEX_CT that is refused: a pending session returns to NONE (R344). -/
def State.kexFail (s : State) (p t : Nat) (k : Packet) : State :=
  let s := s.count F.SEC_CNT_KEX_FAIL
  let s := if s.fld F.SEC_SESS_STAT_STATE 0 t = 1 then (s.setSess t {}).setFld F.SEC_SESS_STAT_STATE 0 0 t else s
  s.mgtReply p k 0x7B .accessDenied (wordBytes [Status.accessDenied.code, 0, 0, 0, 0])

/-- KEX_CT (R344 steps 3 to 5). -/
def execKexCt (p : Port) (k : Packet) (s : State) : Res :=
  let p := p.val
  .next (if p < 12 then s else s.onArrival p 0x7A k (fun s =>
    let t := p - 12
    let x := s.sess t
    let nonce := (List.range 4).map (fun i => wordAt k.payload (8 * i))
    let ct := sliceBytes k.payload 32 1568
    match x.ek, s.ctxOf p k.srcN with
    | some n, some c =>
      if s.fld F.SEC_SESS_STAT_STATE 0 t ≠ 1 ∨ x.nonce ≠ nonce ∨ x.ekAt + s.fld1 F.SEC_CTL_KEX_S * 1000000000 ≤ s.now then s.kexFail p t k
      else match Config.kemOpen n ct with
        | none => s.kexFail p t k
        | some ss =>
          let th := Config.shake (wordBytes x.body ++ ct) 32
          let key := Config.shake (ss ++ th) 96
          let confirm := Config.shake (sliceBytes key 64 32 ++ th) 32
          let s := s.setSess t { key := key }
          let s := (s.setFld F.SEC_SESS_STAT_STATE 2 0 t).setFld F.SEC_SESS_STAT_CTX c 0 t
          let s := s.extend 6 (Config.shake (toBytes 8 t ++ th) 64)
          (s.mgtReply p k 0x7B .ok (wordBytes [0] ++ confirm)).pumpSlots 16 t
    | _, _ => s.kexFail p t k))

/-- BOUNCE_TAIL_WRITE (R345): the slots offered are read. -/
def execBounceTailWrite (w : Writer) (t : Fin 2) (v : BitVec 64) (s : State) : Res :=
  .next (s.regWrite w .SEC_BNC_TAIL 0 (fun s => (s.plainWrite .SEC_BNC_TAIL 0 t.val 0 v.toNat).pumpSlots 16 t.val))

/-- A GCM nonce: domain and SEQ, big-endian (R345). -/
def gcmNonce (domain seq : Nat) : List (BitVec 8) := (toBytes 4 domain).reverse ++ (toBytes 8 seq).reverse

def BSlot.aad (b : BSlot) : List (BitVec 8) := wordBytes (b.words.take 6)
def BSlot.out? (b : BSlot) : Bool := (b.words.getD 1 0).testBit 0
def BSlot.ch (b : BSlot) : Nat := bits (b.words.getD 1 0) 1 3
def BSlot.len (b : BSlot) : Nat := (bits (b.words.getD 1 0) 8 10 + 1) * 64
def BSlot.addr (b : BSlot) : Nat := b.words.getD 2 0
def BSlot.baddr (b : BSlot) : Nat := b.words.getD 3 0

/-- The slot has not issued its pool request yet. -/
def BSlot.before (b : BSlot) : Bool := b.stage == .slot || b.stage == .read || b.stage == .data

def Sess.kIn (x : Sess) : List (BitVec 8) := x.key.take 32
def Sess.kOut (x : Sess) : List (BitVec 8) := sliceBytes x.key 32 32

/-- Pool request of a slot on channel (context, port, CH) (R345). -/
def State.bncReq (s : State) (t : Nat) (b : BSlot) (data : List (BitVec 8)) : State :=
  let c := s.fld F.SEC_SESS_STAT_CTX 0 t
  let kind : ReqKind := if b.out? then .read else .write
  let ps := s.plainPieces c b.addr b.len true
  let s := s.updSlot b.id (fun b => { b with stage := .pool })
  ((s.denyPieces 0 ps).admitReq { id := 0, chan := ⟨c, .port (12 + t), b.ch⟩, tag := 65536 + b.id, kind := kind, seg := 0, addr := b.addr, len := b.len,
                                  data := if b.out? then List.replicate b.len 0 else data, have_ := b.len, pieces := ps, dest := .bounce b.id } false).settle

/-- A slot that has been read is checked: its SEQ and tag, its buffer; then its transfer starts (R345). -/
def State.openSlot (s : State) (t : Nat) (b : BSlot) : State :=
  let x := s.sess t
  let tag := wordBytes [b.words.getD 6 0, b.words.getD 7 0]
  if b.words.getD 0 0 ≠ b.seq ∨ (Config.gcmOpen x.kIn (gcmNonce 1 b.seq) b.aad tag).isNone then s.endSess t 2
  else if b.baddr % 64 ≠ 0 ∨ !s.winBoth b.baddr (b.len + 16) ∨ 65536 < b.len then s.updSlot b.id (fun b => b.failAll .accessDenied)
  else if b.out? then s.bncReq t b []
  else
    let n := b.len + 16
    let s := s.updSlot b.id (fun b => { b with stage := .data, data := List.replicate n 0, got := 0 })
    (List.range ((n + 2047) / 2048)).foldl (fun s i => s.startHrd (b.baddr + 2048 * i) (min 2048 (n - 2048 * i)) (.bounce b.id (2048 * i))) s

/-- IN data have all been read: they are written to the pool once their tag verifies (R345, R346). -/
def State.inData (s : State) (t : Nat) (b : BSlot) : State :=
  match Config.gcmOpen (s.sess t).kIn (gcmNonce 2 b.seq) b.aad b.data with
  | none => s.endSess t 3
  | some d => s.bncReq t b (sliceBytes d 0 b.len)

/-- BOUNCE_SLOT (R345): the oldest slot that can go on to its transfer does; SEQ at 2^32 ends the session. -/
def execBounceSlot (t : Fin 2) (s : State) : Res :=
  .next (let x := s.sess t.val
    if s.fld F.SEC_SESS_STAT_STATE 0 t.val ≠ 2 then s
    else if 2 ^ 32 ≤ x.next ∧ x.slots.isEmpty then s.endSess t.val 4
    else
      let free (b : BSlot) : Bool := x.slots.all (fun y => b.seq ≤ y.seq || !y.before || (y.words != [] && y.ch != b.ch))
      match x.slots.find? (fun b => (b.stage == .read || (b.stage == .data && b.len + 16 ≤ b.got)) && free b) with
      | none => s
      | some b => if b.stage = .read then s.openSlot t.val b else s.inData t.val b)

/-- The pool request of a slot has completed: an OUT transfer is encrypted and written to its buffer (R345). -/
def State.poolDone (s : State) (t : Nat) (b : BSlot) (d : Done) : State :=
  let s := s.updSlot b.id (fun b => { b with status := d.out.status, worst := d.out.worst, failed := d.failed })
  if !b.out? then s.updSlot b.id (fun b => { b with stage := .ended })
  else if d.out.status ≠ .ok ∧ d.failed.isEmpty then s.updSlot b.id (fun x => { x with stage := .ended, failed := List.range (b.len / 64) })
  else
    let bs := Config.gcmSeal (s.sess t).kOut (gcmNonce 3 b.seq) b.aad d.data
    let bs := sliceBytes bs 0 (b.len + 16)
    let n := (bs.length + 2047) / 2048
    let s := s.updSlot b.id (fun b => { b with stage := .out, acks := n })
    (List.range n).foldl (fun s i => s.hostWrite (b.baddr + 2048 * i) (sliceBytes bs (2048 * i) (min 2048 (bs.length - 2048 * i))) (.bounce b.id)) s

/-- The completion words 8 to 15 of a slot (Table 13-10). -/
def State.bncCompletion (s : State) (t : Nat) (b : BSlot) : List (BitVec 8) :=
  let mv := b.len ≤ 4096
  let mask := b.failed.foldl (fun m i => m ||| 2 ^ i) 0
  let ws := [b.seq, b.status.code + b.worst.code * 16 + (if mv then 256 else 0), if mv then mask else 0, if mv then 0 else b.failed.headD 0, 0, 0]
  wordBytes ws ++ sliceBytes (Config.gcmSeal (s.sess t).kOut (gcmNonce 4 b.seq) (wordBytes ws) []) 0 16

/-- BOUNCE_SLOT_END (R345): a pool request that completed, an OUT transfer whose writes are acknowledged, or the next completion in SEQ
order goes on. -/
def execBounceSlotEnd (t : Fin 2) (s : State) : Res :=
  .next (let t := t.val
    let x := s.sess t
    let room := s.tl.held.length + 34 ≤ 4096
    if s.fld F.SEC_SESS_STAT_STATE 0 t ≠ 2 then s
    else match x.slots.find? (fun b => b.stage == .pool && s.ord.done.any (fun d => d.dest == .bounce b.id)) with
      | some b => if !room then s
        else match s.takeDone (fun d => d == .bounce b.id) with
          | some (d, s) => s.poolDone t b d
          | none => s
      | none =>
        let s := x.slots.foldl (fun s b => if b.stage = .out ∧ b.acks = 0 then s.updSlot b.id (fun b => { b with stage := .ended }) else s) s
        match (s.sess t).slots.find? (fun b => b.stage != .completion) with
        | some b =>
          if b.stage = .ended ∧ room then
            (s.updSlot b.id (fun b => { b with stage := .completion, acks := 1 })).hostWrite (b.host + 64) (s.bncCompletion t b) (.bounce b.id)
          else s
        | none => s)

/-! ### Management commands (R349, Table 13-14) -/

/-- The payload of a management command, once its last packet is here; the first of two waits (R282). -/
def State.mgtJoin (s : State) (p : Nat) (k : Packet) : Option (List (BitVec 8)) × State :=
  let mine (m : MgtPart) : Bool := m.port == p && m.pkt.src == k.src && m.pkt.tag == k.tag
  if k.last ∧ k.offN = 0 then (some k.payload, s)
  else match s.sec.parts.find? mine with
    | none => (none, if k.offN = 0 then s.setSec { s.sec with parts := s.sec.parts ++ [⟨p, k, k.payload⟩] } else s)
    | some m =>
      let d := m.data ++ k.payload
      let s := s.setSec { s.sec with parts := s.sec.parts.erase m }
      if k.last then (some d, s) else (none, s.setSec { s.sec with parts := s.sec.parts ++ [{ m with data := d }] })

/-- A management command with its payload, answered by MGT_RSP with STATUS. It waits while no firmware runs (Table 13-15). -/
def State.mgt (s : State) (p : Nat) (k : Packet) (f : State → List (BitVec 8) → Status × State) : State :=
  s.onArrival p 0x7C k (fun s =>
    if !s.firmware then s.deliver p k
    else match s.mgtJoin p k with
    | (none, s) => s
    | (some d, s) => let (st, s) := f s d; s.mgtReply p k 0x7D st [])

/-- FW_STAGE (R337): the image inside a window is read and verified; `img` is what its host reads give. -/
def execFwStage (p : Port) (k : Packet) (img : Option (List (BitVec 8))) (s : State) : Res :=
  .next (s.mgt p.val k (fun s d =>
    match img with
    | some b =>
      if s.winOk (wordAt d 0) (wordAt d 8) false && b.length == wordAt d 8 && Config.verifies Config.romKey (Config.fwBody b) (Config.fwSig b) &&
          s.fld F.SEC_VER_FLOOR ≤ Config.fwSecVer b then
        (.ok, s.setSec { s.sec with staged := some b })
      else (.accessDenied, s)
    | none => (.accessDenied, s)))

/-! ### The settings ledger (R347 to R349) -/

/-- Commits a change of a setting: the log record, then the value (R349). -/
def State.ledgerChange (s : State) (x : Setting) (old new : Nat) (digest : List (BitVec 8)) : State :=
  let n := s.fld F.SEC_LEDGER_LSEQ + 1
  let r : LedgerRec := ⟨n, x, old, new, s.evr.opBase + s.now / 1000000000, s.evr.pcyc, digest.take 16⟩
  ((s.setSec { s.sec with log := s.sec.log ++ [r] }).setFld F.SEC_LEDGER_LSEQ n).raise 0x1C4

/-- DEBUG_EFF follows DEBUG and CONF (Table 13-17). -/
def State.debugEff (s : State) : State :=
  s.setFld F.SEC_STAT_DEBUG_EFF (if s.flag F.SEC_DEBUG_DEBUG ∧ !s.flag F.SEC_STAT_CONF then 1 else 0)

/-- A write of `SEC_DEBUG` (R348): enabling needs a held AUTH; an AUTH that meets a spent budget is discarded. -/
def State.writeDebug (s : State) (v : Nat) : State :=
  let new := v % 2
  let old := s.fld F.SEC_DEBUG_DEBUG
  if new = old then s.respond .ok
  else
    let auth := s.sec.auths.find? (fun a => a.setting == .debug && a.value == new)
    let s := s.setSec { s.sec with auths := s.sec.auths.filter (fun a => a.setting != .debug) }
    if s.fld F.SEC_LEDGER_DEBUG_LEFT = 0 ∨ (new = 1 ∧ auth.isNone) then s.respond .accessDenied
    else
      let s := s.setFld F.SEC_LEDGER_DEBUG_LEFT (s.fld F.SEC_LEDGER_DEBUG_LEFT - 1)
      let s := (s.ledgerChange .debug old new ((auth.map (·.digest)).getD [])).setFld F.SEC_DEBUG_DEBUG new
      s.debugEff.respond .ok

/-- A write of `STK_LAYOUT` (R161, R348). -/
def State.writeLayout (s : State) (v : Nat) : State :=
  let new := v &&& RegName.STK_LAYOUT.mask (fun a => a == .rwl)
  let old := s.regVal .STK_LAYOUT
  if new = old then s.respond .ok
  else if s.fld F.SEC_LEDGER_LAYOUT_LEFT = 0 then s.respond .accessDenied
  else
    let s := s.setFld F.SEC_LEDGER_LAYOUT_LEFT (s.fld F.SEC_LEDGER_LAYOUT_LEFT - 1)
    ((s.ledgerChange .layout old new []).setReg .STK_LAYOUT new).respond .ok

/-- Settings by the number an AUTH names them with (log 63). -/
def settingOf : Nat → Option Setting
  | 0 => some .debug
  | 1 => some .layout
  | 2 => some .floor
  | 3 => some .owner
  | 4 => some .retire
  | _ => none

/-- AUTH (R348, R349): bound to DEVICE_ID and LSEQ; DEBUG needs Polertin's key, OWNER the current owner's, if one is set. An OWNER change
is made by its AUTH, the only path it has; others are held for the next change of their setting. -/
def execAuth (p : Port) (k : Packet) (s : State) : Res :=
  .next (s.mgt p.val k (fun s d =>
    let value := sliceBytes d 8 64
    let msg := d.take 88
    let sig := d.drop 88
    match settingOf (wordAt d 0) with
    | none => (.accessDenied, s)
    | some x =>
      if wordAt d 72 ≠ Config.deviceId.toNat ∨ wordAt d 80 ≠ s.fld F.SEC_LEDGER_LSEQ then (.accessDenied, s)
      else if x = .owner then
        let old := s.sec.owner
        if !(old.isEmpty || Config.verifies old msg sig) then (.accessDenied, s)
        else if value = old then (.ok, s)
        else if s.fld F.SEC_LEDGER_OWNER_LEFT = 0 then (.accessDenied, s)
        else
          let s := s.setFld F.SEC_LEDGER_OWNER_LEFT (s.fld F.SEC_LEDGER_OWNER_LEFT - 1)
          (.ok, (s.ledgerChange .owner (ofBytes old) (ofBytes value) old).setSec { (s.ledgerChange .owner (ofBytes old) (ofBytes value) old).sec with owner := value })
      else if Config.verifies Config.romKey msg sig then
        (.ok, s.setSec { s.sec with auths := s.sec.auths.filter (fun a => a.setting != x) ++ [⟨x, ofBytes value, Config.romKey⟩] })
      else (.accessDenied, s)))

/-- EXTEND (R338, Table 13-6). -/
def execExtend (p : Port) (k : Packet) (s : State) : Res :=
  .next (s.mgt p.val k (fun s d => (.ok, s.extend 7 (sliceBytes d 0 64))))

/-- END (R346): the session the command names ends with CAUSE 5. -/
def execEndSession (p : Port) (k : Packet) (s : State) : Res :=
  .next (s.mgt p.val k (fun s d => (.ok, s.endSess (bits (wordAt d 0) 0 1) 5)))

end Sys2Proof.Machine
end

