-- ==== Sys2Proof/Machine/Float.lean ====
section
/-!
DEFINITION. Number formats and their arithmetic: exact values of FP32, BF16 and MX elements, rounding into a format, IEEE 754 binary32
operations, the bounded approximations, and block conversion (R184 to R188, R211 to R213, R228 to R230).
-/
namespace Sys2Proof.Machine
open Sys2Proof

/-- An exact value: NaN, an infinity, or (−1)^neg × m × 2^e; a zero keeps its sign. -/
inductive FVal where
  | nan
  | inf (neg : Bool)
  | fin (neg : Bool) (m : Nat) (e : Int)
  deriving DecidableEq, Repr

/-! ### Formats (Table 7-2) -/

/-- A floating format: exponent and mantissa bits, bias, whether the top exponent is infinity and NaN, whether only the all-ones code is
NaN, and its largest finite magnitude code. -/
structure FFmt where
  eb : Nat
  mb : Nat
  bias : Nat
  ieee : Bool
  nanTop : Bool
  deriving DecidableEq, Repr

def fp32 : FFmt := ⟨8, 23, 127, true, false⟩
def bf16 : FFmt := ⟨8, 7, 127, true, false⟩
def e2m1 : FFmt := ⟨2, 1, 1, false, false⟩
def e2m3 : FFmt := ⟨2, 3, 1, false, false⟩
def e3m2 : FFmt := ⟨3, 2, 3, false, false⟩
def e4m3 : FFmt := ⟨4, 3, 7, false, true⟩
def e5m2 : FFmt := ⟨5, 2, 15, true, false⟩

/-- Bits of a code of the format. -/
def FFmt.bits (f : FFmt) : Nat := 1 + f.eb + f.mb

/-- The exponent of the smallest subnormal. -/
def FFmt.emin (f : FFmt) : Int := 1 - (f.bias : Int) - f.mb

/-- The value of a code (R185, R187). -/
def FFmt.val (f : FFmt) (c : Nat) : FVal :=
  let neg := c.testBit (f.eb + f.mb)
  let e := c / 2 ^ f.mb % 2 ^ f.eb
  let m := c % 2 ^ f.mb
  if f.ieee ∧ e = 2 ^ f.eb - 1 then (if m = 0 then .inf neg else .nan)
  else if f.nanTop ∧ e = 2 ^ f.eb - 1 ∧ m = 2 ^ f.mb - 1 then .nan
  else if e = 0 then .fin neg m f.emin
  else .fin neg (2 ^ f.mb + m) (f.emin + e - 1)

/-- The first magnitude code beyond the finite ones. -/
def FFmt.ovf (f : FFmt) : Nat :=
  if f.ieee then (2 ^ f.eb - 1) * 2 ^ f.mb else if f.nanTop then 2 ^ (f.eb + f.mb) - 1 else 2 ^ (f.eb + f.mb)

/-- The largest finite magnitude code. -/
def FFmt.top (f : FFmt) : Nat := f.ovf - 1

/-! ### Rounding -/

/-- m × 2^(−sh) as an integer, to nearest with ties to even, or toward zero. -/
def roundShift (rz : Bool) (m : Nat) (sh : Int) : Nat :=
  if sh ≤ 0 then m * 2 ^ (-sh).toNat
  else
    let d := 2 ^ sh.toNat
    let q := m / d
    let r := m % d
    if rz then q
    else if d < 2 * r ∨ (2 * r = d ∧ q % 2 = 1) then q + 1 else q

/-- The exponent of the unit in the last place at a magnitude m × 2^e. -/
def FFmt.quantum (f : FFmt) (m : Nat) (e : Int) : Int := max f.emin ((m.log2 : Int) + e - f.mb)

/-- The magnitude code of m × 2^e rounded into the format; a value past the largest gives a code at or above `over`. Subnormals are
kept. -/
def FFmt.mag (f : FFmt) (rz : Bool) (m : Nat) (e : Int) : Nat :=
  if m = 0 then 0
  else
    let q := f.quantum m e
    (q - f.emin).toNat * 2 ^ f.mb + roundShift rz m (q - e)

def signBit (f : FFmt) (neg : Bool) : Nat := if neg then 2 ^ (f.eb + f.mb) else 0

/-- An exact value rounded into a format with IEEE rules: overflow gives infinity to nearest, and toward zero the largest finite value; a
NaN gives the quiet NaN (R187). -/
def FFmt.round (f : FFmt) (rz : Bool) (x : FVal) : Nat :=
  match x with
  | .nan => (2 ^ f.eb - 1) * 2 ^ f.mb + 2 ^ (f.mb - 1)
  | .inf neg => signBit f neg + f.ovf
  | .fin neg m e => signBit f neg + min (if rz then f.top else f.ovf) (f.mag rz m e)

/-! ### Exact arithmetic -/

/-- Signed m × 2^e of a finite value scaled to exponent `e0 ≤ e`. -/
def scaled (neg : Bool) (m : Nat) (e e0 : Int) : Int :=
  let v : Int := (m * 2 ^ (e - e0).toNat : Nat)
  if neg then -v else v

/-- Exact sum. An exact zero is −0 only when both addends are (IEEE 754). -/
def FVal.add (a b : FVal) : FVal :=
  match a, b with
  | .nan, _ => .nan
  | _, .nan => .nan
  | .inf x, .inf y => if x = y then .inf x else .nan
  | .inf x, _ => .inf x
  | _, .inf y => .inf y
  | .fin na ma ea, .fin nb mb eb =>
    let e0 := min ea eb
    let v := scaled na ma ea e0 + scaled nb mb eb e0
    if v = 0 then .fin (na && nb && ma == 0 && mb == 0) 0 e0
    else .fin (v < 0) v.natAbs e0

/-- Exact product. -/
def FVal.mul (a b : FVal) : FVal :=
  match a, b with
  | .nan, _ => .nan
  | _, .nan => .nan
  | .inf x, .inf y => .inf (x != y)
  | .inf x, .fin y m _ => if m = 0 then .nan else .inf (x != y)
  | .fin x m _, .inf y => if m = 0 then .nan else .inf (x != y)
  | .fin x ma ea, .fin y mb eb => .fin (x != y) (ma * mb) (ea + eb)

def FVal.neg : FVal → FVal
  | .nan => .nan
  | .inf x => .inf !x
  | .fin x m e => .fin (!x) m e

/-- Times 2^k. -/
def FVal.shift (a : FVal) (k : Int) : FVal :=
  match a with
  | .fin x m e => .fin x m (e + k)
  | a => a

def FVal.isNan : FVal → Bool
  | .nan => true
  | _ => false

def FVal.isZero : FVal → Bool
  | .fin _ m _ => m == 0
  | _ => false

/-- Order of values that are not NaN; −0 and +0 are equal. -/
def FVal.lt (a b : FVal) : Bool :=
  match a, b with
  | .nan, _ => false
  | _, .nan => false
  | .inf true, .inf true => false
  | .inf true, _ => true
  | .inf false, _ => false
  | .fin .., .inf y => !y
  | .fin na ma ea, .fin nb mb eb => let e0 := min ea eb; decide (scaled na ma ea e0 < scaled nb mb eb e0)

def FVal.eq (a b : FVal) : Bool :=
  match a, b with
  | .nan, _ => false
  | _, .nan => false
  | .inf x, .inf y => x == y
  | .fin na ma ea, .fin nb mb eb => let e0 := min ea eb; scaled na ma ea e0 == scaled nb mb eb e0
  | _, _ => false

/-! ### The vector unit's binary32 (R188) -/

/-- The value of a lane. -/
def f32 (x : BitVec 32) : FVal := fp32.val x.toNat

/-- A NaN result from operands: quiet, its sign and payload left open by the spec (log 64). -/
def nanOf (a b c : BitVec 32) : BitVec 32 := 0x7FC00000#32 ||| (Config.nanBits a b c &&& 0x803FFFFF#32)

/-- A value rounded to binary32; a NaN is one of the operands' making. -/
def toF32 (v : FVal) (a b c : BitVec 32) : BitVec 32 := if v.isNan then nanOf a b c else BitVec.ofNat 32 (fp32.round false v)

def fAdd (a b : BitVec 32) : BitVec 32 := toF32 ((f32 a).add (f32 b)) a b 0
def fSub (a b : BitVec 32) : BitVec 32 := toF32 ((f32 a).add (f32 b).neg) a b 0
def fMul (a b : BitVec 32) : BitVec 32 := toF32 ((f32 a).mul (f32 b)) a b 0
/-- a × b + c, rounded once. -/
def fFma (a b c : BitVec 32) : BitVec 32 := toF32 (((f32 a).mul (f32 b)).add (f32 c)) a b c

/-- IEEE maximum and minimum: a NaN propagates; +0 > −0 (Table 8-6). -/
def fMax (a b : BitVec 32) : BitVec 32 :=
  let x := f32 a
  let y := f32 b
  if x.isNan || y.isNan then nanOf a b 0
  else if x.lt y then b else if y.lt x then a else if x.isZero then a &&& b else a

def fMin (a b : BitVec 32) : BitVec 32 :=
  let x := f32 a
  let y := f32 b
  if x.isNan || y.isNan then nanOf a b 0
  else if x.lt y then a else if y.lt x then b else if x.isZero then a ||| b else a

/-! ### Approximations: an exact value known to 2^(−100), and the choice among the results its bound allows (R188, R230; log 65) -/

/-- Chooses a magnitude code within `k` ulp of num ÷ den × 2^e, `n` being the magnitude code at or below it: n − k + 1 to n + k. -/
def pickNear (op : Nat) (a : BitVec 32) (k num den : Nat) (e : Int) : Nat :=
  -- the quotient to more than 100 bits
  let x := num * 2 ^ 128 / den
  let n := fp32.mag true x (e - 128)
  let lo := n + 1 - k
  min fp32.ovf (lo + (Config.approx op a).toNat % (2 * k))

/-- Reciprocal within 1 ulp. -/
def fRcp (a : BitVec 32) : BitVec 32 :=
  match f32 a with
  | .nan => nanOf a 0 0
  | .inf s => BitVec.ofNat 32 (signBit fp32 s)
  | .fin s m e =>
    if m = 0 then BitVec.ofNat 32 (signBit fp32 s + fp32.ovf)
    else BitVec.ofNat 32 (signBit fp32 s + pickNear 0 a 1 1 m (-e))

/-- Floor of the square root of a number below 4^n. -/
def isqrt : Nat → Nat → Nat → Nat
  | 0, _, r => r
  | n + 1, x, r => let t := r + 2 ^ n; isqrt n x (if t * t ≤ x then t else r)

/-- Reciprocal square root within 1 ulp. -/
def fRsqrt (a : BitVec 32) : BitVec 32 :=
  match f32 a with
  | .nan => nanOf a 0 0
  | .inf s => if s then nanOf a 0 0 else 0
  | .fin s m e =>
    if m = 0 then BitVec.ofNat 32 (signBit fp32 s + fp32.ovf)
    else if s then nanOf a 0 0
    else
      -- 1 / sqrt(m 2^e) with e made even: 2^(256) / m under the root
      let m' := if e % 2 = 0 then m else 2 * m
      let e' := if e % 2 = 0 then e else e - 1
      BitVec.ofNat 32 (pickNear 1 a 1 (isqrt 160 (2 ^ 300 / m') 0) 1 (-(e' / 2) - 150))

/-- 2^(f ÷ 2^100) × 2^128 for f < 2^100: the product of the square-root chain of 2 over the bits of f. -/
def exp2Frac : Nat → Nat → Nat → Nat → Nat
  | 0, _, _, acc => acc
  | n + 1, f, root, acc =>
    let root := isqrt 130 (root * 2 ^ 128) 0
    exp2Frac n (2 * f % 2 ^ 100) root (if 2 ^ 100 ≤ 2 * f then acc * root / 2 ^ 128 else acc)

/-- exp2 (R188): +0 below −149, +infinity above 128, within 2 ulp from −126 to 127, and open between (log 65). -/
def fExp2 (a : BitVec 32) : BitVec 32 :=
  match f32 a with
  | .nan => nanOf a 0 0
  | .inf s => if s then 0 else BitVec.ofNat 32 fp32.ovf
  | .fin s m e =>
    -- the argument times 2^100, rounded down
    let v : Int := if s then -((m * 2 ^ 200 : Nat) : Int) else ((m * 2 ^ 200 : Nat) : Int)
    let fx : Int := if 0 ≤ e then v * 2 ^ e.toNat / 2 ^ 100 else v / 2 ^ (100 + e.natAbs)
    let one : Int := 2 ^ 100
    if fx < -149 * one then 0
    else if 128 * one < fx ∨ (fx = 128 * one ∧ v ≠ 128 * 2 ^ 200) then BitVec.ofNat 32 fp32.ovf
    else if -126 * one ≤ fx ∧ fx ≤ 127 * one then
      let i := fx / one
      let f := (fx % one).toNat
      BitVec.ofNat 32 (pickNear 2 a 2 (exp2Frac 100 f (2 ^ 129) (2 ^ 128)) 1 (i - 128))
    else Config.approx 2 a &&& 0x7FFFFFFF#32

/-- Bits of log2(x ÷ 2^128) × 2^n for 2^128 ≤ x < 2^129, by repeated squaring. -/
def log2Frac : Nat → Nat → Nat → Nat
  | 0, _, acc => acc
  | n + 1, x, acc =>
    let y := x * x / 2 ^ 128
    if 2 ^ 129 ≤ y then log2Frac n (y / 2) (2 * acc + 1) else log2Frac n y (2 * acc)

/-- ln 2 × 2^100. -/
def ln2Fix : Nat := 0xB17217F7D1CF79ABC9E3B3980

/-- ln(x ÷ 2^100) × 2^100 for x > 0. -/
def lnFix (x : Nat) : Int :=
  let k := x.log2
  let n := if k ≤ 128 then x * 2 ^ (128 - k) else x / 2 ^ (k - 128)
  let l : Int := ((k : Int) - 100) * 2 ^ 100 + (log2Frac 100 n 0 : Nat)
  l * ln2Fix / 2 ^ 100

/-- g = −ln(−ln u) within 4 ulp, for u = (r ÷ 2^8 + 0.5) × 2^(−24) of a random lane (R230). -/
def gumbel (r : BitVec 32) : BitVec 32 :=
  let u := (2 * (r.toNat / 256) + 1) * 2 ^ 75
  let g := -(lnFix (-(lnFix u)).toNat)
  BitVec.ofNat 32 (signBit fp32 (g < 0) + pickNear 3 r 4 g.natAbs 1 (-100))

/-! ### Conversions (R213, R187) -/

/-- FP32 to INT32, to nearest even or toward zero, saturating; a NaN gives 0. -/
def toInt32 (rz : Bool) (a : BitVec 32) : BitVec 32 :=
  match f32 a with
  | .nan => 0
  | .inf s => if s then 0x80000000#32 else 0x7FFFFFFF#32
  | .fin s m e =>
    let n : Int := roundShift rz m (-e)
    let v := if s then -n else n
    BitVec.ofInt 32 (max (-2147483648) (min 2147483647 v))

/-- INT32 to FP32, to nearest even. -/
def ofInt32 (a : BitVec 32) : BitVec 32 :=
  BitVec.ofNat 32 (fp32.round false (.fin (a.toInt < 0) a.toInt.natAbs 0))

/-- FP32 to BF16: to nearest even by R187, or toward zero (R213 mode 4); a NaN gives 0x7FC0. -/
def toBf16 (rz : Bool) (a : BitVec 32) : BitVec 16 := BitVec.ofNat 16 (bf16.round rz (f32 a))

/-- Widening of BF16. -/
def ofBf16 (a : BitVec 16) : BitVec 32 := a ++ (0#16)

/-- `vcvt` by mode (Table 8-7). -/
def vcvtMode (m : Nat) (a : BitVec 32) : BitVec 32 :=
  match m with
  | 0 => toInt32 false a
  | 1 => ofInt32 a
  | 2 => ofBf16 (toBf16 false a)
  | 3 => toInt32 true a
  | _ => ofBf16 (toBf16 true a)

/-! ### MX elements and blocks (R184 to R186, R215) -/

/-- A tensor format of Table 8-8, by code: its element bits, and emax of the MX formats. -/
def elemBits (code : Nat) : Nat :=
  match code with
  | 0 => 4 | 1 => 6 | 2 => 6 | 3 => 8 | 4 => 8 | 5 => 8 | 6 => 16 | _ => 32

def elemFmt (code : Nat) : FFmt :=
  match code with
  | 0 => e2m1 | 1 => e2m3 | 2 => e3m2 | 3 => e4m3 | 4 => e5m2 | 6 => bf16 | _ => fp32

def elemEmax (code : Nat) : Int :=
  match code with
  | 0 => 2 | 1 => 2 | 2 => 4 | 3 => 8 | 4 => 15 | _ => 0

/-- Value of an element code. An MXINT8 element is its two's-complement integer × 2^(−6) (R184). -/
def elemVal (code c : Nat) : FVal :=
  if code = 5 then (if c < 128 then .fin false c (-6) else .fin true (256 - c) (-6))
  else (elemFmt code).val c

/-- Element code of v ÷ 2^x (R186): saturating in every format; `rz` rounds toward zero (R218). -/
def elemCode (code : Nat) (rz : Bool) (v : FVal) (x : Int) : Nat :=
  match v with
  | .fin s m e =>
    if code = 5 then
      let n := min 127 (roundShift rz m (x - 6 - e))
      if s then (256 - n) % 256 else n
    else
      let f := elemFmt code
      signBit f s + min f.top (f.mag rz m (e - x))
  | _ => 0

/-- The scale byte and element codes of a block of 32 values in MX format `code` (R186). -/
def mxBlock (code : Nat) (rz : Bool) (vs : List FVal) : Nat × List Nat :=
  let bad := vs.any (fun v => match v with | .fin .. => false | _ => true)
  if bad then (255, vs.map (fun _ => 0))
  else
    let exps := vs.filterMap (fun v => match v with | .fin _ m e => if m = 0 then none else some ((m.log2 : Int) + e) | _ => none)
    let x : Int := match exps with
      | [] => -127
      | e :: rest => max (-127) (min 127 (rest.foldl max e - elemEmax code))
    ((x + 127).toNat, vs.map (fun v => elemCode code rz v x))

/-- Packs codes of `b` bits low bits first (R185, R215). -/
def packBits (b : Nat) (cs : List Nat) : Nat := cs.foldr (fun c acc => c % 2 ^ b + acc * 2 ^ b) 0

end Sys2Proof.Machine
end

