-- ==== Sys2Proof/Machine/Operands.lean ====
section
/-!
DEFINITION. Mifel operand forms: the fields of the instruction word, register kinds and what makes a word illegal, the guard, and how the
sequencer issues one instruction (R203 to R207, R227, R232).
-/
namespace Sys2Proof.Machine
open Sys2Proof

/-! ### The instruction word (Table 8-2) -/

/-- The fields of an instruction word (Table 8-2). Form I's IMM32 lies over RB, RC and IMM20. -/
structure Insn where
  cls : BitVec 4
  op : BitVec 6
  pn : BitVec 1
  pg : BitVec 3
  mod : BitVec 6
  rd : BitVec 6
  ra : BitVec 6
  rb : BitVec 6
  rc : BitVec 6
  imm : BitVec 20
  deriving DecidableEq, Repr

/-- The fields of a word. -/
def insnOf (w : BitVec 64) : Insn :=
  { cls := w.extractLsb' 60 4, op := w.extractLsb' 54 6, pn := w.extractLsb' 53 1, pg := w.extractLsb' 50 3, mod := w.extractLsb' 44 6
    rd := w.extractLsb' 38 6, ra := w.extractLsb' 32 6, rb := w.extractLsb' 26 6, rc := w.extractLsb' 20 6, imm := w.extractLsb' 0 20 }

/-- The word of its fields. -/
def insnWord (i : Insn) : BitVec 64 :=
  i.cls ++ i.op ++ i.pn ++ i.pg ++ i.mod ++ i.rd ++ i.ra ++ i.rb ++ i.rc ++ i.imm

/-- The word of an instruction of class `cls` and operation `op`, whose bits 53:0 are `w`. -/
def mifelWord (cls : BitVec 4) (op : BitVec 6) (w : BitVec 54) : BitVec 64 := cls ++ op ++ w

/-- IMM32, sign-extended to 64 bits (Form I). -/
def Insn.imm32 (i : Insn) : BitVec 64 := (i.rb ++ i.rc ++ i.imm : BitVec 32).signExtend 64
/-- IMM20, sign-extended to 64 bits (R210). -/
def Insn.simm20 (i : Insn) : BitVec 64 := i.imm.signExtend 64
/-- `n` bits of IMM20 from bit `lo`. -/
def Insn.immBits (i : Insn) (lo n : Nat) : Nat := bits i.imm.toNat lo n
/-- `n` bits of MOD from bit `lo`. -/
def Insn.modBits (i : Insn) (lo n : Nat) : Nat := bits i.mod.toNat lo n

/-! ### Registers (R204) -/

/-- The kinds of register. -/
inductive RegKind where
  | s | v | acc | p
  deriving DecidableEq, Repr

/-- A register number names a register of the kind. -/
def RegKind.has (k : RegKind) (n : BitVec 6) : Bool :=
  match k with
  | .s => n.toNat < 32
  | .v => 32 ≤ n.toNat && n.toNat < 48
  | .acc => 48 ≤ n.toNat && n.toNat < 52
  | .p => 52 ≤ n.toNat && n.toNat < 60

/-- The number of a register within its kind. -/
def sN (n : BitVec 6) : Nat := n.toNat
def vN (n : BitVec 6) : Nat := n.toNat - 32
def accN (n : BitVec 6) : Nat := n.toNat - 48
def pN (n : BitVec 6) : Nat := n.toNat - 52

/-- What an instruction defines: the kinds of its register operands, its MOD bits, whether bits 19:0 must be zero (Form T), the IMM20 bits
it marks reserved, whether its guard is per lane, and whether its immediate takes the place of RB and RC (R203 to R205). A field without a kind is not an operand. -/
structure Shape where
  rd : Option RegKind := none
  ra : Option RegKind := none
  rb : Option RegKind := none
  rc : Option RegKind := none
  mods : Nat := 0
  formT : Bool := false
  rsvd : Nat := 0
  lanes : Bool := false
  formI : Bool := false
  deriving DecidableEq, Repr

/-- A register field fits its operand; one that is no operand may not name a reserved value either (R204). -/
def kindOk (k : Option RegKind) (n : BitVec 6) : Bool :=
  match k with
  | some k => k.has n
  | none => n.toNat < 60

/-- A word is illegal (R204). Form I has no fields RB and RC. -/
def Shape.illegal (h : Shape) (i : Insn) : Bool :=
  !(kindOk h.rd i.rd && kindOk h.ra i.ra && (h.formI || (kindOk h.rb i.rb && kindOk h.rc i.rc))) ||
  (i.mod.toNat &&& (63 - h.mods)) != 0 || (h.formT && i.imm != 0) || (i.imm.toNat &&& h.rsvd) != 0

/-- The scalar registers an instruction reads or writes. -/
def Shape.scalars (h : Shape) (i : Insn) : List Nat :=
  let pick (k : Option RegKind) (n : BitVec 6) : List Nat := if k = some .s then [sN n] else []
  pick h.rd i.rd ++ pick h.ra i.ra ++ pick h.rb i.rb ++ pick h.rc i.rc

/-- One of the registers is awaited by a posted `wrecv.s` (R206, R219). Writes of s0 are discarded, so it is never awaited (R202). -/
def Stn.awaits (t : Stn) (rs : List Nat) : Bool := rs.any (fun n => n ≠ 0 && t.recvs.any (fun r => r.scalar && r.reg == n))

/-! ### The guard (R205) -/

/-- The guard of an instruction, bit k for lane k. -/
def Stn.guard (t : Stn) (i : Insn) : BitVec 64 := if i.pn = 1 then ~~~ t.preg i.pg.toNat else t.preg i.pg.toNat

/-! ### Issue (R206, R232) -/

/-- What the instruction at the pc does: it changes its station and the pc moves on; it changes more than its station; it branches; it
waits at issue; it is blocked in a receive or a wait, so that its station can pause in place (R227); it traps with a cause, the operand or
address, a status and a code. -/
inductive Issue where
  | stn (t : Stn)
  | all (s : State)
  | jump (t : Stn) (pc : BitVec 32)
  | stall
  | block
  | trap (cause addr status code : Nat)
  deriving DecidableEq, Repr

/-- The pc moves to the next instruction. -/
def Stn.advance (t : Stn) : Stn := { t with pc := t.pc + 1, blocked := false }

/-- A blocked station: while its loom pauses it pauses in place (R227). -/
def State.blockStn (s : State) (k : Nat) : State :=
  let t := s.stn k
  let s := s.setStn k { t with blocked := true }
  if t.pausing ∧ s.siteState k = 3 then
    let s := s.setSiteState k 4
    match t.loom with
    | some n => s.checkPaused n
    | none => s
  else s

/-- The sequencer of station `k` can issue the word at its pc: it runs a call in STATE 3, no refill is outstanding, and the word is there. -/
def State.canIssue (s : State) (k : Nat) (word : BitVec 64) : Bool :=
  s.siteState k == 3 && (s.stn k).run && (s.stn k).refill.isNone && (s.stn k).code[(s.stn k).pc]? == some word

/-- What follows from what the instruction did. -/
def State.apply (s : State) (k : Nat) (word : BitVec 64) (r : Issue) : State :=
  match r with
  | .stn t => s.setStn k t.advance
  | .all s' => s'.updStn k Stn.advance
  | .jump t pc =>
    if pc.toNat < (s.stn k).code.length then s.setStn k { t with pc := pc.toNat, blocked := false }
    else s.trapStn k 6 pc.toNat 0 0 word (s.stn k).pc
  | .stall => s
  | .block => s.blockStn k
  | .trap cause addr status code => s.trapStn k cause addr status code word (s.stn k).pc

/-- One instruction at issue: an illegal word traps with cause 1; a scalar guard of 0 only moves the pc; registers a receive is to write are
waited for; then the instruction acts. `bad` is what else makes the word illegal. A word that is not the one at the pc is not issued. -/
def State.issue (s : State) (x : SiteId) (word : BitVec 64) (h : Shape) (bad : Bool) (f : State → Nat → Stn → Insn → Issue) : State :=
  let k := siteKey x
  let t := s.stn k
  let i := insnOf word
  if s.canIssue k word then
    if h.illegal i || bad then s.trapStn k 1 0 0 0 word t.pc
    else if !h.lanes && !(t.guard i).getLsbD 0 then s.setStn k t.advance
    else if t.awaits (h.scalars i) then s.blockStn k
    else s.apply k word (f s k t i)
  else s

/-- An instruction that only reads and writes the registers of its station. -/
def State.issueReg (s : State) (x : SiteId) (word : BitVec 64) (h : Shape) (bad : Bool) (f : Stn → Insn → Stn) : State :=
  s.issue x word h bad (fun _ _ t i => .stn (f t i))

/-! ### Operand access -/

def Stn.sa (t : Stn) (i : Insn) : BitVec 64 := t.sreg (sN i.ra)
def Stn.sb (t : Stn) (i : Insn) : BitVec 64 := t.sreg (sN i.rb)
def Stn.sc (t : Stn) (i : Insn) : BitVec 64 := t.sreg (sN i.rc)
def Stn.sd (t : Stn) (i : Insn) : BitVec 64 := t.sreg (sN i.rd)
def Stn.putS (t : Stn) (i : Insn) (v : BitVec 64) : Stn := t.setS (sN i.rd) v
def Stn.putP (t : Stn) (i : Insn) (v : BitVec 64) : Stn := t.setP (pN i.rd) v

/-- Writes the lanes of v`r` whose guard bit is 1 (R205). -/
def Stn.putLanes (t : Stn) (r : Nat) (g : BitVec 64) (f : Nat → BitVec 32) : Stn :=
  (List.range 64).foldl (fun t k => if g.getLsbD k then t.setLane r k (f k) else t) t

/-- Lane values of a register. -/
def Stn.va (t : Stn) (i : Insn) (k : Nat) : BitVec 32 := t.lane (vN i.ra) k
def Stn.vb (t : Stn) (i : Insn) (k : Nat) : BitVec 32 := t.lane (vN i.rb) k
def Stn.vc (t : Stn) (i : Insn) (k : Nat) : BitVec 32 := t.lane (vN i.rc) k

/-- Row `i` of the bytes of a list, as 32-bit words. -/
def word32At (bs : List (BitVec 8)) (o : Nat) : BitVec 32 := BitVec.ofNat 32 (ofBytes (sliceBytes bs o 4))

/-- A local-store access faults: it leaves the local store or its address is not a multiple of `al` (R210). -/
def lsBad (a n al : Nat) : Bool := 2097152 < a + n || a % al != 0

end Sys2Proof.Machine
end

