-- ==== Sys2Proof/Machine/Flags.lean ====
section
/-!
DEFINITION. What Mifel writes into predicates: scalar and lane comparisons and their condition codes (R208, R211, R225).
-/
namespace Sys2Proof.Machine
open Sys2Proof

/-- A scalar comparison by its code (Table 8-3): 0 = eq, 1 = ne, 2 = lt, 3 = ltu, 4 = le, 5 = leu. -/
def scalarCc (cc : Nat) (a b : BitVec 64) : Bool :=
  match cc with
  | 0 => a == b
  | 1 => a != b
  | 2 => a.slt b
  | 3 => a.ult b
  | 4 => a.sle b
  | _ => a.ule b

/-- A lane comparison by its code (Table 8-6): 0 = eq, 1 = ne, 2 = lt, 3 = le. A NaN gives 0 but for ne. -/
def laneCc (cc : Nat) (a b : BitVec 32) : Bool :=
  let x := f32 a
  let y := f32 b
  match cc with
  | 0 => x.eq y
  | 1 => !x.eq y
  | 2 => x.lt y
  | _ => x.lt y || x.eq y

/-- A predicate written by a scalar instruction: all 64 bits take the value (R208). -/
def allBits (b : Bool) : BitVec 64 := if b then BitVec.allOnes 64 else 0

/-- A predicate of lane values under a guard: a bit whose guard is 0 keeps its value (R205). -/
def maskBits (old g : BitVec 64) (f : Nat → Bool) : BitVec 64 :=
  (List.range 64).foldl (fun p k => if g.getLsbD k then (p &&& ~~~ BitVec.ofNat 64 (2 ^ k)) ||| (if f k then BitVec.ofNat 64 (2 ^ k) else 0) else p) old

end Sys2Proof.Machine
end

