-- ==== Sys2Proof/Machine/MifelVector.lean ====
section
/-!
DEFINITION. Mifel vector instructions (R188, R205, R211 to R213).
-/
namespace Sys2Proof.Machine
open Sys2Proof

/-- Shapes of the vector class: one, two or three vector sources (Form T). -/
def shapeV1 : Shape := { rd := some .v, ra := some .v, formT := true, lanes := true }
def shapeV2 : Shape := { shapeV1 with rb := some .v }
def shapeV3 : Shape := { shapeV2 with rc := some .v }

/-- A lane operation of one source. -/
def State.vec1 (s : State) (x : SiteId) (word : BitVec 64) (f : BitVec 32 → BitVec 32) : State :=
  s.issueReg x word shapeV1 false (fun t i => t.putLanes (vN i.rd) (t.guard i) (fun k => f (t.va i k)))
/-- A lane operation of two sources. -/
def State.vec2 (s : State) (x : SiteId) (word : BitVec 64) (f : BitVec 32 → BitVec 32 → BitVec 32) : State :=
  s.issueReg x word shapeV2 false (fun t i => t.putLanes (vN i.rd) (t.guard i) (fun k => f (t.va i k) (t.vb i k)))
/-- A lane operation of three sources. -/
def State.vec3 (s : State) (x : SiteId) (word : BitVec 64) (f : BitVec 32 → BitVec 32 → BitVec 32 → BitVec 32) : State :=
  s.issueReg x word shapeV3 false (fun t i => t.putLanes (vN i.rd) (t.guard i) (fun k => f (t.va i k) (t.vb i k) (t.vc i k)))

/-- One level of the reduction tree: adjacent pairs (R212). -/
def pairUp (f : BitVec 32 → BitVec 32 → BitVec 32) : List (BitVec 32) → List (BitVec 32)
  | a :: b :: rest => f a b :: pairUp f rest
  | l => l
/-- The tree over `n` levels (R212). -/
def tree (f : BitVec 32 → BitVec 32 → BitVec 32) : Nat → List (BitVec 32) → BitVec 32
  | 0, l => l.headD 0
  | n + 1, l => tree f n (pairUp f l)
/-- A reduction of the lanes of a register; a lane whose guard is 0 enters as `z` (R212). -/
def Stn.reduce (t : Stn) (i : Insn) (z : BitVec 32) (f : BitVec 32 → BitVec 32 → BitVec 32) : BitVec 32 :=
  let g := t.guard i
  tree f 6 ((List.range 64).map (fun k => if g.getLsbD k then t.va i k else z))

/-- vadd (Table 8-6). -/
def execVadd (st : SiteId) (w : BitVec 54) (s : State) : Res := .next (s.vec2 st (mifelWord 3 0 w) fAdd)
/-- vsub (Table 8-6). -/
def execVsub (st : SiteId) (w : BitVec 54) (s : State) : Res := .next (s.vec2 st (mifelWord 3 1 w) fSub)
/-- vmul (Table 8-6). -/
def execVmul (st : SiteId) (w : BitVec 54) (s : State) : Res := .next (s.vec2 st (mifelWord 3 2 w) fMul)
/-- vfma: A × B + C, rounded once (Table 8-6). -/
def execVfma (st : SiteId) (w : BitVec 54) (s : State) : Res := .next (s.vec3 st (mifelWord 3 3 w) fFma)
/-- vmax (Table 8-6). -/
def execVmax (st : SiteId) (w : BitVec 54) (s : State) : Res := .next (s.vec2 st (mifelWord 3 4 w) fMax)
/-- vmin (Table 8-6). -/
def execVmin (st : SiteId) (w : BitVec 54) (s : State) : Res := .next (s.vec2 st (mifelWord 3 5 w) fMin)
/-- vabs (Table 8-6). -/
def execVabs (st : SiteId) (w : BitVec 54) (s : State) : Res := .next (s.vec1 st (mifelWord 3 6 w) (fun a => a &&& 0x7FFFFFFF#32))
/-- vneg (Table 8-6). -/
def execVneg (st : SiteId) (w : BitVec 54) (s : State) : Res := .next (s.vec1 st (mifelWord 3 7 w) (fun a => a ^^^ 0x80000000#32))
/-- vrcp (Table 8-6). -/
def execVrcp (st : SiteId) (w : BitVec 54) (s : State) : Res := .next (s.vec1 st (mifelWord 3 8 w) fRcp)
/-- vrsqrt (Table 8-6). -/
def execVrsqrt (st : SiteId) (w : BitVec 54) (s : State) : Res := .next (s.vec1 st (mifelWord 3 9 w) fRsqrt)
/-- vexp2 (Table 8-6). -/
def execVexp2 (st : SiteId) (w : BitVec 54) (s : State) : Res := .next (s.vec1 st (mifelWord 3 10 w) fExp2)
/-- vcmp.cc (Table 8-6). -/
def execVcmp (st : SiteId) (w : BitVec 54) (s : State) : Res :=
  let word := mifelWord 3 11 w
  .next (s.issueReg st word { rd := some .p, ra := some .v, rb := some .v, mods := 7, formT := true, lanes := true } (4 ≤ (insnOf word).modBits 0 3)
    (fun t i => t.putP i (maskBits (t.preg (pN i.rd)) (t.guard i) (fun k => laneCc (i.modBits 0 3) (t.va i k) (t.vb i k)))))
/-- vsel: C bit k ? A : B (Table 8-6). -/
def execVsel (st : SiteId) (w : BitVec 54) (s : State) : Res :=
  .next (s.issueReg st (mifelWord 3 12 w) { shapeV2 with rc := some .p } false (fun t i =>
    let c := t.preg (pN i.rc)
    t.putLanes (vN i.rd) (t.guard i) (fun k => if c.getLsbD k then t.va i k else t.vb i k)))
/-- vbcast: every lane = A[31:0] (Table 8-6). -/
def execVbcast (st : SiteId) (w : BitVec 54) (s : State) : Res :=
  .next (s.issueReg st (mifelWord 3 13 w) { shapeV1 with ra := some .s } false (fun t i =>
    t.putLanes (vN i.rd) (t.guard i) (fun _ => (t.sa i).extractLsb' 0 32)))
/-- vext: lane IMM20[5:0] of A, zero-extended, under the scalar guard (Table 8-6). -/
def execVext (st : SiteId) (w : BitVec 54) (s : State) : Res :=
  .next (s.issueReg st (mifelWord 3 14 w) { rd := some .s, ra := some .v } false (fun t i =>
    t.putS i ((t.va i (i.immBits 0 6)).zeroExtend 64)))
/-- vlane: lane k = k (Table 8-6). -/
def execVlane (st : SiteId) (w : BitVec 54) (s : State) : Res :=
  .next (s.issueReg st (mifelWord 3 15 w) { shapeV1 with ra := none } false (fun t i =>
    t.putLanes (vN i.rd) (t.guard i) (fun k => BitVec.ofNat 32 k)))
/-- vredsum (Table 8-6, R212). -/
def execVredsum (st : SiteId) (w : BitVec 54) (s : State) : Res :=
  .next (s.issueReg st (mifelWord 3 16 w) { shapeV1 with rd := some .s } false (fun t i => t.putS i ((t.reduce i 0 fAdd).zeroExtend 64)))
/-- vredmax: a lane whose guard is 0 enters as −infinity (Table 8-6, R212). -/
def execVredmax (st : SiteId) (w : BitVec 54) (s : State) : Res :=
  .next (s.issueReg st (mifelWord 3 17 w) { shapeV1 with rd := some .s } false (fun t i =>
    t.putS i ((t.reduce i 0xFF800000#32 fMax).zeroExtend 64)))
/-- vand (Table 8-6). -/
def execVand (st : SiteId) (w : BitVec 54) (s : State) : Res := .next (s.vec2 st (mifelWord 3 18 w) (fun a b => a &&& b))
/-- vor (Table 8-6). -/
def execVor (st : SiteId) (w : BitVec 54) (s : State) : Res := .next (s.vec2 st (mifelWord 3 19 w) (fun a b => a ||| b))
/-- vxor (Table 8-6). -/
def execVxor (st : SiteId) (w : BitVec 54) (s : State) : Res := .next (s.vec2 st (mifelWord 3 20 w) (fun a b => a ^^^ b))
/-- vshl (Table 8-6). -/
def execVshl (st : SiteId) (w : BitVec 54) (s : State) : Res := .next (s.vec2 st (mifelWord 3 21 w) (fun a b => a <<< (b.toNat % 32)))
/-- vshr (Table 8-6). -/
def execVshr (st : SiteId) (w : BitVec 54) (s : State) : Res := .next (s.vec2 st (mifelWord 3 22 w) (fun a b => a >>> (b.toNat % 32)))
/-- vcvt.m (R213, Table 8-7). -/
def execVcvt (st : SiteId) (w : BitVec 54) (s : State) : Res :=
  let word := mifelWord 3 23 w
  .next (s.issueReg st word { shapeV1 with mods := 7 } (5 ≤ (insnOf word).modBits 0 3)
    (fun t i => t.putLanes (vN i.rd) (t.guard i) (fun k => vcvtMode (i.modBits 0 3) (t.va i k))))

end Sys2Proof.Machine
end

