-- ==== Sys2Proof/Machine/MifelTensor.lean ====
section
/-!
DEFINITION. Mifel tensor instructions and the array queue (R189 to R191, R214 to R218).
-/
namespace Sys2Proof.Machine
open Sys2Proof

/-! ### Tile layout (R215) -/

/-- Bytes of the elements of a block of 32, by format code (Table 8-8). -/
def blockBytes (code : Nat) : Nat := 4 * elemBits code

/-- A tile stores scale bytes: it is in an MX format and not flagged unscaled. -/
def tileScaled (code : Nat) (unscaled : Bool) : Bool := !unscaled && code < 6

/-- Bytes of a tile of `n` blocks. -/
def tileBytes (code : Nat) (unscaled : Bool) (n : Nat) : Nat := n * (blockBytes code + if tileScaled code unscaled then 1 else 0)

/-- Bytes of a row of 64 elements, and of a W tile under WT with its rows `stride` apart. -/
def rowBytes (code : Nat) : Nat := 8 * elemBits code
def wtBytes (code len stride : Nat) : Nat := (len - 1) * stride + rowBytes code

/-- Code of element `e` of packed elements (R215): bits `b·e` up of the bytes read as a little-endian number. -/
def elemAt (bs : List (BitVec 8)) (b e : Nat) : Nat := ofBytes (sliceBytes bs (b * e / 8) 2) / 2 ^ (b * e % 8) % 2 ^ b

/-- Block `b` of a tile of `n` blocks: its unbiased scale and the values of its elements; a scale of 0xFF makes them NaN (R185). -/
def blockOf (bs : List (BitVec 8)) (code : Nat) (unscaled : Bool) (n b : Nat) : Int × List FVal :=
  let eb := blockBytes code
  let sc := tileScaled code unscaled
  let g := b / 32
  let base := g * 32 * (eb + if sc then 1 else 0)
  let inGroup := min 32 (n - 32 * g)
  let scale := if sc then (bs.getD (base + inGroup * eb + b % 32) 0).toNat else 127
  let el := sliceBytes bs (base + b % 32 * eb) eb
  ((scale : Int) - 127, (List.range 32).map (fun e => if scale = 255 then .nan else elemVal code (elemAt el (elemBits code) e)))

/-- Column block of a W tile under WT: elements `32·kb ..` of column `j`, one from each row (R215). -/
def wtBlock (bs : List (BitVec 8)) (code stride kb j : Nat) : Int × List FVal :=
  (0, (List.range 32).map (fun e =>
    elemVal code (elemAt (sliceBytes bs ((32 * kb + e) * stride) (rowBytes code)) (elemBits code) j)))

/-! ### Arithmetic of a cell (R190) -/

/-- Products a cell forms in one cycle, K (Table 7-3). -/
def sliceK (fa fw : Nat) : Nat := if fa = 0 ∧ fw = 0 then 8 else if fa = 6 then 2 else 4

/-- The exact sum of values; the sum of none is +0. -/
def sumExact : List FVal → FVal
  | [] => .fin false 0 0
  | [a] => a
  | a :: rest => a.add (sumExact rest)

/-- A sum rounded into an accumulator element: once, to nearest even; a magnitude below 2^(−126) becomes zero of its sign, a NaN the quiet
NaN. -/
def accRound (v : FVal) : BitVec 32 :=
  match v with
  | .fin s m e => if m = 0 ∨ (m.log2 : Int) + e < -126 then BitVec.ofNat 32 (signBit fp32 s) else BitVec.ofNat 32 (fp32.round false v)
  | _ => BitVec.ofNat 32 (fp32.round false v)

/-- Adds the slices of K products of two blocks to an accumulator element, one rounding each. -/
def addSlices (k : Nat) (x : Int) : Nat → List FVal → List FVal → BitVec 32 → BitVec 32
  | 0, _, _, acc => acc
  | n + 1, a, w, acc =>
    let p := sumExact ((a.take k).zipWith FVal.mul (w.take k))
    addSlices k x n (a.drop k) (w.drop k) (accRound ((f32 acc).add (p.shift x)))

/-- Element (i, j) after the whole reduction, from `acc`. -/
def mmaCell (k : Nat) (as ws : List (Int × List FVal)) (acc : BitVec 32) : BitVec 32 :=
  (as.zip ws).foldl (fun c b => addSlices k (b.1.1 + b.2.1) (32 / k) b.1.2 b.2.2 c) acc

/-! ### mma (R214, R216, R217) -/

/-- A and W tile bytes of a queued mma. -/
def MmaOp.aLen (m : MmaOp) : Nat := tileBytes m.fa m.au (16 * (m.len / 32))
def MmaOp.wLen (m : MmaOp) : Nat := if m.wt then wtBytes m.fw m.len m.stride else tileBytes m.fw m.wu (64 * (m.len / 32))

/-- The accumulator after a queued mma. -/
def Stn.runMma (t : Stn) (m : MmaOp) : Stn :=
  let nb := m.len / 32
  let ab := t.lsRead m.a m.aLen
  let wb := t.lsRead m.w m.wLen
  let rows := (List.range 16).map (fun i => (List.range nb).map (fun kb => blockOf ab m.fa m.au (16 * nb) (i * nb + kb)))
  let cols := (List.range 64).map (fun j => (List.range nb).map (fun kb =>
    if m.wt then wtBlock wb m.fw m.stride kb j else blockOf wb m.fw m.wu (64 * nb) (j * nb + kb)))
  rows.zipIdx.foldl (fun t r => cols.zipIdx.foldl (fun t c =>
    t.setCell m.acc r.2 c.2 (mmaCell (sliceK m.fa m.fw) r.1 c.1 (if m.zero then 0 else t.cell m.acc r.2 c.2))) t) t

/-- A queued mma writes accumulator `a` (R217). -/
def Stn.accBusy (t : Stn) (a : Nat) : Bool := t.queue.any (fun m => m.acc == a)

/-- The mma an instruction asks for. -/
def Stn.mmaOf (t : Stn) (i : Insn) (zero : Bool) : MmaOp :=
  let fw := i.modBits 3 3
  { serial := t.serial, acc := accN i.rd, zero := zero, fa := i.modBits 0 3, fw := fw, a := (t.sa i).toNat, w := (t.sb i).toNat
    len := (t.sc i).toNat, au := i.immBits 0 1 == 1, wu := i.immBits 1 1 == 1, wt := i.immBits 2 1 == 1
    stride := if i.immBits 8 12 = 0 then rowBytes fw else 8 * i.immBits 8 12 }

/-- Formats that pair, a reduction length in range, and a W format that WT allows (R214, R216). -/
def MmaOp.formsOk (m : MmaOp) : Bool :=
  m.fa < 7 && m.fw < 7 && ((m.fa == 6) == (m.fw == 6)) && (!m.wt || m.fw == 6 || (3 ≤ m.fw && m.fw ≤ 5 && m.wu))
def MmaOp.lenOk (m : MmaOp) : Bool := m.len % 32 == 0 && 32 ≤ m.len && m.len ≤ 16384

/-- mma and mmaz at issue: a fifth waits for the queue, a tile that waits for data stalls, two range entries are taken (R207, R217). -/
def State.mma (s : State) (x : SiteId) (word : BitVec 64) (zero : Bool) : State :=
  s.issue x word { rd := some .acc, ra := some .s, rb := some .s, rc := some .s, mods := 63, rsvd := 0xF8 } false (fun _ _ t i =>
    let m := t.mmaOf i zero
    if !m.formsOk then .trap 3 i.mod.toNat 0 0
    else if !m.lenOk then .trap 3 m.len 0 0
    else if lsBad m.a m.aLen 64 then .trap 2 m.a 0 0
    else if lsBad m.w m.wLen 64 then .trap 2 m.w 0 0
    else if 4 ≤ t.queue.length || t.readStalls m.a m.aLen || t.readStalls m.w m.wLen || 30 < t.ranges.length then .stall
    else .stn { t with
      queue := t.queue ++ [m], serial := t.serial + 1
      ranges := t.ranges ++ [lineRange m.a m.aLen false (.mma m.serial), lineRange m.w m.wLen false (.mma m.serial)] })

/-- mma.fa.fw (R216). -/
def execMma (st : SiteId) (w : BitVec 54) (s : State) : Res := .next (s.mma st (mifelWord 4 0 w) false)
/-- mmaz.fa.fw (R216). -/
def execMmaz (st : SiteId) (w : BitVec 54) (s : State) : Res := .next (s.mma st (mifelWord 4 1 w) true)

/-- MMA_END (R217): the oldest queued mma of the station ends; its product is in the accumulator and its ranges are free. -/
def execMmaEnd (st : SiteId) (s : State) : Res :=
  .next (let k := siteKey st
    let t := s.stn k
    match t.queue with
    | [] => s
    | m :: rest => s.setStn k (({ t.runMma m with queue := rest } : Stn).freeRange (.mma m.serial)))

/-! ### Accumulators (R217, R218) -/

/-- Sets every element of an accumulator. -/
def Stn.putAcc (t : Stn) (a : Nat) (f : Nat → Nat → BitVec 32) : Stn :=
  (List.range 16).foldl (fun t i => (List.range 64).foldl (fun t j => t.setCell a i j (f i j)) t) t

/-- acczero (Table 8-9). -/
def execAcczero (st : SiteId) (w : BitVec 54) (s : State) : Res :=
  .next (s.issue st (mifelWord 4 2 w) { rd := some .acc } false (fun _ _ t i =>
    if t.accBusy (accN i.rd) then .stall else .stn (t.putAcc (accN i.rd) (fun _ _ => 0))))

/-- The bytes `accst` stores: the 16 × 64 tile as an A tile with L = 64 in a format (R218). -/
def Stn.tileOf (t : Stn) (a code : Nat) (rz : Bool) : List (BitVec 8) :=
  let cells := (List.range 16).map (fun i => (List.range 64).map (fun j => t.cell a i j))
  if code = 7 then cells.flatMap (fun r => r.flatMap (fun v => toBytes 4 v.toNat))
  else if code = 6 then cells.flatMap (fun r => r.flatMap (fun v => toBytes 2 (toBf16 rz v).toNat))
  else
    let blocks := cells.flatMap (fun r => [r.take 32, r.drop 32])
    let coded := blocks.map (fun b => mxBlock code rz (b.map f32))
    coded.flatMap (fun b => toBytes (blockBytes code) (packBits (elemBits code) b.2)) ++ coded.map (fun b => BitVec.ofNat 8 b.1)

/-- Bytes a stored tile takes. -/
def accBytes (code : Nat) : Nat := if code = 7 then 4096 else tileBytes code false 32

/-- accst.f[.rz] (R218). -/
def execAccst (st : SiteId) (w : BitVec 54) (s : State) : Res :=
  .next (s.issue st (mifelWord 4 3 w) { ra := some .s, rb := some .acc, mods := 15 } false (fun _ _ t i =>
    let a := (t.sa i).toNat
    let code := i.modBits 0 3
    if lsBad a (accBytes code) 64 then .trap 2 a 0 0
    else if t.accBusy (accN i.rb) || t.writeStalls a (accBytes code) then .stall
    else .stn (t.lsWrite a (t.tileOf (accN i.rb) code (i.modBits 3 1 == 1)))))

/-- vacc: lane j = acc[row][j] (Table 8-9). -/
def execVacc (st : SiteId) (w : BitVec 54) (s : State) : Res :=
  .next (s.issue st (mifelWord 4 4 w) { rd := some .v, ra := some .acc } false (fun _ _ t i =>
    if t.accBusy (accN i.ra) then .stall
    else .stn (t.putLanes (vN i.rd) (BitVec.allOnes 64) (fun j => t.cell (accN i.ra) (i.immBits 0 4) j))))

/-- vaccw: acc[row][j] = lane j (Table 8-9). -/
def execVaccw (st : SiteId) (w : BitVec 54) (s : State) : Res :=
  .next (s.issue st (mifelWord 4 5 w) { rd := some .acc, ra := some .v } false (fun _ _ t i =>
    if t.accBusy (accN i.rd) then .stall
    else .stn ((List.range 64).foldl (fun t' j => t'.setCell (accN i.rd) (i.immBits 0 4) j (t.va i j)) t)))

end Sys2Proof.Machine
end

