-- ==== Sys2Proof/Machine/Weft.lean ====
section
/-!
DEFINITION. The weft: sends and receives of stations, flits in switches, their delivery and loss, and the stall of R243 (R176, R182, R219,
R220, R241, R243).
-/
namespace Sys2Proof.Machine
open Sys2Proof

/-! ### Delivery -/

/-- A route entry of a station. -/
def Stn.route (t : Stn) (n : Nat) : Nat := (smGet 0 t.routes n).toNat

/-- Weft traffic towards the site is dropped and counted: it is fenced, or its fence has reached step 5 (R182, R195). -/
def State.weftDead (s : State) (k : Nat) : Bool := s.siteState k == 6 || (s.stn k).fence.isSome

/-- The first posted receive whose RX entry names the flit's sender and route (R220, R241). -/
def Stn.receiverOf (t : Stn) (f : WFlit) : Option Recv :=
  t.recvs.find? (fun r => let e := t.route r.route; routeV e && routeRx e && rxSite e == f.src && rxRoute e == f.route)

/-- A flit lands in the receive: 32 bytes at its address, or the scalar register; a receive that has all its data is over (R207, R220). -/
def Stn.land (t : Stn) (r : Recv) (f : WFlit) : Stn :=
  let close (t : Stn) : Stn := ({ t with recvs := t.recvs.filter (fun x => x.serial ≠ r.serial) } : Stn).freeRange (.recv r.serial)
  if r.scalar then close (t.setS r.reg (BitVec.ofNat 64 (wordAt f.data 0)))
  else
    let t := t.lsWrite (r.addr + r.got) f.data
    if r.len ≤ r.got + 32 then close t
    else { t with recvs := t.recvs.map (fun x => if x.serial = r.serial then { x with got := x.got + 32 } else x) }

/-- The head of a switch queue after its copy here is dealt with: gone at the end of its path, else it waits for its next hop. -/
def headDone (q : List WFlit) : List WFlit :=
  match q with
  | f :: rest => if f.path.isEmpty then rest else { f with here_ := false } :: rest
  | [] => []

def Stn.setSw (t : Stn) (p : Nat) (q : List WFlit) : Stn := { t with sw := smSet [] t.sw p q }

/-- Delivers the head of queue `p` of site `k` if it can be: towards a fenced site it is dropped and counted; a flit of the other kind than
its receive traps that receive with cause 3 (R220). -/
def State.deliverHead (s : State) (k p : Nat) : Option State :=
  let t := s.stn k
  match smGet [] t.sw p with
  | f :: rest =>
    if !f.here_ then none
    else if s.weftDead k then some ((s.dropFlits k 1).updStn k (fun t => t.setSw p (headDone (f :: rest))))
    else match t.receiverOf f with
      | none => none
      | some r =>
        if r.scalar = f.scalar then some (s.setStn k ((t.land r f).setSw p (headDone (f :: rest))))
        else if s.siteState k = 3 ∨ s.siteState k = 4 then
          let s := s.setStn k (({ t with recvs := t.recvs.filter (fun x => x.serial ≠ r.serial) } : Stn).freeRange (.recv r.serial))
          some (s.trapStn k 3 r.route 0 0 r.insn r.pc)
        else none
  | [] => none

/-- Delivers what the switch of a site holds for its core, as far as it goes. -/
def State.deliverWeft (s : State) (k : Nat) : State :=
  (List.range 5).foldl (fun s p => go s k p (2 * (smGet [] (s.stn k).sw p).length)) s
where
  go (s : State) (k p : Nat) : Nat → State
    | 0 => s
    | n + 1 => match s.deliverHead k p with
      | some s => go s k p n
      | none => s

/-! ### Instructions (Table 8-10) -/

/-- Shapes of the weft class: address and length, or a scalar. -/
def shapeWeft : Shape := { ra := some .s, rb := some .s }

/-- A block length or address a weft instruction cannot take traps with cause 3, one past the local store with cause 2 (R219, R220). -/
def weftTrap (a n : Nat) : Option Issue :=
  if n % 32 ≠ 0 ∨ n < 32 ∨ 65536 < n then some (.trap 3 n 0 0)
  else if a % 32 ≠ 0 then some (.trap 3 a 0 0)
  else if 2097152 < a + n then some (.trap 2 a 0 0)
  else none

/-- The route an instruction names is loaded and of its kind: RX for a receive, TX for a send (R241). -/
def Stn.routeOk (t : Stn) (n : Nat) (rx : Bool) : Bool := routeV (t.route n) && routeRx (t.route n) == rx

/-- wsend: the source is protected until every flit has left (R207, R219). -/
def execWsend (st : SiteId) (w : BitVec 54) (s : State) : Res :=
  .next (s.issue st (mifelWord 5 0 w) shapeWeft false (fun _ _ t i =>
    let r := i.immBits 0 4
    let a := (t.sa i).toNat
    let n := (t.sb i).toNat
    if !t.routeOk r false then .trap 3 r 0 0
    else match weftTrap a n with
      | some x => x
      | none =>
        if 8 ≤ t.sends.length || t.readStalls a n || 32 ≤ t.ranges.length then .stall
        else .stn { t with
          sends := t.sends ++ [⟨t.serial, r, false, t.lsRead a n⟩], serial := t.serial + 1
          ranges := t.ranges ++ [lineRange a n false (.send t.serial)] }))

/-- wrecv: posts a receive, and takes what its switch holds for it (R219, R220). -/
def execWrecv (st : SiteId) (w : BitVec 54) (s : State) : Res :=
  let word := mifelWord 5 1 w
  .next (s.issue st word shapeWeft false (fun s k t i =>
    let r := i.immBits 0 4
    let a := (t.sa i).toNat
    let n := (t.sb i).toNat
    if !t.routeOk r true then .trap 3 r 0 0
    else match weftTrap a n with
      | some x => x
      | none =>
        if 8 ≤ t.recvs.length || t.writeStalls a n || 32 ≤ t.ranges.length then .stall
        else .all ((s.setStn k { t with
          recvs := t.recvs ++ [{ serial := t.serial, route := r, scalar := false, addr := a, len := n, pc := t.pc, insn := word }]
          serial := t.serial + 1, ranges := t.ranges ++ [lineRange a n true (.recv t.serial)] }).deliverWeft k)))

/-- wsend.s: one scalar flit (R219). -/
def execWsendS (st : SiteId) (w : BitVec 54) (s : State) : Res :=
  .next (s.issue st (mifelWord 5 2 w) { ra := some .s } false (fun _ _ t i =>
    let r := i.immBits 0 4
    if !t.routeOk r false then .trap 3 r 0 0
    else if 8 ≤ t.sends.length then .stall
    else .stn { t with
      sends := t.sends ++ [⟨t.serial, r, true, toBytes 8 (t.sa i).toNat ++ List.replicate 24 0⟩], serial := t.serial + 1 }))

/-- wrecv.s: D is awaited until the route's next scalar flit comes (R206, R219). -/
def execWrecvS (st : SiteId) (w : BitVec 54) (s : State) : Res :=
  let word := mifelWord 5 3 w
  .next (s.issue st word { rd := some .s } false (fun s k t i =>
    let r := i.immBits 0 4
    if !t.routeOk r true then .trap 3 r 0 0
    else .all ((s.setStn k { t with
      recvs := t.recvs ++ [{ serial := t.serial, route := r, scalar := true, reg := sN i.rd, pc := t.pc, insn := word }]
      serial := t.serial + 1 }).deliverWeft k)))

/-! ### Hops (R182) -/

/-- The next flit of the oldest send enters the site's own switch; a send whose last flit has left is over. -/
def State.inject (s : State) (k : Nat) : State :=
  let t := s.stn k
  match t.sends with
  | [] => s
  | x :: rest =>
    let path := txPath (t.route x.route)
    let f : WFlit := { src := siteI k, route := x.route, scalar := x.scalar, data := x.data.take 32, here_ := path.isEmpty, path := path, since := s.now }
    let t := t.setSw 4 (smGet [] t.sw 4 ++ [f])
    let t := if x.data.length ≤ 32 then ({ t with sends := rest } : Stn).freeRange (.send x.serial)
      else { t with sends := { x with data := x.data.drop 32 } :: rest }
    s.setStn k t

/-- The queue of a site whose head goes out in direction `d` and has waited longest. -/
def Stn.outQueue (t : Stn) (d : Nat) : Option (Nat × WFlit × List WFlit) :=
  (List.range 5).foldl (fun (a : Option (Nat × WFlit × List WFlit)) p =>
    match smGet [] t.sw p with
    | f :: rest =>
      if !f.here_ && (f.path.head?.map (·.1)) == some d then
        match a with
        | some b => if f.since < b.2.1.since then some (p, f, rest) else a
        | none => some (p, f, rest)
      else a
    | [] => a) none

/-- WEFT_FLIT_RECEIVE (R182): the switch of a site takes the next flit of a port, 4 being its own core. A flit that fails its CRC is
replayed, and a flit that fails three replays in a row is a station fault of the receiving site with cause 2. Without room, the sender
waits. A stopped switch drops it. -/
def execWeftFlitReceive (x : SiteId) (port : Fin 5) (bad : Bool) (s : State) : Res :=
  .next (let k := siteKey x
    let room := (smGet [] (s.stn k).sw port.val).length < 16
    if port.val = 4 then (if room && !s.switchOff k then (s.inject k).deliverWeft k else s)
    else match neighbour k port.val with
      | none => s
      | some j =>
        if s.switchOff j then s
        else match (s.stn j).outQueue ((port.val + 2) % 4) with
          | none => s
          | some (p, f, rest) =>
            if s.switchOff k then ((s.dropFlits k 1).updStn j (fun t => t.setSw p rest)).deliverWeft j
            else if !room then s
            else if bad then
              if f.fails < 3 then
                (s.updStn j (fun t => t.setSw p ({ f with fails := f.fails + 1 } :: rest))).count F.STN_CNT_WEFT_RETRY 1 (siteQ k)
              else (s.updStn j (fun t => t.setSw p ({ f with fails := 0 } :: rest))).stationFault k 2
            else
              let here_ := match f.path with | h :: _ => h.2 | [] => true
              let s := s.updStn j (fun t => t.setSw p rest)
              let s := s.updStn k (fun t => t.setSw port.val (smGet [] t.sw port.val ++
                [({ f with here_ := here_, path := f.path.drop 1, fails := 0, since := s.now, stalled := false } : WFlit)]))
              (s.deliverWeft k).deliverWeft j)

/-- WEFT_STALL (R243): a flit that a switch port has held for WSTALL_MS raises an event and the stall interrupt, once. -/
def execWeftStall (st : SiteId) (port : Fin 5) (s : State) : Res :=
  .next (let k := siteKey st
    let ms := s.fld F.STN_MEND_CTL_WSTALL_MS
    match smGet [] (s.stn k).sw port.val with
    | f :: rest =>
      if ms ≠ 0 ∧ !f.stalled ∧ f.since + ms * 1000000 ≤ s.now then
        let s := s.updStn k (fun t => t.setSw port.val ({ f with stalled := true } :: rest))
        (s.event (siteSrc k) 6 [port.val + s.siteCtx k * 16]).raise (0x048 + 0x40 * siteQ k)
      else s
    | [] => s)

end Sys2Proof.Machine
end

