-- ==== Sys2Proof/Machine/Stations.lean ====
section
/-!
DEFINITION. Station faults, fences, self-tests and retirement (R181, R194 to R199).
-/
namespace Sys2Proof.Machine
open Sys2Proof

/-- LOCAL_STORE_DOUBLE_ERROR (R181): a read finds a local-store word of the site with bad bits. Two are a station fault with cause 1; one is
corrected, written back and counted. A word of an unwritten block carries no code and is not checked. -/
def execLocalStoreDoubleError (st : LsRead) (s : State) : Res :=
  .next (let k := siteKey st.site
    if !smGet false (s.stn k).written (st.word.toNat / 128) then s
    else if st.two then s.stationFault k 1
    else s.count F.STN_CNT_LS_CE 1 (siteQ k))

/-- SITE_DOMAIN_FAULT (R194): a power or clock fault of a site's domain is a station fault with cause 3. -/
def execSiteDomainFault (st : SiteId) (s : State) : Res := .next (s.stationFault (siteKey st) 3)

/-- The outcome of a fence command (Table 7-13). -/
def State.fenceResult (s : State) (q site : Nat) (st : Status) : State :=
  ((s.setFld F.STN_FENCE_STAT_SITE site q).setFld F.STN_FENCE_STAT_RESULT st.code q).respond .ok

/-- A write of `STN_FENCE_CMD`: a site above 323 completes ACCESS_DENIED; a self-test that runs on the site answers BUSY (Tables 7-8 and
7-13). -/
def State.fenceCmd (s : State) (w : Writer) (q : Quarter) (site : BitVec 9) (f : State → Nat → Status × State) : State :=
  s.regWrite w .STN_FENCE_CMD q.val (fun s =>
    if 323 < site.toNat then s.respond .accessDenied
    else
      let k := q.val * 324 + site.toNat
      if (s.stn k).selftest then s.fenceResult q.val site.toNat .busy
      else
        let (st, s) := f s k
        s.fenceResult q.val site.toNat st)

/-- FENCE_CMD (R194, R195, Table 7-8). -/
def execFenceCmd (w : Writer) (q : Quarter) (site : BitVec 9) (s : State) : Res :=
  .next (s.fenceCmd w q site (fun s k => if s.siteState k = 7 then (.accessDenied, s) else (.ok, s.startFence k 4)))

/-- FENCE_DRAIN_END (R195 steps 3 and 6): the started requests of a fenced site have completed; the site is fenced. Causes 2 and 3 stop its
switch, whose flits are lost (R176). -/
def execFenceDrainEnd (st : SiteId) (s : State) : Res :=
  .next (let k := siteKey st
    let t := s.stn k
    match t.fence with
    | some c =>
      if s.ord.reqs.any (fun r => r.chan.eng == siteEng k) then s
      else
        let s := (s.setSiteState k 6).setFld F.STN_SITE_CAUSE c (siteQ k) (siteI k)
        let s := s.count F.STN_CNT_FENCES 1 (siteQ k)
        let lv := s.fld F.STN_SITE_LV (siteQ k) (siteI k)
        let s := s.event (siteSrc k) 1 [c + lv * 2 ^ 3 + (if lv = 1 then s.siteCtx k * 2 ^ 4 + t.loom.getD 0 * 2 ^ 16 else 0)]
        let s := s.raise (0x045 + 0x40 * siteQ k)
        let s := s.updStn k (fun t => { t with fence := none })
        let lost := t.sw.foldl (fun n e => n + e.2.length) 0
        let s := if c = 2 ∨ c = 3 then (s.dropFlits k lost).updStn k (fun t => { t with sw := [] }) else s.deliverWeft k
        match t.loom with
        | some n => (s.checkPaused n).settleLooms
        | none => s
    | none => s)

/-- Starts the self-test of a fenced site (R197). -/
def State.startSelftest (s : State) (k : Nat) : State :=
  let q := siteQ k
  let s := s.ungate q
  (((s.updStn k (fun t => { t with selftest := true })).setFld F.STN_FENCE_STAT_ST_DONE 0 q).setFld F.STN_FENCE_STAT_ST_PASS 0 q).setFld
    F.STN_FENCE_STAT_ST_FIRST 0 q

/-- SELFTEST_CMD (R197). -/
def execSelftestCmd (w : Writer) (q : Quarter) (site : BitVec 9) (s : State) : Res :=
  .next (s.fenceCmd w q site (fun s k => if s.siteState k = 6 then (.ok, s.startSelftest k) else (.accessDenied, s)))

/-- Retires a site; the settings ledger records it (R197, R347 to R349). A failed self-test is the site's last fault, with cause 5 (R194,
Table 7-7); the event names the cause of the fence (Table 14-15). -/
def State.retireSite (s : State) (k first : Nat) (byCmd : Bool) : State :=
  let cause := s.siteCause k
  let s := s.setSec { s.sec with retired := smSet false s.sec.retired k true }
  let s := (s.ledgerChange .retire (2 * k) (2 * k + 1) []).setSiteState k 7
  let s := if byCmd then s else s.setFld F.STN_SITE_CAUSE 5 (siteQ k) (siteI k)
  s.event (siteSrc k) 3 [first + cause * 8 + (if byCmd then 64 else 0)]

/-- RETIRE_CMD (R197): a fenced site is retired without a test. -/
def execRetireCmd (w : Writer) (q : Quarter) (site : BitVec 9) (s : State) : Res :=
  .next (s.fenceCmd w q site (fun s k => if s.siteState k = 6 then (.ok, s.retireSite k 0 true) else (.accessDenied, s)))

/-- SELFTEST_END (R197): `first` is the first test that failed, 0 for a pass. The site's contents and trap record are overwritten (R196,
R233). With no captain it waits (Table 7-8). -/
def execSelftestEnd (st : SiteId) (first : Fin 7) (s : State) : Res :=
  .next (let k := siteKey st
    let q := siteQ k
    let i := siteI k
    if (s.stn k).selftest ∧ s.siteState k = 6 ∧ s.firmware = true then
      let s := (s.setStn k ((s.stn k).cleared 0)).setFld F.STN_SITE_LV 0 q i
      let s := (((s.setReg .STN_TRAP0 0 q i).setReg .STN_TRAP1 0 q i).setReg .STN_TRAP2 0 q i).setReg .STN_TRAP3 0 q i
      let s := s.setFld F.STN_FENCE_STAT_ST_DONE 1 q
      let s := (s.setFld F.STN_FENCE_STAT_ST_PASS (if first.val = 0 then 1 else 0) q).setFld F.STN_FENCE_STAT_ST_FIRST first.val q
      let s := if first.val = 0 then
          let cause := s.siteCause k
          (s.setSiteState k 0).event (siteSrc k) 2 [cause * 8]
        else s.retireSite k first.val false
      s.raise (0x047 + 0x40 * q)
    else s)

end Sys2Proof.Machine
end

