-- ==== Sys2Proof/Machine/Mend.lean ====
section
/-!
DEFINITION. Fence and mend: the replacement of a fenced site, the paths its routes take, and the resume of its loom set (R198, R242, R257 to
R260).
-/
namespace Sys2Proof.Machine
open Sys2Proof

/-! ### Paths (R242) -/

/-- Directions from one site to another, along the row first, or along the column first. -/
def straight (a b : Nat) (ewFirst : Bool) : List Nat :=
  let ew := if siteCol a < siteCol b then List.replicate (siteCol b - siteCol a) 1 else List.replicate (siteCol a - siteCol b) 3
  let ns := if siteRow a < siteRow b then List.replicate (siteRow b - siteRow a) 2 else List.replicate (siteRow a - siteRow b) 0
  if ewFirst then ew ++ ns else ns ++ ew

/-- The sites that directions enter stay in the grid and have running switches. -/
def State.clear (s : State) (a : Nat) (ds : List Nat) : Bool :=
  match pathSites a (ds.map (fun d => (d, false))) with
  | some ps => ps.all (fun x => !s.switchOff x.1)
  | none => false

/-- A partial path of the search: the site it has reached, its directions backwards, and its legs. -/
structure Probe where
  site : Nat
  back : List Nat
  legs : Nat
  deriving DecidableEq, Repr

/-- One level of the search for a shortest path of up to six legs, neighbours in the order N, E, S, W. -/
def State.widen (s : State) (front : List Probe) (seen : List (Nat × Nat × Nat)) : List Probe × List (Nat × Nat × Nat) :=
  front.foldl (fun acc x => (List.range 4).foldl (fun (acc : List Probe × List (Nat × Nat × Nat)) d =>
    match neighbour x.site d with
    | some j =>
      let legs := if x.back.head? = some d then x.legs else x.legs + 1
      if s.switchOff j || 6 < legs || acc.2.contains (j, d, legs) then acc
      else (acc.1 ++ [⟨j, d :: x.back, legs⟩], acc.2 ++ [(j, d, legs)])
    | none => acc) acc) ([], seen)

def State.search (s : State) (b : Nat) : Nat → List Probe → List (Nat × Nat × Nat) → Option (List Nat)
  | 0, _, _ => none
  | n + 1, front, seen =>
    match front.find? (fun x => x.site == b) with
    | some x => some x.back.reverse
    | none => let r := s.widen front seen; s.search b n r.1 r.2

/-- Directions from a site to another by the placer's rule: along the row first, where that is blocked along the column first, where both are
blocked the shortest path of up to six legs. -/
def State.pathTo (s : State) (a b : Nat) : Option (List Nat) :=
  if s.clear a (straight a b true) then some (straight a b true)
  else if s.clear a (straight a b false) then some (straight a b false)
  else s.search b 324 [⟨a, [], 0⟩] []

/-- Hops through a list of sites in order, each of which takes a copy. -/
def State.hopsVia (s : State) (a : Nat) : List Nat → Option (List (Nat × Bool))
  | [] => some []
  | b :: rest =>
    match s.pathTo a b with
    | none => none
    | some ds =>
      let n := ds.length
      (s.hopsVia b rest).map (fun hs => ds.zipIdx.map (fun x => (x.1, x.2 + 1 == n)) ++ hs)

/-- Legs of hops: runs of one direction and one delivery flag. The last hop delivers in any case, so it takes the flag of the leg it ends. -/
def legsOf (hs : List (Nat × Bool)) : List (Nat × Bool × Nat) :=
  let hs := match hs.reverse with
    | (d, _) :: (d', f) :: rest => (((if d = d' then (d, f) else (d, false)) :: (d', f) :: rest)).reverse
    | [(d, _)] => [(d, false)]
    | [] => []
  (hs.foldl (fun (acc : List (Nat × Bool × Nat)) h =>
    match acc with
    | (d, f, n) :: rest => if d = h.1 ∧ f = h.2 ∧ n < 17 then (d, f, n + 1) :: rest else (h.1, h.2, 1) :: acc
    | [] => [(h.1, h.2, 1)]) []).reverse

/-- A TX entry to a list of sites; none where no path of six legs without a repeat exists. -/
def State.txEntry (s : State) (a : Nat) (dests : List Nat) : Option Nat :=
  match s.hopsVia a dests with
  | none => none
  | some hs =>
    let legs := legsOf hs
    let ps := ((pathSites a hs).getD []).map (·.1)
    if legs.length ≤ 6 ∧ ps.Nodup then
      some (legs.zipIdx.foldl (fun w x => w + (x.1.1 + x.1.2.2 * 4 + (if x.1.2.1 then 128 else 0)) * 2 ^ (8 * x.2)) (2 ^ 63))
    else none

/-- A route of site `a` after `old` was replaced by `new`: paths that reach the old site, and every path of the replacement, are made again;
entries that name the old site as sender name the new one (R258). A route for which there is no path is not loaded. -/
def State.reroute (s : State) (a old new : Nat) (own : Bool) (r : Nat) : Nat :=
  if !routeV r then r
  else if routeRx r then (if rxSite r = siteI old then r - rxSite r + siteI new else r)
  else
    let from_ := if own then old else a
    let ds := routeDests from_ r
    if own || ds.contains old then (s.txEntry a (ds.map (fun d => if d = old then new else d))).getD 0 else r

/-- The routes of a station with each entry rewritten. -/
def rewriteRoutes (m : List (Nat × BitVec 64)) (f : Nat → Nat) : List (Nat × BitVec 64) :=
  (List.range 16).foldl (fun m i => smSet 0 m i (BitVec.ofNat 64 (f (smGet 0 m i).toNat))) m

/-! ### Mend (R258) -/

/-- Grid distance of two sites of a quarter. -/
def gridDist (a b : Nat) : Nat :=
  (siteRow a - siteRow b) + (siteRow b - siteRow a) + (siteCol a - siteCol b) + (siteCol b - siteCol a)

/-- The nearest of some sites, the lowest number on a tie. -/
def nearest (k : Nat) (cs : List Nat) : Option Nat :=
  cs.foldl (fun (a : Option Nat) c => match a with
    | some b => if gridDist k c < gridDist k b then some c else a
    | none => some c) none

/-- The replacement for a fenced site: a spare of its quarter, else an idle enabled site (R258). -/
def State.replacement (s : State) (k : Nat) : Option Nat :=
  let cs := (List.range 324).map (fun i => siteQ k * 324 + i)
  match nearest k (cs.filter (fun j => s.siteState j == 0)) with
  | some j => some j
  | none => nearest k (cs.filter (fun j => s.siteState j == 1))

/-- A mend is over: its interrupt, its report, and the resume of the set once no mend of it is left
(R257 step 4). The self-test follows a mend that took its replacement (R197). -/
def State.mendOver (s : State) (m : Mend) (new : Nat) (st : Status) : State :=
  let s := s.setLm { s.lm with mends := s.lm.mends.filter (fun x => !(x.site == m.site && x.loom == m.loom)) }
  let dur := min 65535 ((s.now - m.start + 500) / 1000)
  let s := s.setReg .STN_MEND_STAT
    (m.loom + siteI m.site * 2 ^ 6 + siteI new * 2 ^ 15 + siteQ m.site * 2 ^ 24 + st.code * 2 ^ 26 + dur * 2 ^ 30) 0
  let s := s.raise (0x049 + 0x40 * siteQ m.site)
  let s := if s.mending m.loom then s else ((s.loomMates m.loom).foldl (fun s n => s.resumeLoom n) s).settleLooms
  if st = .ok ∧ s.flag F.STN_QCTL_ST_AUTO (siteQ m.site) ∧ s.siteState m.site = 6 ∧ !(s.stn m.site).selftest then s.startSelftest m.site else s

/-- The mend the captain takes next: the first raised of those whose site's fence is over and that wait (R21). A self-test of the site may have made
it a spare, or retired it, meanwhile. -/
def State.nextMend (s : State) : Option Mend := s.lm.mends.find? (fun m => m.dst.isNone && (s.stn m.site).fence.isNone)

/-- MEND_START (R21, R258): the captain acts on the fence of a site, in the order the requests were raised. The replacement takes the stage program,
as the fenced site's instruction cache held it (log 56), and its entry pcs and routes; with none, the draft is lost and its queued calls end BUSY. -/
def execMendStart (st : SiteId) (s : State) : Res :=
  .next (let k := siteKey st
    match s.nextMend with
    | none => s
    | some m =>
      if !s.flag F.STN_MEND_CTL_AUTO || !s.firmware || m.site ≠ k then s
      else match s.replacement k with
        | none =>
          let gone := (((s.loom m.loom).drafts[m.draft]?).map (·.queue)).getD []
          let s := s.updDraft m.loom m.draft (fun x => { x with lost := true, queue := [] })
          let s := gone.foldl (fun s c => s.endQueued c .busy) s
          s.mendOver { m with start := s.now } 0 .busy
        | some r =>
          let s := s.loadSite m.loom m.draft r m.prog m.code []
          s.setLm { s.lm with mends := s.lm.mends.map (fun (x : Mend) => if x.site = k ∧ x.loom = m.loom then { x with dst := some r, start := s.now } else x) })

/-- PAUSE_WAIT_EXPIRY (R257 step 3): firmware waits for the whole set no longer. -/
def execPauseWaitExpiry (n : Loom) (s : State) : Res :=
  .next (let mates := s.loomMates n.val
    s.setLm { s.lm with mends := s.lm.mends.map (fun (m : Mend) =>
      if mates.contains m.loom ∧ m.dst.isSome ∧ m.start + s.fld1 F.STN_MEND_CTL_PAUSE_US * 1000 ≤ s.now then { m with waited := true } else m) })

/-- MEND_COMPLETE (R257 steps 3 and 4, R258): once the failed call has ended, the set has paused or is waited for no longer, and every station
whose routes change has paused, routes are rewritten and the replacement joins its draft. -/
def execMendComplete (st : SiteId) (s : State) : Res :=
  .next (let s := s.settleLooms
    let k := siteKey st
    match s.lm.mends.find? (fun m => m.site == k && m.dst.isSome) with
    | none => s
    | some m =>
      match m.dst with
      | none => s
      | some r =>
        let l := s.loom m.loom
        let others := (l.stns.map (·.site)).filter (· ≠ k)
        let change (j : Nat) : Bool := (s.stn j).routes.any (fun e => s.reroute j k r false e.2.toNat ≠ e.2.toNat)
        let paused := m.waited || (s.loomMates m.loom).all (fun n => s.loomState n == 4)
        let free := match l.drafts[m.draft]? with | some x => x.run.isNone | none => true
        if !s.firmware || !free || !paused || others.any (fun j => change j && s.siteState j == 3) then s
        else
          let s := others.foldl (fun s j => s.updStn j (fun t => { t with routes := rewriteRoutes t.routes (s.reroute j k r false) })) s
          let key := BitVec.ofNat 64 (s.regVal .STN_LOOM_KEY 0 m.loom)
          let s := s.updStn r (fun t =>
            { t with routes := rewriteRoutes m.routes (s.reroute r k r true), key := key, loadAt := s.now
                     pausing := s.loomState m.loom == 3 || s.loomState m.loom == 4 })
          let s := s.setSiteState r (if (s.stn r).pausing then 4 else 3)
          let s := s.updLoom m.loom (fun l =>
            { l with stns := l.stns.map (fun (e : StnEnt) => if e.site = k then { e with site := r } else e)
                     sites := l.sites.map (fun j => if j = k then r else j) })
          let s := if s.siteState k < 6 then s else (s.updStn k (fun t => { t with loom := none })).setFld F.STN_SITE_LV 0 (siteQ k) (siteI k)
          s.mendOver m r .ok)

end Sys2Proof.Machine
end

