-- ==== Sys2Proof/Machine/PoolCmds.lean ====
section
/-!
DEFINITION. Commands of the pool engine: fabric requests, completions, aborts, hints, versioned operations and region commands
(R34, R64 to R90, R138, R282).
-/
namespace Sys2Proof.Machine
open Sys2Proof

/-! ### Requests -/

/-- Pieces of a plain packet. -/
def plainOf (k : Packet) (s : State) (c : Nat) : Option (List Piece) :=
  if lenOk k.lenN then some (s.plainPieces c k.addr.toNat k.lenN) else none

/-- Pieces of a versioned packet. -/
def versionOf (k : Packet) (_s : State) (_c : Nat) : Option (List Piece) :=
  if lenOk k.lenN then some (versionPieces k.addr.toNat k.lenN) else none

/-- RD (R34). -/
def execRd (p : Arr) (k : Packet) (s : State) : Res :=
  .next (s.onArrival p.val 1 k (fun s => (s.intake p.val k .read (plainOf k)).settle))

/-- WR (R34, R106, R282). -/
def execWr (p : Arr) (k : Packet) (s : State) : Res :=
  .next (s.onArrival p.val 2 k (fun s => (s.writeIntake p.val k .write (plainOf k)).settle))

/-- VRD: VREAD through a version handle (R82, R86). -/
def execVrd (p : Arr) (k : Packet) (s : State) : Res :=
  .next (s.onArrival p.val 4 k (fun s => (s.intake p.val k .vread (versionOf k)).settle))

/-- VWR: VWRITE through a pending handle (R82, R86). -/
def execVwr (p : Arr) (k : Packet) (s : State) : Res :=
  .next (s.onArrival p.val 5 k (fun s => (s.writeIntake p.val k .vwrite (versionOf k)).settle))

/-- HINT (R138). -/
def execHint (p : Arr) (k : Packet) (s : State) : Res :=
  .next (s.onArrival p.val 7 k (fun s => (s.intake p.val k .hint (plainOf k)).settle))

/-- A versioned operation takes its place in its channel (R78, R80). -/
def State.vop (s : State) (p : Nat) (k : Packet) (sub : Nat) (kind : ReqKind) : State :=
  s.onArrival p 3 k (fun s => if k.subop = sub then (s.intake p k kind (fun _ _ => some [])).settle else s)

/-- VOP_OPEN (R80, R81). -/
def execVopOpen (p : Arr) (k : Packet) (s : State) : Res := .next (s.vop p.val k 0 .vopen)
/-- VOP_CLOSE (R81). -/
def execVopClose (p : Arr) (k : Packet) (s : State) : Res := .next (s.vop p.val k 1 .vclose)
/-- VOP_BEGIN (R80, R82). -/
def execVopBegin (p : Arr) (k : Packet) (s : State) : Res := .next (s.vop p.val k 2 .vbegin)
/-- VOP_PUBLISH (R83): the request waits; PUBLISH_COMMIT applies it. -/
def execVopPublish (p : Arr) (k : Packet) (s : State) : Res := .next (s.vop p.val k 3 .vpublish)
/-- VOP_DISCARD (R80). -/
def execVopDiscard (p : Arr) (k : Packet) (s : State) : Res := .next (s.vop p.val k 4 .vdiscard)

/-! ### Completions -/

/-- POOL_PIECE_COMPLETE (R73): a piece that its stack or home device has served folds into its request. -/
def execPoolPieceComplete (id : Nat) (n : Nat) (s : State) : Res :=
  .next (match s.piece id n with
    | some x => if x.state = .served then (s.updPiece id n (fun p => { p with state := .done })).settle else s
    | none => s)

/-- The piece that waits for a reply of tag `tag` from port `p` on channel `ch` (R39). -/
def State.remotePiece (s : State) (p tag ch : Nat) : Option (Req × Nat × Piece) :=
  s.ord.reqs.findSome? (fun r =>
    if r.chan.ch = ch then
      r.pieces.zipIdx.findSome? (fun x => if x.1.state = .remote p tag then some (r, x.2, x.1) else none)
    else none)

/-- Replies of 64-byte sectors `ss` of a piece as sectors of its request. -/
def pieceSectors (base off : Nat) (ss : List Nat) (len : Nat) : List Nat :=
  ss.foldl (fun a i => if 64 * i < len then
    (sectorsOf (base + off + 64 * i) (min 64 (len - 64 * i))).foldl (fun a n => insertSorted n a) a else a) []

/-- RDATA (R39, R282): data of a forwarded read lands, with its poison mask; data for a request the hub forwarded goes on to its
requester. -/
def execRdata (p : Arr) (k : Packet) (s : State) : Res :=
  .next (s.onArrival p.val 0x10 k (fun s =>
    match s.remotePiece p.val k.tagN k.chN with
    | none => s
    | some (r, n, x) =>
      let o := x.off + k.offN
      let len := min k.payload.length (x.len - k.offN)
      let mask := bits k.w3.toNat 32 32
      let bad := pieceSectors r.base o ((List.range 32).filter mask.testBit) len
      s.updReq r.id (fun r =>
        ({ r with data := r.data.take o ++ k.payload.take len ++ r.data.drop (o + len) } : Req).updPiece n (fun y =>
          { y with failed := bad.foldl (fun a i => insertSorted i a) y.failed }))))

/-- CMPL_PACKET (R39, R73, R282): the completion of a forwarded piece, folded into its request with the home device's status. -/
def execCmplPacket (p : Arr) (k : Packet) (s : State) : Res :=
  .next (s.onArrival p.val 0x11 k (fun s =>
    match s.remotePiece p.val k.tagN k.chN with
    | none => s.chainAnswer k
    | some (r, n, x) =>
      let w0 := wordAt k.payload 0
      let w1 := wordAt k.payload 8
      let st := statusOf (bits w0 20 4)
      let worst := statusOf (bits w0 24 4)
      let all := (List.range ((x.len + 63) / 64))
      let bad := if st = .ok then [] else if w0.testBit 28 then all.filter w1.testBit
        else if st = .partialFail then (if x.failed.isEmpty then all.filter (bits w0 32 32 ≤ ·) else []) else all
      let bad := pieceSectors r.base x.off bad x.len
      let s : State := { s with hub := { s.hub with flows := s.hub.flows.filter (fun f =>
        !(f.onChan 15 k.dstN k.chN && f.pkt.tag == k.tag)) } }
      (s.updPiece r.id n (fun y => { y with
        state := .served
        status := worseOf y.status (if st = .partialFail then worst else st)
        failed := bad.foldl (fun a i => insertSorted i a) y.failed })).settle))

/-! ### Aborts (R75 to R77) -/

/-- A request an abort can still stop: nothing of it has started, or its version unit has not applied it (R76). -/
def Req.abortable (r : Req) : Bool := !r.refused && !r.complete && r.pieces.all (fun p => !p.begun)

/-- An abort takes a waiter out of the counts of the fault-table entries that hold the request (R77). -/
def State.unjoin (s : State) (r : Req) : State :=
  let holds (f : FaultEntry) : Bool := r.pieces.any (fun p => p.state == .held f.q f.e)
  { s with xlt := { s.xlt with faults := s.xlt.faults.map (fun f => if holds f then { f with joined := f.joined - 1 } else f) } }

/-- Decides an abort of request `tag` of a channel; true when the abort won. A resume or revoke of the same cycle wins over it (Table 3-5). -/
def State.abort (s : State) (c : Chan) (tag : Nat) : Bool × State :=
  match s.ord.reqs.find? (fun r => r.chan == c && r.tag == tag && !r.refused) with
  | some r =>
    if r.abortable && !r.pieces.any (fun p => p.retried == some s.now) then
      let s := (s.unjoin r).updReq r.id (fun r => { r with fixed := some .busy, abt := true, pieces := [] })
      (true, (s.count F.XLT_ORD_CNT_ABORT_WON 1 r.chan.eng.quarter).dropWaiters)
    else (false, s)
  | none => (false, s)

/-- ABORT (R75): ACH and ATAG name the target within the sender's context and port; it is decided at the end of the cycle (R77). A target that is
a waiting call is decided at its draft (R245). -/
def execAbort (p : Arr) (k : Packet) (s : State) : Res :=
  .next (s.onArrival p.val 6 k (fun s =>
    match s.ctxOf p.val k.srcN with
    | none => (s.countDeny (arrQuarter p.val)).refuse p.val k .accessDenied
    | some c => s.decideLate (.abort ⟨c, .port p.val, bits k.w4.toNat 16 3⟩ (bits k.w4.toNat 0 16) (.port p.val k c))))

/-! ### Versions and regions (R78 to R90) -/

/-- PUBLISH_COMMIT (R83 to R85): a PUBLISH whose earlier requests have all completed asks its version unit, which answers at the end of the cycle
(R78, R88). -/
def execPublishCommit (id : Nat) (s : State) : Res :=
  .next (match s.req id with
    | none => s
    | some r =>
      if r.kind = .vpublish ∧ r.fixed.isNone ∧ s.ord.reqs.all (fun x => x.chan ≠ r.chan || id ≤ x.id) ∧
          !s.atBridge r (vhRegion r.vh % 4) then s.markUnit id
      else s)

/-- The lease of a version has run out and it still has opens (R81). -/
def State.leaseOver (s : State) (r n : Nat) : Bool :=
  let x := s.region r
  let v := x.slots.getD n {}
  let lease := s.fld F.XLT_VER_RGN_CFG_LEASE 0 r * 1000000
  match v.stopped with
  | some t => v.used && v.opens != 0 && n != x.curSlot && lease != 0 && decide (t + lease ≤ s.now)
  | none => false

/-- VERSION_LEASE_EXPIRY (R81): at the end of the cycle, after a CLOSE of the same cycle (R88). -/
def execVersionLeaseExpiry (r : Region) (n : Fin 16) (s : State) : Res :=
  .next (if s.leaseOver r.val n.val then s.decideLate (.lease r.val n.val) else s)

/-- The refusals of R78 for a write that makes a region valid. -/
def State.regionOk (s : State) (r v : Nat) : Bool :=
  let c := F.XLT_VER_RGN_ID_CTX.of v
  let g := F.XLT_VER_RGN_ID_SEG.of v
  let sh := F.XLT_VER_RGN_ID_SHSEG.of v
  let remote (x : Nat) : Bool := F.XLT_SEG_ATTR_REMOTE.of (s.segAttr c x) == 1
  s.ctxV c && s.segV c g && s.segV c sh && !remote g && !remote sh && g ≠ sh &&
    F.XLT_SEG_ATTR_PCLASS.of (s.segAttr c g) == F.XLT_SEG_ATTR_PCLASS.of (s.segAttr c sh) &&
    s.rgnFirst r + s.rgnPages r ≤ s.segLen c g &&
    (s.regionsWhere (fun x => x != r && s.rgnCtx x == c && s.rgnSeg x == g &&
      overlap (s.rgnFirst x) (s.rgnPages x) (s.rgnFirst r) (s.rgnPages r))).isEmpty

/-- XLT_VER_RGN_ID_WRITE (R78, Table 3-12): setting V makes the segment's current contents version 1. -/
def execXltVerRgnIdWrite (w : Writer) (r : Region) (v : BitVec 64) (s : State) : Res :=
  .next (s.regWrite w .XLT_VER_RGN_ID 0 (fun s =>
    if s.rgnV r.val then s.respond .accessDenied
    else if F.XLT_VER_RGN_ID_V.of v.toNat = 1 then
      if s.regionOk r.val v.toNat then
        let x := s.region r.val
        let v0 := x.slots.getD 0 {}
        let x : RegionSt := { x with cur := 1, curSlot := 0 }
        let s := s.setRegion r.val (x.setSlot 0 { used := true, ver := 1, serial := max 1 v0.serial, ended := v0.ended })
        s.plainWrite .XLT_VER_RGN_ID 0 r.val 0 v.toNat
      else s.respond .accessDenied
    else s.plainWrite .XLT_VER_RGN_ID 0 r.val 0 v.toNat))

/-- Answers a command of `XLT_VER_CMD` (Table 3-11): RESULT and the write's status. -/
def State.verResult (s : State) (st : Status) (w : Status) : State :=
  (s.setFld F.XLT_VER_CSTAT_RESULT st.code).respond w

/-- FORCE_CLOSE (R81, R90): OP 0 with P = 0. -/
def execForceClose (w : Writer) (r : Region) (n : Fin 16) (s : State) : Res :=
  .next (s.regWrite w .XLT_VER_CMD 0 (fun s =>
    if s.rgnV r.val && ((s.region r.val).slots.getD n.val {}).used then (s.endOpens r.val n.val).settle.verResult .ok .ok
    else s.verResult .accessDenied .ok))

/-- DISCARD_PENDING_SLOT (R90): OP 1 with P = 1. -/
def execDiscardPendingSlot (w : Writer) (r : Region) (n : Fin 16) (s : State) : Res :=
  .next (s.regWrite w .XLT_VER_CMD 0 (fun s =>
    let x := s.region r.val
    if s.rgnV r.val && (x.pends.getD n.val {}).used then
      ((s.setRegion r.val (x.setPend n.val (x.pends.getD n.val {}).free)).settle).verResult .ok .ok
    else s.verResult .accessDenied .ok))

/-- DESTROY_REGION (R87, R90): OP 2. -/
def execDestroyRegion (w : Writer) (r : Region) (s : State) : Res :=
  .next (s.regWrite w .XLT_VER_CMD 0 (fun s =>
    if s.rgnV r.val then
      ((s.killRegion r.val).invalidate (fun c g => c == s.rgnCtx r.val && g == s.rgnSeg r.val) |>.settle).verResult .ok .ok
    else s.verResult .accessDenied .ok))

end Sys2Proof.Machine
end

