-- ==== Sys2Proof/Machine/Recorder.lean ====
section
/-!
DEFINITION. The event recorder: its records in the nonvolatile store, its samples, and its commands (R366 to R372).
-/
namespace Sys2Proof.Machine
open Sys2Proof

/-! ### Records (R367, R368) -/

/-- CRC-32C of bytes (Table 14-7). -/
def crc32c (bs : List (BitVec 8)) : Nat :=
  chkResult 32 (bs.foldl (fun r b => chkByte 32 0x1EDC6F41 true r b.toNat) 0xFFFFFFFF) 0xFFFFFFFF true

/-- The record with the CRC of its bytes 0 to 251. -/
def recSeal (d : BitVec 2048) : BitVec 2048 := recSet d 31 32 32 (crc32c (toBytes 252 (d.toNat % 2 ^ 2016)))

/-- Word 0 and word 31 of a record written under number `n` (Table 14-11). -/
def recStamp (d : BitVec 2048) (n kind inst : Nat) (open_ dmg : Bool) : BitVec 2048 :=
  let w0 := n + kind * 2 ^ 32 + inst * 2 ^ 40 + 2 ^ 48 + (if open_ then 2 ^ 52 else 0) + (if dmg then 2 ^ 53 else 0)
  recSeal (recSet (recSet d 0 0 64 w0) 31 0 32 n)

def State.evrSlot (s : State) (i : Nat) : BitVec 2048 := smGet 0 s.evr.slots i
def State.setEvrSlot (s : State) (i : Nat) (d : BitVec 2048) : State := s.setEvr { s.evr with slots := smSet 0 s.evr.slots i d }

/-- One record write: it takes the next write number, and HEAD names its slot (R368, R369). -/
def State.evrWrite (s : State) (slot kind inst : Nat) (d : BitVec 2048) (open_ : Bool) : State :=
  let n := (s.evr.writeNo + 1) % 2 ^ 32
  let s := s.setEvrSlot slot (recStamp d n kind inst open_ (recGet d 0 53 1 == 1))
  s.setEvr { s.evr with writeNo := n, head := slot }

/-- A record found damaged: word 31 is written again with SEQ_B = SEQ_A, DMG is set, and the recorder reports it; `fail` says that a
store write failed its verification (R370). -/
def State.evrDamaged (s : State) (slot : Nat) (fail : Bool) : State :=
  let d := s.evrSlot slot
  let d := recSeal (recSet (recSet d 31 0 32 (recGet d 0 0 32)) 0 53 1 1)
  let s := if fail then s.count F.EVR_CNT_NVERR 1 else s
  ((s.setEvrSlot slot d).raise 0x1C6).event srcEvr 1 [slot + (if fail then 2 ^ 14 else 0)]

/-- Store writes that failed their verification. -/
def State.evrFailed (s : State) (bad : List (BitVec 14)) : State := bad.foldl (fun s i => s.evrDamaged i.toNat true) s

/-- KIND of a slot; 0 = free. -/
def State.slotKind (s : State) (i : Nat) : Nat := recGet (s.evrSlot i) 0 32 8
def State.slotOpen (s : State) (i : Nat) : Bool := recGet (s.evrSlot i) 0 52 1 == 1

/-- The ring slot after `i`. -/
def nextRing (i : Nat) : Nat := if i = 16383 then 64 else i + 1

/-- The first of `n` ring slots from `i` on that satisfies `p`. -/
def findRing (p : Nat → Bool) : Nat → Nat → Option Nat
  | 0, _ => none
  | n + 1, i => if p i then some i else findRing p n (nextRing i)

/-- The ring slot of a new record: the following free one, or that of the oldest closed record (R367). -/
def State.ringSlot (s : State) : Nat :=
  let i := nextRing s.evr.ringAt
  match findRing (fun i => s.slotKind i == 0) 16320 i with
  | some i => i
  | none =>
    let age (i : Nat) : Nat := (s.evr.writeNo + 2 ^ 32 - recGet (s.evrSlot i) 0 0 32) % 2 ^ 32
    ((s.evr.slots.filter (fun e => 64 ≤ e.1 && !s.slotOpen e.1)).foldl (fun (a : Option Nat) e =>
      match a with
      | none => some e.1
      | some b => if age b < age e.1 then some e.1 else a) none).getD i

/-- Hours of a period as they act (Table 14-14). -/
def State.periodH (s : State) : Nat := min 168 (s.fld1 F.EVR_CTL_PERIOD_H)

/-- A blank record that starts now. -/
def State.newRec (s : State) : BitVec 2048 :=
  recSet (recSet (recSet (0 : BitVec 2048) 1 0 32 s.opS) 1 32 32 s.opS) 2 0 32 s.evr.pcyc

/-- Opens the record of a kind and instance in a ring slot. -/
def State.openRec (s : State) (kind inst slot : Nat) : State :=
  let o : OpenRec := ⟨kind, inst, slot, s.opS + s.periodH * 3600, s.newRec⟩
  let s := s.setEvr { s.evr with opens := s.evr.opens ++ [o] }
  s.evrWrite slot kind inst o.data true

/-- Opens a record in the following ring slot; an overwritten one is counted (R367). -/
def State.openNext (s : State) (kind inst : Nat) : State :=
  let i := s.ringSlot
  let s := if s.slotKind i = 0 then s else (s.count F.EVR_CNT_WRAPS).setEvr { s.evr with count := s.evr.count - 1 }
  (s.setEvr { s.evr with ringAt := i }).openRec kind inst i

/-- The kinds and instances that have an open record (Table 14-10): 62 in all. -/
def evrKinds : List (Nat × Nat) :=
  (List.range 16).map (fun x => (1, x)) ++ [(2, 0)] ++ (List.range 16).map (fun x => (3, x)) ++ (List.range 14).map (fun p => (4, p)) ++ [(5, 0)] ++
    (List.range 14).map (fun p => (6, p))

/-- Closes a record of the store that was left open: it keeps its last checkpoint (R367). -/
def State.closeLeft (s : State) (i : Nat) : State :=
  let d := s.evrSlot i
  let s := s.setEvr { s.evr with count := s.evr.count + 1 }
  if recGet d 0 0 32 = recGet d 31 0 32 then s.evrWrite i (recGet d 0 32 8) (recGet d 0 40 8) d false
  else (s.setEvrSlot i (recSet d 0 52 1 0)).evrDamaged i false

/-- The recorder at power-on: PCYC rises, records left open close, new ones open (R366, R367, R370). `torn` says what the store holds
where the power loss cut a record write. -/
def State.evrPowerOn (s : State) (torn : List (BitVec 14 × BitVec 2048)) : State :=
  let s := s.setEvr { s.evr with pcyc := (s.evr.pcyc + 1) % 2 ^ 32, opens := [], ckptAt := 0 }
  let s := torn.foldl (fun s t => if s.slotOpen t.1.toNat ∧ 64 ≤ t.1.toNat then s.setEvrSlot t.1.toNat (recSet t.2 0 52 1 1) else s) s
  let left := (s.evr.slots.filter (fun e => 64 ≤ e.1 && s.slotOpen e.1)).map (·.1)
  let s := left.foldl (fun s i => s.closeLeft i) s
  evrKinds.foldl (fun s k => s.openNext k.1 k.2) s

/-! ### Commands -/

/-- The highest stack reading and its stack (R380). -/
def State.stkMax (s : State) : State :=
  let m := (List.range 16).foldl (fun (a : Nat × Nat) x => let t := s.fld F.STK_STAT_TEMP x; if a.1 < t then (t, x) else a) (s.fld F.STK_STAT_TEMP 0, 0)
  (s.setFld F.PWR_TEMP_STK_MAX m.1).setFld F.PWR_TEMP_STK_ID m.2

/-- A minimum and a maximum of `n` bits each, side by side; `first` says that the record has none yet. -/
def recMinMax (d : BitVec 2048) (w lo n v : Nat) (first : Bool) : BitVec 2048 :=
  let d := if first ∨ v < recGet d w lo n then recSet d w lo n v else d
  if first ∨ recGet d w (lo + n) n < v then recSet d w (lo + n) n v else d

/-- EVR_SAMPLE (R367, R382): a reading enters its register and its open record. -/
def execEvrSample (x : Sample) (s : State) : Res :=
  .next (if s.evr.opens.isEmpty then s
    else
      let t := s.opS
      match x with
      | .stkTemp k c =>
        let c := min 255 c
        let s := (s.setTemp k.val c).stkMax
        s.evrNote 1 k.val (fun d =>
          let first := recSamples d = 0
          let d := if first ∨ recGet d 19 8 8 < c then recSet d 19 32 32 t else d
          recMinMax (recBin d (min 31 (c / 4))) 19 0 8 c first)
      | .supply mv input =>
        let mv := (mv.take 48).map (min 65535)
        let input := min 8191 input
        let s := (mv.zipIdx).foldl (fun s r => s.setFld F.PWR_RAIL_MEAS_MV r.1 0 r.2) (s.setFld F.PWR_STAT_V_IN input)
        s.evrNote 2 0 (fun d =>
          let first := recSamples d = 0
          (mv.zipIdx).foldl (fun d r => recMinMax d (3 + r.2 / 2) (32 * (r.2 % 2)) 16 r.1 first) (recMinMax d 27 0 16 input first))
      | .power w =>
        s.evrNote 5 0 (fun d =>
          let d := recBin d (min 31 (w / 100))
          let w := min 65535 w
          if recSamples d = 0 ∨ recGet d 19 0 16 < w then recSet (recSet d 19 0 16 w) 19 32 32 t else d))

/-- Minutes between checkpoints as they act. -/
def State.ckptNs (s : State) : Nat := s.fld1 F.EVR_CTL_CKPT_MIN * 60000000000

/-- EVR_CHECKPOINT (R367): every open record is rewritten in place; `bad` are slots whose write failed its verification. -/
def execEvrCheckpoint (bad : List (BitVec 14)) (s : State) : Res :=
  .next (if s.evr.opens.isEmpty ∨ s.now < s.evr.ckptAt + s.ckptNs then s
    else
      let t := s.opS
      let s := s.evr.opens.foldl (fun s o => s.evrWrite o.slot o.kind o.inst (recSet o.data 1 32 32 t) true) s
      (s.setEvr { s.evr with ckptAt := s.now }).evrFailed (bad.filter (fun i => s.evr.opens.any (fun o => o.slot == i.toNat))))

/-- A record whose period has ended is written a final time, and the next one opens in the following ring slot (R367). -/
def State.closeRec (s : State) (o : OpenRec) : State :=
  let s := s.evrWrite o.slot o.kind o.inst (recSet o.data 1 32 32 s.opS) false
  (s.setEvr { s.evr with opens := s.evr.opens.erase o, count := s.evr.count + 1 }).openNext o.kind o.inst

/-- EVR_PERIOD_END (R367). -/
def execEvrPeriodEnd (bad : List (BitVec 14)) (s : State) : Res :=
  .next (let done := s.evr.opens.filter (fun o => o.till ≤ s.opS)
    (done.foldl (fun s o => s.closeRec o) s).evrFailed (bad.filter (fun i => done.any (fun o => o.slot == i.toNat))))

/-- EVR_CURSOR_WRITE (R369). -/
def execEvrCursorWrite (w : Writer) (v : BitVec 64) (s : State) : Res :=
  .next (s.regWrite w .EVR_CURSOR 0 (fun s =>
    if 16368 < F.EVR_CURSOR_SLOT.of v.toNat then s.respond .accessDenied else s.plainWrite .EVR_CURSOR 0 0 0 v.toNat))

/-- The selected kinds are erased: closed ring records become free, open ones start a new period (R371 step 2). -/
def State.eraseKinds (s : State) (kinds : Nat) : State :=
  let sel (k : Nat) : Bool := kinds.testBit k
  let gone := (s.evr.slots.filter (fun e => 64 ≤ e.1 && s.slotKind e.1 ≠ 0 && !s.slotOpen e.1 && sel (s.slotKind e.1))).map (·.1)
  let s := gone.foldl (fun s i => s.setEvrSlot i 0) s
  let s := s.setEvr { s.evr with count := s.evr.count - gone.length }
  let open_ := s.evr.opens.filter (fun o => sel o.kind)
  let s := open_.foldl (fun s o => (s.setEvr { s.evr with opens := s.evr.opens.erase o }).openRec o.kind o.inst o.slot) s
  s

/-- EVR_CLEAR (R371): its payload names KINDS, DEVICE_ID and CLR_SEQ, then the signature over them (log 63). -/
def execEvrClear (p : Port) (k : Packet) (s : State) : Res :=
  .next (s.mgt p.val k (fun s d =>
    let kinds := bits (wordAt d 0) 0 16
    let key := if s.sec.owner.isEmpty then Config.romKey else s.sec.owner
    if wordAt d 8 ≠ Config.deviceId.toNat ∨ wordAt d 16 ≠ s.evr.clrSeq ∨ 64 ≤ s.evr.clears ∨ !Config.verifies key (d.take 24) (d.drop 24) then
      (.accessDenied, s)
    else
      let n := s.evr.count
      let s := s.eraseKinds kinds
      let erased := n - s.evr.count
      let r := s.newRec
      let r := recSet (recSet r 3 0 16 kinds) 3 16 32 (min (2 ^ 32 - 1) erased)
      let r := recSet (recSet (recSet r 4 0 64 (wordAt key 0)) 5 0 64 (wordAt key 8)) 6 0 64 s.evr.clrSeq
      let s := s.evrWrite s.evr.clears 7 0 r false
      (.ok, (s.setEvr { s.evr with clears := s.evr.clears + 1, clrSeq := (s.evr.clrSeq + 1) % 65536 }).raise 0x1C7)))

end Sys2Proof.Machine
end

