-- ==== Sys2Proof/Machine/Intc.lean ====
section
/-!
DEFINITION. Commands of the interrupt controller and of the check-value units (R352 to R364).
-/
namespace Sys2Proof.Machine
open Sys2Proof

/-! ### Delivery (R353, R354, R356, R358) -/

/-- The image of a call packet that an interrupt delivery sends (R353): TAG is the group, CH 0, RMODE 0, SEQV 0. -/
def groupCall (g cfg arg : Nat) : List (BitVec 8) :=
  wordBytes [g + F.INTC_GRP_CFG_LOOM.of cfg * 2 ^ 24 + F.INTC_GRP_CFG_ENTRY.of cfg * 2 ^ 30, arg, 0, 0, 0, 0, 0, 0]

/-- Sends the call of a group's last delivery: admitted, refused BUSY and sent again later, or refused ACCESS_DENIED (R353, R356). -/
def State.sendGroupCall (s : State) (g : Nat) : State :=
  let (cfg, arg) := smGet (0, 0) s.intc.sent g
  let bs := groupCall g cfg arg
  let x := s.callFrom bs
  match s.callCheck (some (s.loomCtx x.loom)) bs with
  | .ok =>
    let s := s.setIntc { s.intc with retryAt := smSet 0 s.intc.retryAt g 0 }
    if s.sentAutoc g then (s.admitCall x).completeGroup g else s.admitCall { x with group := some g }
  | .busy =>
    let s := s.refuseCall bs
    s.setIntc { s.intc with retryAt := smSet 0 s.intc.retryAt g (s.now + max 1 (F.INTC_GRP_CFG_HOLDOFF_US.of cfg) * 1000) }
  | _ =>
    let s := s.refuseCall bs
    s.setIntc { s.intc with err := s.intc.err ||| bit32 g, retryAt := smSet 0 s.intc.retryAt g 0 }

/-- The role `k` has group `g` in PEND, and its core is awake (R353, R358). -/
def State.deliverCore (s : State) (k g : Nat) : State :=
  let s := s.setIntc (if k = 0 then { s.intc with core0 := s.intc.core0 ||| bit32 g } else { s.intc with core1 := s.intc.core1 ||| bit32 g })
  (s.setFld F.INTC_CORE_ASLEEP 0 0 k).wakeDevice

/-- Delivers a group in service to its target (R353); what completes at delivery completes (Table 14-2). -/
def State.deliverGroup (s : State) (g : Nat) : State :=
  let cfg := s.regVal .INTC_GRP_CFG 0 g
  let s := s.setIntc { s.intc with
    deliv := smSet 0 s.intc.deliv g ((smGet 0 s.intc.deliv g + 1) % 2 ^ 32)
    sent := smSet (0, 0) s.intc.sent g (cfg, s.regVal .INTC_GRP_ARG 0 g) }
  match F.INTC_GRP_CFG_TGT.of cfg with
  | 0 => let s := s.deliverCore 0 g; if s.sentAutoc g then s.completeGroup g else s
  | 1 => let s := s.deliverCore 1 g; if s.sentAutoc g then s.completeGroup g else s
  | 2 =>
    let s := s.queueMsg ⟨0, [], some (F.INTC_GRP_CFG_VEC.of cfg), if s.sentAutoc g then .group g else .none⟩
    let s := s.wakeDevice
    match s.streamPort with
    | some p => s.wakePort p
    | none => s
  | _ => s.wakeDevice.sendGroupCall g

/-- A group delivers if it is ready and nothing holds it (R354). A group whose host message finds no room waits (R316). -/
def State.tryGroup (s : State) (g : Nat) : State :=
  if s.groupDelivers g ∧ !(s.fld F.INTC_GRP_CFG_TGT 0 g = 2 ∧ !s.msgRoom) then
    let srcs := (s.groupSrcs g).filter s.srcPending
    let s := s.setIntc { s.intc with
      snap := smSet [] s.intc.snap g srcs
      pend := srcs.foldl (fun p n => p &&& ~~~BitVec.ofNat 1024 (2 ^ n)) s.intc.pend
      serv := s.intc.serv ||| bit32 g
      holdEnd := smSet 0 s.intc.holdEnd g (s.now + s.fld F.INTC_GRP_CFG_HOLDOFF_US 0 g * 1000) }
    s.deliverGroup g
  else s

/-- INTERRUPT_DELIVERY (R354). -/
def execInterruptDelivery (g : Group) (s : State) : Res := .next (s.tryGroup g.val)

/-- LOOM_DELIVERY_RETRY (R356): the call is sent again once its time has come. -/
def execLoomDeliveryRetry (g : Group) (s : State) : Res :=
  .next (let t := smGet 0 s.intc.retryAt g.val
    if t ≠ 0 ∧ t ≤ s.now ∧ s.intc.serv.getLsbD g.val then s.sendGroupCall g.val else s)

/-! ### Completion and settings -/

/-- The host's writers: Thrumlink and the management sideband. -/
def hostWriter (w : Writer) : Bool := w == .tl0 || w == .tl1 || w == .sideband

/-- The effect of a group named to `INTC_GRP_CMPL` (Table 14-2): a group that completes on its own is left alone; one not in service too. -/
def State.cmplGroup (s : State) (g : Nat) : State :=
  if s.sentTgt g < 3 ∧ !s.sentAutoc g then s.completeGroup g else s

/-- Who may complete a group (R388, R393): the host its own; a core only those of firmware, and directly only in lease mode. -/
def State.mayComplete (s : State) (w : Writer) (g : Nat) : Bool :=
  if hostWriter w then 8 ≤ g else w != Writer.image && g < 8 && s.fld F.TDM_ROLE_MODE == 1

/-- GROUP_COMPLETE (R355). -/
def execGroupComplete (w : Writer) (g : Group) (s : State) : Res :=
  .next (s.regWrite w .INTC_GRP_CMPL 0 (fun s =>
    if s.mayComplete w g.val then (s.cmplGroup g.val).respond .ok else s.respond .accessDenied))

/-- SW_SET (R352). -/
def execSwSet (w : Writer) (n : Fin 512) (s : State) : Res :=
  .next (s.regWrite w .INTC_SW_SET 0 (fun s => (s.raise (0x200 + n.val)).respond .ok))

/-- INTC_GRP_CFG_WRITE (R352, R356): ERR clears, and a kept snapshot is delivered to the new target. -/
def execIntcGrpCfgWrite (w : Writer) (g : Group) (v : BitVec 64) (s : State) : Res :=
  .next (s.regWrite w .INTC_GRP_CFG 0 (fun s =>
    let g := g.val
    if hostWriter w ∧ g < 8 then s.respond .accessDenied
    else
      let s := s.plainWrite .INTC_GRP_CFG 0 g 0 v.toNat
      if s.intc.err.getLsbD g then
        let s := s.setIntc { s.intc with err := s.intc.err &&& ~~~bit32 g }
        if s.intc.serv.getLsbD g then s.deliverGroup g else s
      else s))

/-- The sources marked F in Tables 14-1 and 15-10. -/
def srcFirmware (n : Nat) : Bool :=
  if n < 0x40 then n % 4 == 2
  else if n < 0x140 then let k := (n - 0x40) % 0x40; 5 ≤ k && k ≤ 8
  else if n < 0x1B0 then (n - 0x140) % 8 == 0
  else (0x1B0 ≤ n && n ≤ 0x1B4) || n == 0x1C4 || n == 0x1C5 || (0x1C8 ≤ n && n ≤ 0x1DA)

/-- INTC_SRC_CFG_WRITE (R352). -/
def execIntcSrcCfgWrite (w : Writer) (n : Fin 1024) (v : BitVec 64) (s : State) : Res :=
  .next (s.regWrite w .INTC_SRC_CFG 0 (fun s =>
    if srcReserved n.val ∨ (hostWriter w ∧ srcFirmware n.val) then s.respond .accessDenied
    else s.plainWrite .INTC_SRC_CFG 0 n.val 0 v.toNat))

/-- GDIS_CLEAR (R357): every group that is ready delivers. -/
def execGdisClear (w : Writer) (s : State) : Res :=
  .next (s.regWrite w .INTC_CTL 0 (fun s =>
    ((List.range 32).foldl (fun s g => s.tryGroup g) (s.setFld F.INTC_CTL_GDIS 0)).respond .ok))

/-! ### Check-value units (R361 to R364) -/

/-- CHK_COMPARE (R363): one compare also when COUNT reaches LEN in the same cycle. -/
def execChkCompare (w : Writer) (u : ChkUnit) (s : State) : Res :=
  .next (s.regWrite w .CHK_CMD 0 (fun s => (if smGet 0 s.intc.chkAt u.val = s.now + 1 then s else s.chkCompare u.val).respond .ok))

/-- CHK_RESET (R363). -/
def execChkReset (w : Writer) (u : ChkUnit) (s : State) : Res :=
  .next (s.regWrite w .CHK_CMD 0 (fun s => (s.chkInit u.val).respond .ok))

/-- CHK_CTL_WRITE (R364): while EN = 1 only EN may change; setting EN is refused in confidential mode, and clears DONE. -/
def execChkCtlWrite (w : Writer) (u : ChkUnit) (v : BitVec 64) (s : State) : Res :=
  .next (s.regWrite w .CHK_CTL 0 (fun s =>
    let u := u.val
    let old := s.regVal .CHK_CTL 0 u
    let new := v.toNat &&& RegName.CHK_CTL.mask accRW
    let on := new.testBit 0 && !old.testBit 0
    if (old.testBit 0 ∧ new / 2 ≠ old / 2) ∨ (on ∧ s.flag F.SEC_STAT_CONF) then s.respond .accessDenied
    else
      let s := if on then s.setFld F.CHK_STAT_DONE 0 0 u else s
      s.plainWrite .CHK_CTL 0 u 0 new))

end Sys2Proof.Machine
end

