-- ==== Sys2Proof/Machine/Tandem.lean ====
section
/-!
DEFINITION. The tandem: class A actions and their journal, roles, heartbeats, switch-over and handover, lease, firmware update (R387 to R395).
-/
namespace Sys2Proof.Machine
open Sys2Proof

def State.setTdm (s : State) (x : Tandem) : State := { s with tdm := x }
def State.setPower (s : State) (x : Power) : State := { s with power := x }

/-- An edge source of the tandem or of power and clocks rises, with its event (R398). -/
def State.notify (s : State) (n : Nat) (payload : List Nat) : State :=
  (s.raise n).event (if n < 0x1D0 then srcCaptain else srcPower) (n - 0x1C0) payload

/-! ### Class A actions (R388, R389) -/

/-- Registers of class A (R388). -/
def RegName.classA (r : RegName) : Bool :=
  r == .PWR_LEVEL || r == .PWR_RAIL || r == .PWR_FAN || r == .PWR_STATPIN || r == .STN_THROT || r == .STK_THROT || r == .INTC_GRP_CMPL

/-- The throttle level as it acts (Table 15-13). -/
def State.level (s : State) : Nat := min 21 (s.fld F.PWR_LEVEL_LEVEL)

/-- The effect of a class A write on its register. A change of level raises source 0x1D4 (R378). -/
def State.putA (s : State) (r : RegRef) (v : Nat) : State :=
  let store (s : State) : State :=
    let m := r.reg.mask accRW
    let c := r.reg.mask (fun a => a == .w1c)
    let old := s.regVal r.reg r.inst r.i r.j
    s.setReg r.reg (((old &&& (2 ^ 64 - 1 - m)) ||| (v &&& m)) &&& (2 ^ 64 - 1 - s.clears r.reg c v r.inst r.i)) r.inst r.i r.j
  match r.reg with
  | .INTC_GRP_CMPL => s.cmplGroup (F.INTC_GRP_CMPL_GROUP.of v)
  | .PWR_FAN => (store s).setPower { s.power with fans := true }
  | .PWR_LEVEL =>
    let old := s.level
    let s := store s
    if s.level = old then s else s.notify 0x1D4 [s.level + old * 2 ^ 5]
  | _ => store s

/-- Numbers of actions compare by serial arithmetic modulo 2^32 (R389). -/
def serialGe (a b : Nat) : Bool := (a + 2 ^ 32 - b % 2 ^ 32) % 2 ^ 32 < 2 ^ 31

/-- Appends an action to the journal (R389). -/
def State.journal (s : State) (aseq off v : Nat) : State :=
  let i := s.tdm.jrnl % 64
  ((s.setReg .TDM_JRNL_A (aseq + off * 2 ^ 32) 0 i).setReg .TDM_JRNL_V v 0 i).setTdm { s.tdm with jrnl := s.tdm.jrnl + 1 }

/-- The port applies an action that is not stale (R389). -/
def State.applyA (s : State) (aseq off : Nat) (r : RegRef) (v : Nat) : State :=
  let s := ((s.setReg .TDM_ASEQ (aseq % 2 ^ 32)).putA r v).journal (aseq % 2 ^ 32) off v
  s.setTdm { s.tdm with actAt := s.now }

/-- The number of the captain's next action: a new captain starts at APPLIED + 65,536 (R390). -/
def State.nextAseq (s : State) : Nat := s.fld F.TDM_ASEQ_APPLIED + (if s.tdm.newCapt then 65536 else 1)

/-- The next action of the captain: a write of a class A register whose block answers. -/
def State.captainWrite (s : State) (off : Nat) (r : RegRef) (v : Nat) : State :=
  if s.blockOpen r.reg r.inst then
    let s := s.applyA s.nextAseq off r v
    s.setTdm { s.tdm with newCapt := false }
  else s
def State.captainAct (s : State) (reg : RegName) (inst i v : Nat) : State := s.captainWrite (reg.addr inst i 0) ⟨reg, inst, i, 0⟩ v

/-- Whether a core's action port accepts its actions: those of the core that may write, and for 20 µs those of the former captain (R391). -/
def State.mayAct (s : State) (c : Nat) : Bool :=
  s.coreMay c || (s.fld F.TDM_ROLE_MODE == 0 && match s.tdm.former with | some (k, t) => k == c && s.now < t + 20000 | none => false)

/-- ACTION (R389): a write of `TDM_ACT1[c]`; the port belongs to its core. -/
def execAction (w : Writer) (c : Fin 2) (v : BitVec 64) (s : State) : Res :=
  .next (let s := s.wakeFor w
    if s.heldReset then s
    else if writerCore w ≠ some c.val ∨ !s.mayAct c.val then s.respond .accessDenied
    else
      let aseq := s.fld F.TDM_ACT0_ASEQ 0 c.val
      let off := s.fld F.TDM_ACT0_OFFSET 0 c.val
      match regAt off with
      | .reg r =>
        if !r.reg.classA ∨ (r.reg = .INTC_GRP_CMPL ∧ 8 ≤ F.INTC_GRP_CMPL_GROUP.of v.toNat) ∨
            (r.reg = .PWR_STATPIN ∧ F.PWR_STATPIN_CODE.of v.toNat = 15) then s.respond .accessDenied
        else if !s.blockOpen r.reg r.inst then s.respond .busy
        else if serialGe aseq (s.fld F.TDM_ASEQ_APPLIED) then
          let s := s.applyA aseq off r v.toNat
          (if s.fld F.TDM_ROLE_CAPT = c.val then s.setTdm { s.tdm with newCapt := false } else s).respond .ok
        else ((s.count F.TDM_STAT_STALE).notify 0x1CA [aseq + off * 2 ^ 32]).respond .ok
      | _ => s.respond .accessDenied)

/-! ### Roles and switch-over (R390, R391, R394) -/

/-- Journal entries, oldest first. -/
def State.journalled (s : State) : List (Nat × Nat) :=
  let n := s.tdm.jrnl
  (List.range (min n 64)).map (fun k =>
    let i := (n - min n 64 + k) % 64
    (s.fld F.TDM_JRNL_A_OFFSET 0 i, s.regVal .TDM_JRNL_V 0 i))

/-- The latest journal value of every class A register but `INTC_GRP_CMPL`, `PWR_LEVEL` first, then by offset. -/
def State.classAValues (s : State) : List (Nat × RegRef × Nat) :=
  let latest := s.journalled.foldl (fun (m : List (Nat × Option Nat)) e => smSet none m e.1 (some e.2)) []
  let rows := latest.filterMap (fun e =>
    match regAt e.1, e.2 with
    | .reg r, some v => if r.reg = .INTC_GRP_CMPL then none else some (e.1, r, v)
    | _, _ => none)
  rows.filter (fun e => e.2.1.reg == .PWR_LEVEL) ++ rows.filter (fun e => e.2.1.reg != .PWR_LEVEL)

/-- The captain re-issues class A values with ascending numbers. -/
def State.reissue (s : State) (rows : List (Nat × RegRef × Nat)) : State := rows.foldl (fun s e => s.captainWrite e.1 e.2.1 e.2.2) s

/-- Groups in service to the captain role return their snapshots to pending and leave service (Table 14-3). -/
def State.returnGroups (s : State) : State :=
  (List.range 32).foldl (fun s g =>
    if s.intc.serv.getLsbD g ∧ s.sentTgt g = 0 then
      let srcs := smGet [] s.intc.snap g
      let s := s.completeGroup g
      s.setIntc { s.intc with pend := srcs.foldl (fun p n => if srcLevel n then p else p ||| BitVec.ofNat 1024 (2 ^ n)) s.intc.pend }
    else s) s

/-- The firmware that runs: that of the current slot, or of the previous slot after an alternate boot (Tables 16-1 and 16-8). -/
def State.fwImage (s : State) : List (BitVec 8) :=
  (if s.flag F.GLB_STAT_FW_ALT then s.sec.fwPrev else s.sec.fw).getD Config.shippedFw

/-- Steps 1 to 3 of R390: the role moves, the new captain re-issues the class A values, and the groups of the role are delivered anew.
The new captain's first action is numbered APPLIED + 65,536. -/
def State.moveRole (s : State) (cause : Nat) : State :=
  let old := s.fld F.TDM_ROLE_CAPT
  let gap := min 65535 ((s.now - s.tdm.actAt) / 1000)
  let s := (s.setFld F.TDM_ROLE_CAPT (1 - old)).setFld F.TDM_ROLE_OVL 1
  let s := s.setTdm { s.tdm with former := some (old, s.now), newCapt := true, beatAt := s.now, missed := 0 }
  let s := s.reissue s.classAValues
  let s := s.returnGroups
  let s := ((s.setFld F.TDM_STAT_GAP_US gap).bump F.TDM_STAT_SWITCHES).setFld F.TDM_STAT_CAUSE cause
  s.notify 0x1C8 [cause + gap * 2 ^ 4 + (1 - old) * 2 ^ 20]

/-- No core can take the captain role (R394). -/
def State.noCaptain (s : State) : State :=
  (s.setFld F.TDM_ROLE_MODE 2).setTdm { s.tdm with up := 0, noneAt := s.now, noneOver := false }

/-- Sends the answer of the firmware update in progress and drops its working copy (R395). -/
def State.fwFail (s : State) : State :=
  if s.sec.fwTrans then
    let cmd := s.sec.fwCmd
    let s := s.setSec { s.sec with fwTrans := false, fwCmd := none, mrWork := none }
    let s := s.setTdm { s.tdm with fw := none }
    let s := if s.fld F.GLB_STAT_QRST = 0 then s.setFld F.SEC_STAT_TRANS 0 else s.beginTrans
    match cmd with
    | some (p, k) => s.mgtReply p k 0x7D .poison []
    | none => s
  else s

/-- A switch-over (R390): the former captain's core is reset alone and restarts. Without a stoker nobody takes the role (R394). A firmware
update fails. -/
def State.switchOver (s : State) (cause : Nat) : State :=
  if s.fld F.TDM_ROLE_MODE ≠ 0 then s
  else
    let s := s.fwFail
    if s.flag F.TDM_ROLE_SINGLE then s.noCaptain
    else
      let old := s.fld F.TDM_ROLE_CAPT
      let s := (s.moveRole cause).setFld F.TDM_ROLE_SINGLE 1
      s.setTdm { s.tdm with up := s.tdm.up &&& (3 - 2 ^ old) }

/-- Heartbeat settings as they act, ns. -/
def State.beatNs (s : State) : Nat := s.fld1 F.TDM_HB_HB_US * 1000
def State.beatLost (s : State) : Bool :=
  s.fld F.TDM_ROLE_MODE == 0 && s.tdm.beatAt + s.fld1 F.TDM_HB_MISS * s.beatNs ≤ s.now

/-- HEARTBEAT (R390): the captain writes BEAT; one that comes too late finds the role moved. -/
def execHeartbeat (w : Writer) (s : State) : Res :=
  .next (let s := if s.beatLost ∧ !s.heldReset then s.switchOver 1 else s
    s.regWrite w .TDM_HB 0 (fun s =>
      (if writerCore w = some (s.fld F.TDM_ROLE_CAPT) ∧ s.fld F.TDM_ROLE_MODE = 0 then s.setTdm { s.tdm with beatAt := s.now, missed := 0 }
       else s).respond .ok))

/-- HEARTBEAT_MISS (R390). -/
def execHeartbeatMiss (s : State) : Res := .next (if s.beatLost then s.switchOver 1 else s)

/-- HEARTBEAT_MISSED_ONCE (R390, R398): another period has passed without a heartbeat; the last one that may be missed moves the role. -/
def execHeartbeatMissedOnce (s : State) : Res :=
  .next (if s.fld F.TDM_ROLE_MODE = 0 ∧ s.tdm.beatAt + (s.tdm.missed + 1) * s.beatNs ≤ s.now then
      let n := s.tdm.missed + 1
      let s := (s.setTdm { s.tdm with missed := n }).notify 0x1CC [min 15 n]
      if s.beatLost then s.switchOver 1 else s
    else s)

/-- CORE_FAULT (R390, R394): a fault of the captain starts a switch-over; a faulted stoker leaves its role; without service the core
stops, and none is left for the stoker role unless the captain of a
lease test failed (Table 16-1 step 2). -/
def execCoreFault (c : Fin 2) (s : State) : Res :=
  .next (if s.fld F.TDM_ROLE_MODE = 0 ∧ s.fld F.TDM_ROLE_CAPT = c.val then s.switchOver 2
    else
      let s := if s.fld F.TDM_ROLE_MODE = 0 then s.fwFail else s
      let s := if s.flag F.GLB_STAT_READY ∧ s.fld F.TDM_ROLE_CAPT = c.val then s else s.setFld F.TDM_ROLE_SINGLE 1
      s.setTdm { s.tdm with up := s.tdm.up &&& (3 - 2 ^ c.val) })

/-- OVERLAP_CLOSE (R391). -/
def execOverlapClose (s : State) : Res :=
  .next (match s.tdm.former with
    | some (_, t) => if s.flag F.TDM_ROLE_OVL ∧ t + 20000 ≤ s.now then s.setFld F.TDM_ROLE_OVL 0 else s
    | none => s)

/-- The stoker's core holds its role (R390). -/
def State.stokerUp (s : State) (c : Nat) : State :=
  let s := s.setTdm { s.tdm with up := s.tdm.up ||| 2 ^ c, former := (match s.tdm.former with | some (k, t) => if k = c then none else some (k, t) | none => none) }
  s.setFld F.TDM_ROLE_SINGLE 0

/-- NO_CAPTAIN_HOLD_END (R394). -/
def execNoCaptainHoldEnd (s : State) : Res :=
  .next (if s.fld F.TDM_ROLE_MODE = 2 ∧ s.tdm.noneAt + 100000000 ≤ s.now then s.setTdm { s.tdm with noneOver := true } else s)

/-- A class B command of the tandem's own registers. -/
def State.tdmCmd (s : State) (w : Writer) (f : State → State) : State := s.regWrite w .TDM_CMD 0 f

/-- HANDOVER (R392): the roles change places; the former captain takes the stoker role at once. -/
def execHandover (w : Writer) (s : State) : Res :=
  .next (s.tdmCmd w (fun s =>
    if s.fld F.TDM_ROLE_MODE ≠ 0 ∨ s.flag F.TDM_ROLE_SINGLE then s.respond .accessDenied
    else (s.moveRole 4).respond .ok))

/-! ### Lease (R393) -/

/-- LEASE_ON: the captain holds the token first. -/
def execLeaseOn (w : Writer) (s : State) : Res :=
  .next (s.tdmCmd w (fun s =>
    if s.fld F.TDM_ROLE_MODE ≠ 0 then s.respond .accessDenied
    else
      let s := (s.setFld F.TDM_ROLE_MODE 1).setFld F.TDM_LEASE_HOLDER (s.fld F.TDM_ROLE_CAPT + 1)
      (s.setTdm { s.tdm with leaseEnd := s.now + 50000000, recovery := false }).respond .ok))

/-- The captain role as it is taken at the end of a lease: the mode becomes service. -/
def State.takeCaptain (s : State) (c : Nat) : State :=
  let s := ((s.setFld F.TDM_ROLE_CAPT c).setFld F.TDM_ROLE_MODE 0).setFld F.TDM_LEASE_HOLDER 0
  let s := s.setFld F.TDM_ROLE_SINGLE (if s.tdm.up = 3 then 0 else 1)
  let s := s.setFld F.GLB_PART_FW_VER (Config.fwVersion s.fwImage).toNat
  s.setTdm { s.tdm with beatAt := s.now, missed := 0, actAt := s.now, newCapt := false, recovery := false, noneOver := false, former := none }

/-- LEASE_OFF: the test ends; the captain keeps its role. -/
def execLeaseOff (w : Writer) (s : State) : Res :=
  .next (s.tdmCmd w (fun s =>
    if s.fld F.TDM_ROLE_MODE ≠ 1 ∨ !s.flag F.GLB_STAT_READY ∨ s.tdm.recovery then s.respond .accessDenied
    else
      let s := (s.setFld F.TDM_ROLE_MODE 0).setFld F.TDM_LEASE_HOLDER 0
      (s.setTdm { s.tdm with beatAt := s.now, missed := 0 }).respond .ok))

/-- What the boot ROM measures into MR0 and MR4 (Table 13-6): ROM version, DEBUG, FLOOR, owner-key digest; layout and retired sites (log 66). -/
def State.measureRom (s : State) : State :=
  let s := s.extend 0 (Config.shake (toBytes 1 Config.romVer.toNat ++ toBytes 1 (s.fld F.SEC_DEBUG_DEBUG) ++ toBytes 2 (s.fld F.SEC_VER_FLOOR) ++ s.sec.owner) 64)
  s.extend 4 (Config.shake (toBytes 4 (s.regVal .STK_LAYOUT) ++ s.sec.retired.flatMap (fun e => toBytes 2 e.1)) 64)

/-- The holder loses the token at its expiry (R393). -/
def State.leaseEnds (s : State) : Bool := s.fld F.TDM_ROLE_MODE == 1 && s.fld F.TDM_LEASE_HOLDER != 0 && decide (s.tdm.leaseEnd ≤ s.now)
def State.loseLease (s : State) : State := (s.setFld F.TDM_LEASE_HOLDER 0).notify 0x1C9 [s.fld F.TDM_LEASE_HOLDER]

/-- LEASE_ACQ (R393): takes a free or expired token or renews one; at start-up steps 1 and 2 the first holder ends step 2, and in recovery it
takes the captain role. What core Q3 took in the same cycle is core Q0's (Table 15-11). -/
def execLeaseAcq (w : Writer) (s : State) : Res :=
  .next (let s := s.wakeFor w
    if s.heldReset then s
    else match writerCore w with
    | none => s.respond .accessDenied
    | some c =>
      let s := if s.tdm.up.testBit c ∧ s.leaseEnds ∧ s.fld F.TDM_LEASE_HOLDER ≠ c + 1 then s.loseLease else s
      let h := s.fld F.TDM_LEASE_HOLDER
      let tie : Bool := c == 0 && s.tdm.tookAt == some s.now
      if s.fld F.TDM_ROLE_MODE = 0 ∧ tie ∧ s.tdm.up.testBit 0 ∧ s.fld F.TDM_ROLE_CAPT = 1 then (s.takeCaptain 0).respond .ok
      else if s.fld F.TDM_ROLE_MODE = 1 ∧ s.tdm.up.testBit c ∧ (h = 0 ∨ h = c + 1 ∨ tie) then
        let s := (s.setFld F.TDM_LEASE_HOLDER (c + 1)).setTdm { s.tdm with
          leaseEnd := s.now + 50000000, tookAt := if c = 1 ∧ h = 0 then some s.now else s.tdm.tookAt }
        if s.tdm.recovery then (s.takeCaptain c).respond .ok
        else if s.fld F.GLB_STAT_STEP < 3 then
          (((s.setFld F.GLB_STAT_STEP 3).setFld F.PWR_STATPIN_CODE 3).measureRom).respond .ok
        else s.respond .ok
      else s.respond .ok)

/-- LEASE_EXPIRY (R393): a renewal in the same cycle wins (Table 15-11), so that the end of the cycle decides. -/
def execLeaseExpiry (s : State) : Res := .next (if s.leaseEnds then s.decideLate .token else s)

/-! ### Restarts and firmware update (R390, R394, R395) -/

/-- Measures the firmware of core `c`: MR1 for core Q0, MR2 for core Q3 (R387). -/
def State.measureFw (s : State) (c : Nat) (img : List (BitVec 8)) : State := s.extend (1 + c) (Config.shake img 64)

/-- A core restarts with the staged image: it leaves the tandem until its restart ends. -/
def State.fwRestart (s : State) (c : Nat) (step : FwStep) : State :=
  (s.setFld F.TDM_ROLE_SINGLE 1).setTdm { s.tdm with up := s.tdm.up &&& (3 - 2 ^ c), fw := some step }

/-- FW_APPLY (R395 steps 1 and 2). -/
def execFwApply (p : Port) (k : Packet) (s : State) : Res :=
  .next (s.onArrival p.val 0x7C k (fun s =>
    if !s.firmware then s.deliver p.val k
    else match s.mgtJoin p.val k with
    | (none, s) => s
    | (some _, s) =>
      if s.sec.staged.isNone ∨ s.fld F.TDM_ROLE_MODE ≠ 0 ∨ s.flag F.TDM_ROLE_SINGLE ∨ s.sec.fwTrans then s.mgtReply p.val k 0x7D .accessDenied []
      else
        let s := s.beginTrans
        let s := s.setSec { s.sec with fwTrans := true, fwCmd := some (p.val, k) }
        s.fwRestart (1 - s.fld F.TDM_ROLE_CAPT) .stoker))

/-- CORE_RESTART_END (R390, R394, R395): core `c`, which was down, runs again, or its restart failed. -/
def execCoreRestartEnd (c : Fin 2) (ok : Bool) (s : State) : Res :=
  .next (let c := c.val
    if s.heldReset ∨ s.tdm.up.testBit c ∨ !s.flag F.GLB_STAT_READY then s
    else if !ok then ((s.fwFail).setFld F.TDM_ROLE_SINGLE 1).notify 0x1CB [c]
    else match s.fld F.TDM_ROLE_MODE with
      | 2 => ((s.setFld F.TDM_ROLE_MODE 1).setFld F.TDM_LEASE_HOLDER 0).setTdm { s.tdm with up := s.tdm.up ||| 2 ^ c, recovery := true }
      | 1 => (s.setTdm { s.tdm with up := s.tdm.up ||| 2 ^ c }).setFld F.TDM_ROLE_SINGLE (if s.tdm.up ||| 2 ^ c = 3 then 0 else s.fld F.TDM_ROLE_SINGLE)
      | _ =>
        match s.tdm.fw with
        | some .stoker =>
          let s := ((s.measureFw c (s.sec.staged.getD [])).stokerUp c).moveRole 4
          s.fwRestart (1 - c) .captain
        | some .captain =>
          let s := (s.measureFw c (s.sec.staged.getD [])).stokerUp c
          s.setTdm { s.tdm with fw := some .both }
        | _ => s.stokerUp c)

/-- FW_UPDATE_END (R395 step 5). -/
def execFwUpdateEnd (s : State) : Res :=
  .next (if s.tdm.fw = some .both ∧ s.sec.fwTrans then
      let cmd := s.sec.fwCmd
      let s := s.bump F.SEC_VER_UGEN
      let s := s.setSec { s.sec with fwTrans := false, fwCmd := none, fwPrev := some s.fwImage, fw := s.sec.staged, staged := none }
      let s := ((s.setTdm { s.tdm with fw := none }).setFld F.GLB_STAT_FW_ALT 0).endTrans
      let s := s.setFld F.GLB_PART_FW_VER (Config.fwVersion s.fwImage).toNat
      match cmd with
      | some (p, k) => s.mgtReply p k 0x7D .ok []
      | none => s
    else s)

end Sys2Proof.Machine
end

