-- ==== Sys2Proof/Machine/ResetOps.lean ====
section
/-!
DEFINITION. Resets at work: which registers survive, the state that a reset of the device leaves, preparing and taking a quarter, bridges (R12,
R13, R27, R71, R96, R116, R174, R364, R406 to R411).
-/
namespace Sys2Proof.Machine
open Sys2Proof

/-! ### Registers that survive (Table 16-4) -/

/-- Registers that every reset keeps: they stand in the settings ledger. -/
def RegName.ledger (r : RegName) : Bool := r == .STK_LAYOUT || r == .SEC_DEBUG || r == .SEC_VER || r == .SEC_LEDGER

/-- Registers that a package reset keeps: they stand in the always-on domain (log 121 for those Table 16-4 does not name). -/
def RegName.alwaysOn (r : RegName) : Bool :=
  r.ledger || r == .EVR_CTL || r == .EVR_CURSOR || r == .EVR_CNT || r == .PWR_CTL || r == .PWR_LIMIT || r == .PWR_THERM || r == .PWR_LP_CTL ||
    r == .PWR_STAT || r == .PWR_TEMP || r == .CLK_DOM || r == .CLK_STAT || r == .GLB_RST_STAT || r == .GLB_IMG_BASE || r == .GLB_IMG_LEN

/-- Registers that a warm reset keeps. -/
def RegName.warmKept (r : RegName) : Bool :=
  r.alwaysOn || r == .GLB_SCRATCH || r == .SEC_CTL || r == .STK_CH_FAIL || r == .STK_GRP_STAT || r == .STK_LAYOUT_CUR || r == .STK_STAT ||
    r == .STK_ECC_STAT || r == .STK_REB_STAT || r == .STK_MIG_STAT

/-- Quarter registers that a quarter reset keeps. -/
def RegName.quarterKept (r : RegName) : Bool :=
  r == .STK_CH_FAIL || r == .STK_STAT || r == .STK_ECC_STAT || r == .STK_MIG_STAT

/-- Returns to their reset values the registers `p` does not name. -/
def State.keepRegs (s : State) (p : RegRef → Bool) : State :=
  { s with regs := s.regs.filter (fun e => match regAt e.1 with | .reg r => p r | _ => true) }

/-! ### Site roles (R174) -/

/-- Sites that rule 4 of R174 enables: the lowest spares, while fewer than 288 sites are enabled. -/
def rolesOf (retired : Nat → Bool) : List Nat :=
  let all := (List.range 324).filter (fun i => !retired i)
  let spare (i : Nat) : Bool := i % 18 == 8 || i % 18 == 17
  let on := all.filter (fun i => !spare i)
  on ++ (all.filter spare).take (288 - on.length)

def State.assignRoles (s : State) (q : Nat) : State :=
  let retired (i : Nat) : Bool := smGet false s.sec.retired (q * 324 + i)
  let on := rolesOf retired
  (List.range 324).foldl (fun s i => s.setSiteState (q * 324 + i) (if retired i then 7 else if on.contains i then 1 else 0)) s

/-! ### Resets of the device (R406, R410) -/

/-- The reset kinds of the device, in order of precedence. -/
inductive DeviceReset where
  | powerOn | package | warm
  deriving DecidableEq, Repr

def DeviceReset.keeps : DeviceReset → RegName → Bool
  | .powerOn, r => r.ledger
  | .package, r => r.alwaysOn
  | .warm, r => r.warmKept

/-- A stack through a warm reset: what its DRAM holds, and whether it is a missing member or awaits rebuild. -/
def Stk.kept (k : Stk) : Stk :=
  { untrusted := k.untrusted, missing := k.missing, awaitP1 := k.awaitP1, awaitP2 := k.awaitP2
    rebTo := k.rebTo, rebLost := k.rebLost, hints := k.hints }

/-- The device after a reset, before start-up: everything at its reset value but what the kind keeps. -/
def State.afterReset (s : State) (k : DeviceReset) : State :=
  let on := k ≠ .powerOn
  let warm := k = .warm
  let b : State :=
    { pending := s.pending, wire := s.wire, free := s.free, rsp := s.rsp
      regs := s.regs.filter (fun e => match regAt e.1 with | .reg r => k.keeps r.reg | _ => false)
      now := if on then s.now else 0
      time := if on then { off := s.time.off, slew := s.time.slew } else {}
      evr := if on then s.evr else { s.evr with opBase := s.opS, opens := [], ckptAt := 0 }
      pool := if warm then s.pool else {}
      coh := if warm then { lost := s.coh.lost } else {}
      stks := if warm then s.stks.foldl (fun m e => smSet {} m e.1 e.2.kept) [] else []
      sec := { owner := s.sec.owner, log := s.sec.log, retired := s.sec.retired, fw := s.sec.fw, fwPrev := s.sec.fwPrev,
               akMade := s.sec.akMade, keks := s.sec.keks, nextSlot := s.sec.nextSlot }
      power := { s.power with lastChange := 0, loopAt := 0, busyAt := [], duty := [], arrayHeld := [], idleFrom := 0, deep := 0, bridgeDown := 0, bridgeFails := [], fans := on && s.power.fans,
                              smb := if on then s.power.smb else none }
      start := { kept := if warm then s.start.kept else none } }
  -- a scan ends with the controller that ran it
  let b := (List.range 16).foldl (fun b x => b.setFld F.STK_STAT_SCAN 0 x) b
  let b := b.setFld F.SEC_IDX_ID_IDX (s.fld F.SEC_IDX_ID_IDX)
  if on then
    let b := (b.setFld F.PWR_LP_STAT_WAKES (s.fld F.PWR_LP_STAT_WAKES)).setFld F.PWR_LEVEL_LIMIT (s.fld F.PWR_LEVEL_LIMIT)
    let b := b.setFld F.PWR_LEVEL_TRIP (s.fld F.PWR_LEVEL_TRIP)
    (List.range 48).foldl (fun b r =>
      let v := s.regVal .PWR_RAIL 0 r
      b.setReg .PWR_RAIL (setBits v 16 16 (railNominal r)) 0 r) b
  else b

/-- STEP and `STAT[3:0]` of start-up (R401). -/
def State.setStep (s : State) (n : Nat) : State := (s.setFld F.GLB_STAT_STEP n).setFld F.PWR_STATPIN_CODE n

/-- Start-up begins at step `n`: both cores run boot ROM and contend for the lease (R387, R393), site roles are assigned, and the layout takes
effect unless the DRAM was kept (R161). -/
def State.startUp (s : State) (n : Nat) (warm : Bool) : State :=
  let s := (s.setStep n).setFld F.TDM_ROLE_MODE 1
  let s := s.setTdm { s.tdm with up := 3 }
  let s := s.setFld F.GLB_STAT_WARM warm.toNat
  let s := if warm then s else s.setReg .STK_LAYOUT_CUR (layoutActs (s.regVal .STK_LAYOUT))
  (List.range 4).foldl (fun s q => s.assignRoles q) s

/-- Power is lost: only the ledger and the recorder store survive, and nothing runs (R376, R401, R406). -/
def State.powerLoss (s : State) : State := s.afterReset .powerOn

/-- The power-on start: the recorder's store is read, PCYC rises (R366, R401 step 1). -/
def State.powerOn (s : State) (cause : Nat) (torn : List (BitVec 14 × BitVec 2048)) : State :=
  let s := s.powerLoss
  let s := s.setPower { s.power with porst := false, off := false }
  let s := (s.setFld F.GLB_RST_STAT_PKG_CAUSE cause).setFld F.CLK_STAT_REF_OK 1
  (s.startUp 1 false).evrPowerOn torn

/-- The ports of the device send DOWN notices where they can (R407). -/
def State.downNotices (s : State) : State :=
  (List.range 14).foldl (fun s p => if s.portState p = stUp then s.sendLctl p 5 6 else s) s

/-- A package reset (R406): nothing is prepared, the recall of R116 included (R407; log 153); step 1 ends at once. -/
def State.packageReset (s : State) (cause : Nat) : State :=
  if s.heldReset then s
  else
    let s := (s.downNotices).afterReset .package
    ((s.setFld F.GLB_RST_STAT_PKG_CAUSE cause).count F.GLB_RST_STAT_PKGS).startUp 2 false

/-! ### Preparation (R71, R407) -/

/-- The later requests of a request's channel complete BUSY behind it: a read whatever it has read, another request unless it has taken
effect (R69, R71). -/
def State.busyLater (s : State) (id : Nat) : State :=
  match s.req id with
  | none => s
  | some r =>
    s.setOrd { s.ord with reqs := s.ord.reqs.map (fun x =>
      if x.chan == r.chan && id < x.id && !x.refused then
        if x.kind.isRead then { x with fixed := some .busy, pieces := [] } else if x.complete then x else x.failAll .busy
      else x) }

/-- Unstarted requests that `p` names complete BUSY, and with them the later requests of their channels (R71). -/
def State.busyUnstarted (s : State) (p : Req → Bool) : State :=
  ((s.ord.reqs.filter p).foldl (fun s r =>
    match s.req r.id with
    | none => s
    | some x =>
      if x.pieces.isEmpty then
        if x.fixed.isSome then s else (((s.failChannel r.id 0 .busy).2).updReq r.id (fun r => r.failAll .busy)).busyLater r.id
      else match x.pieces.findIdx? Piece.unstarted with
        | some n => ((s.failChannel r.id n .busy).2).busyLater r.id
        | none => s) s).dropWaiters

/-- Every loom that holds a site `p` names ends EMPTY: calls of drafts whose quarter is lost end BUSY, the others as a RESET ends them
(Tables 9-8 and 16-4). -/
def State.endLooms (s : State) (p : Nat → Bool) : State :=
  (s.lm.looms.map (·.1)).foldl (fun s n =>
    if (s.loom n).sites.any (fun k => p (siteQ k)) then
      let s := (List.range 16).foldl (fun s d =>
        match (s.loom n).drafts[d]? with
        | some x => if p x.q then s.endCall n d .busy else s
        | none => s) s
      let s := (s.loom n).sites.foldl (fun s k => if s.siteState k < 6 then s.stopStn k else s) s
      s.finishReset n
    else s) s

/-- Migrations with a source or destination on the stacks `p` names free BUSY (Table 5-9); a rebuild that reads them ends BUSY (R407). -/
def State.endCopies (s : State) (p : Nat → Bool) : State :=
  let s := s.endMigrations (fun m => p (keyStack m.src) || p (keyStack m.dst)) .busy
  let g := s.fld F.STK_REB_STAT_STK / 8
  if s.flag F.STK_REB_STAT_BUSY ∧ (List.range 8).any (fun i => p (8 * g + i)) then
    (s.setFld F.STK_REB_STAT_BUSY 0).setFld F.STK_REB_STAT_STATUS Status.busy.code
  else s

/-- A slice that cannot run forgets its lines; those it owned will be poison when its quarter returns (R116). Accesses that wait for its
transactions complete BUSY. -/
def State.loseSlice (s : State) (q : Nat) : State :=
  let mine (l : Nat) : Bool := lineQuarter l == q
  let owned := s.coh.dir.filterMap (fun e => match e.2 with
    | some d => if mine e.1 && d.state == .owned then some (e.1, (d.ptrs.headD (0, 0)).1, s.fld F.COH_AGENT_CTX 0 (d.ptrs.headD (0, 0)).1) else none
    | none => none)
  let why := (s.coh.txns.filter (fun t => mine t.line)).map (·.why) ++ ((s.coh.waiting ++ s.coh.arrived).filter (fun w => mine w.1)).map (·.2)
  let s := s.setCoh { s.coh with dir := s.coh.dir.filter (fun e => !mine e.1), txns := s.coh.txns.filter (fun t => !mine t.line),
                                 waiting := s.coh.waiting.filter (fun w => !mine w.1), arrived := s.coh.arrived.filter (fun w => !mine w.1),
                                 lost := s.coh.lost ++ owned }
  why.foldl (fun s w => match w with
    | .engRead l => s.lineDone l (some .busy)
    | .engWrite l _ => s.lineDone l (some .busy)
    | .rdShared id => s.updReq id (fun r => { r with pieces := r.pieces.map (fun p => p.fail .busy) })
    | .rdOwn id => s.updReq id (fun r => { r with pieces := r.pieces.map (fun p => p.fail .busy) })
    | .upgrade id => s.updReq id (fun r => { r with pieces := r.pieces.map (fun p => p.fail .busy) })
    | .recall => s) s

/-- The lines that the slice of quarter `q` lost are written as poison when the quarter returns to service, and the poison list records them
(R116). -/
def State.poisonLost (s : State) (q : Nat) : State :=
  (s.coh.lost.filter (fun e => lineQuarter e.1 == q)).foldl (fun s e => s.reclaimFor e.1 e.2.1 e.2.2)
    (s.setCoh { s.coh with lost := s.coh.lost.filter (fun e => lineQuarter e.1 != q) })

/-- A line access that waits at a stack that cannot serve it: a piece's ends BUSY, with the later requests of its channel; the request of a grant ends
BUSY; what the directory had to write lands; a walker gets no line and goes on (R71, R405). -/
def State.dropLine (s : State) (l : LineReq) : State :=
  match l.src with
  | .piece => (s.lineDone l (some .busy)).busyLater l.req
  | .back => (s.writeLine l).2
  | .probe q w i => s.serveProbe q w i
  | .grant =>
    let line := lineKey l.frame l.line
    match s.txn line with
    | none => s
    | some t =>
      let s := s.endTxn line
      match t.why with
      | .engWrite w _ => s.lineDone w (some .busy)
      | _ => match t.why.caching with
        | some id => s.updReq id (fun r => { r with pieces := r.pieces.map (fun p => p.fail .busy) })
        | none => s

/-- The accesses that wait at a stack that stops are dropped, and the controller is empty (R71, R405). -/
def State.dropLines (s : State) (x : Nat) : State :=
  let k := s.stk x
  k.waiting.foldl State.dropLine (s.setStk x { k with coming := [], bufs := [], queues := [] })

/-- A stack that will serve what waits at it. -/
def State.stkWillServe (s : State) (x : Nat) : Bool :=
  let t := s.stkState x
  s.flag F.STK_CTL_EN x && (t == 2 || t == 3 || t == 4 || t == 5 || t == 6)

/-- The stacks that `p` names have finished what was started, and their slices track nothing (R407 steps 2 and 3). -/
def State.scopeQuiet (s : State) (p : Nat → Bool) : Bool :=
  (List.range 16).all (fun x => !p x || (s.stk x).quiet || !s.stkWillServe x) &&
    !s.coh.txns.any (fun t => p (keyStack (lineFrame t.line))) && !(s.coh.waiting ++ s.coh.arrived).any (fun w => p (keyStack (lineFrame w.1))) &&
    !s.coh.dir.any (fun e => p (keyStack (lineFrame e.1)) && e.2.isSome)

/-- The stacks `p` names stop: folds are flushed, and those that run are in self-refresh (R407 steps 4 and 5). -/
def State.parkStacks (s : State) (p : Nat → Bool) : State :=
  (List.range 16).foldl (fun s x =>
    if p x then
      let s := (((s.flushFolds x).dropLines x).takeHints x).flushPlaces x
      let s := (s.setStk x (s.stk x).kept).setFld F.STK_STAT_SCAN 0 x
      let t := s.stkState x
      if t = 2 ∨ t = 3 ∨ t = 4 ∨ t = 6 then s.setStkState x 5 else s
    else s) s

/-- Code-dirty pages of a stack that opens again wait for the engine (Table 6-8). -/
def State.rescanDirty (s : State) (x : Nat) : State :=
  let fs := (s.pool.pstate.filter (fun e => keyStack e.1 == x && e.2.getLsbD 0)).map (fun e => (e.1, s.now))
  s.setStk x { s.stk x with cdq := fs }

/-! ### Quarter reset (R406, R407, R409) -/

/-- Quarter of core `c`. -/
def coreQuarter (c : Nat) : Nat := 3 * c

/-- The quarter of the core that acts. -/
def State.captainQuarter (s : State) : Nat :=
  if s.fld F.TDM_ROLE_MODE = 1 ∧ s.fld F.TDM_LEASE_HOLDER ≠ 0 then coreQuarter (s.fld F.TDM_LEASE_HOLDER - 1)
  else coreQuarter (s.fld F.TDM_ROLE_CAPT)

/-- The core of a quarter under reset stops: a captain's reset is a switch-over, a stoker leaves its role (R390, Table 15-11). -/
def State.coreLost (s : State) (q : Nat) : State :=
  if q ≠ 0 ∧ q ≠ 3 then s
  else
    let c := q / 3
    let s := if s.fld F.TDM_ROLE_MODE = 0 then (if s.fld F.TDM_ROLE_CAPT = c then s.switchOver 3 else s.fwFail.setFld F.TDM_ROLE_SINGLE 1) else s
    s.setTdm { s.tdm with up := s.tdm.up &&& (3 - 2 ^ c) }

/-- A quarter reset begins: the quarter closes, what has not started ends BUSY, calls end, lines are recalled (R407 steps 1 to 3). `dead` says
that the quarter cannot run its directory slice. A warm reset that prepares the device wins (R406). -/
def State.beginQuarter (s : State) (q cause : Nat) (dead : Bool) : State :=
  if s.quarterDown q ∨ s.heldReset ∨ s.start.warm then s
  else
    let s := s.keepLevels q
    let s := (s.setFld F.GLB_STAT_QRST (s.fld F.GLB_STAT_QRST ||| 2 ^ q)).setFld F.SEC_STAT_QRST (s.fld F.SEC_STAT_QRST ||| 2 ^ q)
    let s := s.beginTrans
    let s := ((s.setFld F.GLB_RST_STAT_Q_LAST q).setFld F.GLB_RST_STAT_Q_CAUSE cause).count F.GLB_RST_STAT_QRESETS
    let s : State := { s with start := { s.start with prep := s.start.prep ||| 2 ^ q } }
    let here (x : Nat) : Bool := stackQuarter x == q
    let s := s.coreLost q
    let s := (s.busyUnstarted (fun r => r.chan.eng.quarter == q || r.unit == some q)).endLooms (fun x => x == q)
    let s := s.endCopies here
    let s := if dead then s.loseSlice q
      else (s.trackedFrames.filter (fun f => here (keyStack f))).foldl (fun s f => s.recallFrame f) s
    s.settle

/-- Where a completion goes that an engine of quarter `q` waits for. -/
def Dest.inQuarter (q : Nat) : Dest → Bool
  | .station k _ => siteQ k == q
  | .refill k => siteQ k == q
  | .descr x _ => x == q
  | .outcome x _ _ => x == q
  | .moverRead x _ _ _ => x == q
  | .moverWrite x _ _ _ => x == q
  | _ => false

/-- Host reads of the mover channels of quarter `q`. -/
def HrdUse.inQuarter (q : Nat) : HrdUse → Bool
  | .mover x _ _ => x == q
  | _ => false

/-- The mover channels of a quarter under reset return to IDLE (R96). -/
def State.dropMovers (s : State) (q : Nat) : State :=
  let ran := (List.range 16).filter (fun k => s.movState q k ≠ 0 || s.moverBusy q k)
  let s : State := { s with movers := s.movers.filter (fun e => e.1 / 16 != q) }
  let s := s.setTl { s.tl with hrds := s.tl.hrds.filter (fun h => !h.use.inQuarter q) }
  (List.range 16).foldl (fun s k =>
    let s := [RegName.MOV_CH_CTX, .MOV_CH_STAT, .MOV_CH_CUR, .MOV_CH_BYTES].foldl (fun s r => s.setReg r (r.resetVal k) q k) s
    if ran.contains k then s.setFld F.MOV_CH_STAT_LAST_STATUS Status.busy.code q k else s) s

/-- The logic of a prepared quarter resets: its units lose their state, and its registers return to their reset values but for those of
Table 16-4 (R71, R407 steps 4 to 6, R410). -/
def State.takeQuarter (s : State) (q : Nat) : State :=
  let here (x : Nat) : Bool := stackQuarter x == q
  let s := s.parkStacks here
  let s := if q = 0 then s.endSess 0 6 else if q = 2 then s.endSess 1 6 else s
  let ports := (List.range 14).filter (fun p => portQuarter p == q)
  let s := ports.foldl (fun s p => if s.portState p = stDark ∨ s.portState p = stBeacon then s else s.portDown p 6 true) s
  let s := s.setOrd { s.ord with
    reqs := s.ord.reqs.filter (fun r => !r.dest.inQuarter q)
    refusing := s.ord.refusing.filter (fun x => x.1.eng.quarter != q)
    turn := smErase s.ord.turn q
    done := s.ord.done.filter (fun d => !d.dest.inQuarter q) }
  let s := s.dropWaiters
  let s : State := { s with
    xlt := { s.xlt with
      tlb := s.xlt.tlb.filter (fun e => e.1.quarter != q)
      l2 := s.xlt.l2.filter (fun e => e.1 != q)
      missQ := s.xlt.missQ.filter (fun m => m.q != q)
      walks := s.xlt.walks.filter (fun w => w.q != q)
      faults := s.xlt.faults.filter (fun f => f.q != q)
      serials := (List.range 128).foldl (fun m e => smSet 0 m (q * 128 + e) ((smGet 0 m (q * 128 + e) + 1) % 128)) s.xlt.serials
      recQ := s.xlt.recQ.filter (fun r => r.q != q) }
    coh := { s.coh with rr := smErase s.coh.rr q } }
  let s := s.dropMovers q
  let s : State := { s with stns := s.stns.filter (fun e => siteQ e.1 != q) }
  let s := s.keepRegs (fun r => r.reg.spec.device || r.reg.quarterKept || r.reg == .PORT_LNK_STAT || r.reg.spec.block == .mov ||
    (match r.reg.quarter r.inst with | some x => x != q | none => true))
  let s := ports.foldl (fun s p =>
    if s.portState p = stDown then s.setReg .PORT_LNK_STAT (stDown + s.fld F.PORT_LNK_STAT_CAUSE p * 2 ^ F.PORT_LNK_STAT_CAUSE.lo) p
    else s.setReg .PORT_LNK_STAT 0 p) s
  let s := (List.range 16).foldl (fun s r =>
    if r % 4 = q ∧ s.flag F.PWR_RAIL_FAULT 0 r then s.setFld F.PWR_RAIL_SET_MV (railNominal r) 0 r else s) s
  let s := (List.range 8).foldl (fun s u =>
    let k := s.fld F.CHK_SEL_KIND 0 u
    if (k = 0 ∨ k = 2) ∧ s.fld F.CHK_SEL_QUARTER 0 u = q then s.setFld F.CHK_CTL_EN 0 0 u else s) s
  let s := s.restartSeqs (fun x => x / 4096 < 6 && x / 1024 % 4 == q)
  let s : State := { s with start := { s.start with prep := s.start.prep &&& (15 - 2 ^ q) } }
  s.settle

/-- The quarter resets that are prepared take their quarters once these are quiet (R407). -/
def State.prepStep (s : State) : State :=
  if s.start.prep = 0 then s
  else (List.range 4).foldl (fun s q =>
    if s.start.prep.testBit q ∧ s.scopeQuiet (fun x => stackQuarter x == q) then s.takeQuarter q else s) s

/-! ### Bridges (R12, R13) -/

/-- Quarters that bridges in service join to the quarters of a list. -/
def State.joined (s : State) (qs : List Nat) : List Nat :=
  (List.range 4).foldl (fun qs b =>
    if s.power.bridgeDown.testBit b then qs
    else
      let (x, y) := bridgeEnds b
      if qs.contains x ∧ !qs.contains y then qs ++ [y] else if qs.contains y ∧ !qs.contains x then qs ++ [x] else qs) qs

/-- Whether quarter `q` reaches the quarter of the captain. -/
def State.reaches (s : State) (q : Nat) : Bool := (s.joined (s.joined (s.joined [s.captainQuarter]))).contains q

/-- The stacks of a quarter go missing, or no longer count as missing on its account (R164). -/
def State.quarterMissing (s : State) (q : Nat) : State := (List.range 4).foldl (fun s i => s.setMissing (4 * q + i) true) s

/-- What a lost bridge cuts off: a quarter without bridges, or the half without the captain, is reset (R12, R13). -/
def State.cutOff (s : State) : State :=
  let d := s.power.bridgeDown
  let lone (q : Nat) : Bool := (List.range 4).all (fun b => ((bridgeEnds b).1 ≠ q && (bridgeEnds b).2 ≠ q) || d.testBit b)
  let s := (List.range 4).foldl (fun s q => if lone q then s.beginQuarter q 3 false else s) s
  if d = 3 ∨ d = 12 then
    (List.range 4).foldl (fun s q =>
      if s.reaches q then s
      else
        let s : State := { s with start := { s.start with away := s.start.away ||| 2 ^ q } }
        (s.beginQuarter q 3 false).quarterMissing q) s
  else s

/-- BRIDGE_RETRAIN_FAILURE (R12): a bridge that fails a retrain holds the traffic queued for it; the third failure in a row declares it down,
and what it held leaves over the detours in its queued order. Traffic that has crossed completes. -/
def execBridgeRetrainFailure (b : Fin 4) (s : State) : Res :=
  .next (let b := b.val
    if s.heldReset ∨ s.power.bridgeDown.testBit b then s
    else
      let n := smGet 0 s.power.bridgeFails b + 1
      if n < 3 then s.setPower { s.power with bridgeFails := smSet 0 s.power.bridgeFails b n }
      else
        let s := s.setPower { s.power with bridgeFails := smSet 0 s.power.bridgeFails b 0, bridgeDown := s.power.bridgeDown ||| 2 ^ b }
        ((s.event (srcBridge b) 1 [n]).raise (0x1B0 + b)).cutOff.settle)

/-- BRIDGE_RETRAIN (R12, R13): the bridge carries traffic again, what it held first. -/
def execBridgeRetrain (b : Fin 4) (s : State) : Res :=
  .next (s.setPower { s.power with bridgeFails := smSet 0 s.power.bridgeFails b.val 0,
                                   bridgeDown := s.power.bridgeDown &&& (15 - 2 ^ b.val) }).settle

end Sys2Proof.Machine
end

