-- ==== Sys2Proof/Machine/Power.lean ====
section
/-!
DEFINITION. Power, clocks, low power and pins: rails, input, cap loop, limiter, thermal trip, loop losses, Freewheel and deep idle, wake triggers,
tamper, alert and test port (R31, R33, R374 to R386, R396, R397).
-/
namespace Sys2Proof.Machine
open Sys2Proof

/-! ### Rails (R374, R375) -/

/-- Set-point of a rail as it acts: within ±10 % of nominal. -/
def State.railSet (s : State) (r : Nat) : Nat :=
  let n := railNominal r
  max (n * 9 / 10) (min (n * 11 / 10) (s.fld F.PWR_RAIL_SET_MV 0 r))

/-- The action of Table 15-2 for a fault of rail `r`. -/
def State.railAction (s : State) (r : Nat) : State :=
  if r < 16 then s.beginQuarter (r % 4) 1 (r < 4 || 12 ≤ r)
  else if r < 32 then (s.failStack (r - 16)).settle
  else if r < 46 then s.portDown (r - 32) 1 false
  else if r = 46 then s.powerOn 3 []
  else s.packageReset 6

/-- RAIL_FAULT (R375): rail `r` measured `mv` for 10 µs. -/
def execRailFault (r : Fin 48) (mv : BitVec 16) (s : State) : Res :=
  .next (if s.heldReset then s
    else
      let r := r.val
      let mv := mv.toNat
      let set := s.railSet r
      let s := (s.setFld F.PWR_RAIL_MEAS_MV mv 0 r).setFld F.PWR_RAIL_UV (if mv * 20 < set * 19 then 1 else 0) 0 r
      let s := s.setFld F.PWR_RAIL_OV (if set * 21 < mv * 20 then 1 else 0) 0 r
      if mv * 20 < set * 19 ∨ set * 21 < mv * 20 then
        ((s.setSticky F.PWR_RAIL_FAULT 0 r).notify 0x1D5 [r + mv * 2 ^ 16]).railAction r
      else s)

/-! ### Input (R376) -/

/-- A reading of the input voltage, in 10 mV, and what it does. -/
def State.inputAt (s : State) (v : Nat) (f : State → State) : State :=
  if s.heldReset then s else f (s.setFld F.PWR_STAT_V_IN v)

/-- The input fails: the device acts as on power loss. -/
def State.inputLost (s : State) (cause : Nat) : State :=
  let s := s.powerLoss
  (s.setPower { s.power with off := true }).setFld F.GLB_RST_STAT_PKG_CAUSE cause

/-- INPUT_UNDERVOLTAGE (R376): below 30 V for 100 µs. -/
def execInputUndervoltage (v : BitVec 13) (s : State) : Res :=
  .next (s.inputAt v.toNat (fun s => if v.toNat < 3000 then s.setFld F.PWR_STAT_UV 1 else s))

/-- INPUT_OVERVOLTAGE (R376): above 42 V for 100 µs. -/
def execInputOvervoltage (v : BitVec 13) (s : State) : Res :=
  .next (s.inputAt v.toNat (fun s => if 4200 < v.toNat then s.setFld F.PWR_STAT_OV 1 else s))

/-- INPUT_BROWNOUT (R376): below 27 V for 100 µs. -/
def execInputBrownout (v : BitVec 13) (s : State) : Res :=
  .next (s.inputAt v.toNat (fun s => if v.toNat < 2700 then s.inputLost 1 else s))

/-- INPUT_OVERLIMIT (R376): above 45 V for 10 µs; the converters stop. -/
def execInputOverlimit (v : BitVec 13) (s : State) : Res :=
  .next (s.inputAt v.toNat (fun s => if 4500 < v.toNat then s.inputLost 2 else s))

/-- INPUT_RECOVER (R376): inside 30 V to 42 V for 1 ms. -/
def execInputRecover (v : BitVec 13) (s : State) : Res :=
  .next (s.inputAt v.toNat (fun s =>
    if 3000 ≤ v.toNat ∧ v.toNat ≤ 4200 then (s.setFld F.PWR_STAT_UV 0).setFld F.PWR_STAT_OV 0 else s))

/-- INPUT_RESTART (R376): after a brownout the input has stayed above 30 V for 10 ms. -/
def execInputRestart (s : State) : Res :=
  .next (if s.power.off ∧ !s.power.porst ∧ s.fld F.GLB_RST_STAT_PKG_CAUSE = 1 then s.powerOn 1 [] else s)

/-! ### Cap, limiter, trip (R377 to R381) -/

/-- DUTY and COLS of a throttle level (Table 15-3). -/
def levelDuty (l : Nat) : Nat := if l ≤ 15 then 16 - l else 1
def levelCols (l : Nat) : Nat := if l ≤ 15 then 64 else 64 / 2 ^ (l - 15)

/-- The duty and columns applied (R379, R380). -/
def State.dutyEff (s : State) : Nat :=
  if s.flag F.PWR_LEVEL_TRIP then 1
  else if s.flag F.PWR_LEVEL_LIMIT then min (levelDuty s.level) (s.fld1 F.PWR_LIMIT_LIM_DUTY) else levelDuty s.level
def State.colsEff (s : State) : Nat := if s.flag F.PWR_LEVEL_TRIP then 1 else levelCols s.level

/-- The captain sets the level: `PWR_LEVEL` first, then the throttles that change with it (R377, R378). -/
def State.setLevel (s : State) (l : Nat) : State :=
  let old := s.level
  if l = old then s
  else
    let s := s.captainAct .PWR_LEVEL 0 0 l
    let s := if levelDuty l = levelDuty old then s
      else (List.range 4).foldl (fun s q => s.captainAct .STN_THROT q 0 (setBits (s.regVal .STN_THROT q) F.STN_THROT_DUTY.lo F.STN_THROT_DUTY.width (levelDuty l))) s
    if levelCols l = levelCols old then s
    else (List.range 16).foldl (fun s x => s.captainAct .STK_THROT x 0 (setBits (s.regVal .STK_THROT x) F.STK_THROT_COLS.lo F.STK_THROT_COLS.width (levelCols l))) s

/-- The loop of R378 at power `p`. -/
def State.capLoop (s : State) (p : Nat) : State :=
  let cap := s.capW
  let step := s.fld1 F.PWR_CTL_STEP_W
  if cap < p ∨ s.dieWarn ∨ s.stkWarn then
    let up := max 1 ((p - cap + step - 1) / step)
    (s.setLevel (min 21 (s.level + up))).setPower { s.power with lastChange := s.now }
  else if p + s.fld F.PWR_CTL_HYST_W < cap ∧ s.power.lastChange + s.fld F.PWR_CTL_DOWN_MS * 1000000 ≤ s.now then
    (s.setLevel (s.level - 1)).setPower { s.power with lastChange := s.now }
  else s

/-- A die reading (R380). -/
def State.setDie (s : State) (die q : Nat) : State := (s.setFld F.PWR_TEMP_DIE_MAX die).setFld F.PWR_TEMP_DIE_Q q

/-- POWER_LOOP (R377, R378): a period has ended, with its mean power and the highest die reading; the captain acts on them in service. -/
def execPowerLoop (watts : BitVec 12) (die : BitVec 8) (q : Quarter) (s : State) : Res :=
  .next (if s.heldReset ∨ s.now < s.power.loopAt + s.fld1 F.PWR_CTL_PERIOD_US * 1000 then s
    else
      let s := s.setPower { s.power with loopAt := s.now }
      let s := (s.setFld F.PWR_STAT_P_IN_W watts.toNat).setDie die.toNat q.val
      let s := s.setFld F.PWR_STAT_OVERCAP (if s.capW < watts.toNat then 1 else 0)
      let s := s.stkMax
      if s.fld F.TDM_ROLE_MODE = 0 ∧ s.flag F.GLB_STAT_READY ∧ s.power.deep ≠ 2 then s.capLoop watts.toNat else s)

/-- Threshold of the limiter as it acts. -/
def State.limitW (s : State) : Nat := min 2100 (s.fld F.PWR_LIMIT_MAX_W)

/-- LIMITER_ENGAGE (R379): the 10 µs mean exceeds MAX_W. -/
def execLimiterEngage (mean : Nat) (s : State) : Res :=
  .next (if !s.heldReset ∧ s.limitW < mean then s.setFld F.PWR_LEVEL_LIMIT 1 else s)

/-- LIMITER_RELEASE (R379): the 100 µs mean has fallen below MAX_W − 100 W. -/
def execLimiterRelease (mean : Nat) (s : State) : Res :=
  .next (if !s.heldReset ∧ mean + 100 < s.limitW then s.setFld F.PWR_LEVEL_LIMIT 0 else s)

/-- Trip limits as they act. -/
def State.dieTrip (s : State) : Nat := min 115 (s.fld F.PWR_THERM_DIE_TRIP_C)
def State.stkTrip (s : State) : Nat := min 105 (s.fld F.PWR_THERM_STK_TRIP_C)

/-- Readings of the 1 ms sensors: the highest die and one stack (R380). -/
def State.readTemps (s : State) (die q x temp : Nat) : State := ((s.setDie die q).setTemp x temp).stkMax

/-- THERMAL_TRIP (R380): a reading above its trip limit for 1 ms. -/
def execThermalTrip (die : BitVec 8) (q : Quarter) (x : Stack) (temp : BitVec 8) (s : State) : Res :=
  .next (if s.heldReset then s
    else
      let s := s.readTemps die.toNat q.val x.val temp.toNat
      if (s.dieTrip < die.toNat ∨ s.stkTrip < temp.toNat) ∧ !s.flag F.PWR_LEVEL_TRIP then
        (s.setFld F.PWR_LEVEL_TRIP 1).notify 0x1D9 [die.toNat + s.fld F.PWR_TEMP_STK_MAX * 2 ^ 8]
      else s)

/-- THERMAL_TRIP_LIFT (R380): every reading has stayed 10 °C below its trip limit for 1 s. -/
def execThermalTripLift (die : BitVec 8) (q : Quarter) (x : Stack) (temp : BitVec 8) (s : State) : Res :=
  .next (if s.heldReset then s
    else
      let s := s.readTemps die.toNat q.val x.val temp.toNat
      if die.toNat + 10 ≤ s.dieTrip ∧ s.fld F.PWR_TEMP_STK_MAX + 10 ≤ s.stkTrip then s.setFld F.PWR_LEVEL_TRIP 0 else s)

/-! ### Clocks (R383, R384) -/

/-- LOCK_LOSS (R384). The always-on domain has no loop. -/
def execLockLoss (d : Fin 60) (s : State) : Res :=
  .next (let d := d.val
    if s.heldReset ∨ d = 0 then s
    else
      let s := (s.count F.CLK_DOM_LOSSES 1 0 d).notify 0x1D6 [d]
      if d < 13 then s.beginQuarter ((d - 1) % 4) 2 (9 ≤ d)
      else if d < 29 then (s.failStack (d - 13)).settle
      else if d < 45 then (s.failStack (d - 29)).settle
      else if d < 59 then s.portDown (d - 45) 1 false
      else s.packageReset 7)

/-- REFERENCE_LOSS (R300, R384): the loops hold over, and network time loses its lock. -/
def execReferenceLoss (s : State) : Res :=
  .next (if s.heldReset ∨ s.flag F.CLK_STAT_HOLDOVER then s
    else (((s.setFld F.CLK_STAT_REF_OK 0).setFld F.CLK_STAT_HOLDOVER 1).notify 0x1DA []).setLock false)

/-- HOLDOVER_END (R384): the reference has been present for 1 ms. -/
def execHoldoverEnd (s : State) : Res :=
  .next (if s.heldReset then s else (s.setFld F.CLK_STAT_REF_OK 1).setFld F.CLK_STAT_HOLDOVER 0)

/-! ### Freewheel and deep idle (R31, R33, R385, R386) -/

/-- Every site of a quarter is idle: none loads, none runs, none is under test. -/
def State.sitesIdle (s : State) (q : Nat) : Bool :=
  s.stns.all (fun e => siteQ e.1 != q || (s.siteState e.1 != 2 && !e.2.run && !e.2.selftest))

/-- FREEWHEEL_ENTRY (R385): every site of the quarter has been idle for FW_US. -/
def execFreewheelEntry (q : Quarter) (s : State) : Res :=
  .next (if s.flag F.PWR_LP_CTL_FW_EN ∧ !s.closed q.val ∧ s.sitesIdle q.val ∧
        smGet 0 s.power.busyAt q.val + s.fld F.PWR_LP_CTL_FW_US * 1000 ≤ s.now ∧ s.power.deep = 0 ∧ s.flag F.GLB_STAT_READY ∧ !s.heldReset then
      s.setFld F.PWR_LP_STAT_GATED (s.fld F.PWR_LP_STAT_GATED ||| 2 ^ q.val)
    else s)

/-- The conditions of R386, but for how long they have held. -/
def State.deepReady (s : State) : Bool :=
  s.lm.looms.all (fun e => e.2.drafts.all (fun d => d.run.isNone && d.queue.isEmpty)) && s.lm.chains.isEmpty &&
    s.ord.reqs.isEmpty && s.movers.all (fun e => e.2.descs.isEmpty && e.2.fetching.isNone) && s.xlt.rvkQ.isEmpty && s.xlt.rvkRun.isEmpty &&
    s.tl.unack.isEmpty && s.tl.held.isEmpty && s.tl.hrds.isEmpty &&
    (List.range 14).all (fun p => (s.link p).idle && (s.link p).ingress.isEmpty) &&
    s.flag F.GLB_STAT_READY && s.fld F.TDM_ROLE_MODE == 0 && s.power.deep == 0 && !s.start.warm && s.start.prep == 0

/-- Entry to deep idle starts (Table 15-6): listening ports ask to sleep, the others go DOWN (R283). -/
def State.enterDeep (s : State) : State :=
  let s := (s.setPower { s.power with deep := 1 }).setFld F.PWR_LP_STAT_WAITING 0
  let s := (List.range 14).foldl (fun s p =>
    if s.portUp p then
      if s.flag F.PORT_CTL_LISTEN p then (s.sendLctl p 1 0).setLink p { s.link p with sleepReq := true } else s.portDown p 7 true
    else s) s
  s.deepStep

/-- DEEP_IDLE_ENTRY (R386): with DEEP_EN = 1 the conditions have held for DEEP_MS. -/
def execDeepIdleEntry (s : State) : Res :=
  .next (let ns := s.fld1 F.PWR_LP_CTL_DEEP_MS * 1000000
    if s.flag F.PWR_LP_CTL_DEEP_EN ∧ s.deepReady ∧ s.power.idleFrom + ns ≤ s.now ∧ (List.range 14).all (fun p => (s.link p).busyAt = 0 ∨ (s.link p).busyAt + ns ≤ s.now) then s.enterDeep
    else s)

/-- DEEP_CMD (R386): enters deep idle as soon as the conditions hold. -/
def execDeepCmd (w : Writer) (s : State) : Res :=
  .next (s.regWrite w .PWR_LP_CMD 0 (fun s =>
    (if s.deepReady then s.enterDeep else s.setFld F.PWR_LP_STAT_WAITING 1).respond .ok))

/-- DEEP_CANCEL (R386). -/
def execDeepCancel (w : Writer) (s : State) : Res :=
  .next (s.regWrite w .PWR_LP_CMD 0 (fun s => (s.setFld F.PWR_LP_STAT_WAITING 0).respond .ok))

/-- Deep idle as time passes: a waiting command enters once its conditions hold; a following clock loses its lock (R300). -/
def State.deepTick (s : State) : State :=
  if s.power.deep = 2 then (if s.fld F.HUB_TIME_CTL_SRC = 1 then s else s.setLock false)
  else if s.flag F.PWR_LP_STAT_WAITING ∧ s.deepReady then s.enterDeep else s

/-- Notes since when the quarters are idle and the conditions for deep idle hold (R385, R386). -/
def State.noteIdle (s : State) : State :=
  let qs := (List.range 4).filter (fun q => !s.sitesIdle q)
  let s := if qs.isEmpty then s else s.setPower { s.power with busyAt := qs.foldl (fun m q => smSet 0 m q (s.now + 1)) s.power.busyAt }
  if s.deepReady then s else s.setPower { s.power with idleFrom := s.now + 1 }

/-- An interrupt source that wakes the device (R358). -/
def State.wakesFor (s : State) (n : Nat) : Bool :=
  s.flag F.INTC_SRC_CFG_EN 0 n && s.srcPending n && s.groupDelivers (s.fld F.INTC_SRC_CFG_GRP 0 n)

/-- WAKE_TRIGGER (R31, R33): a packet wakes over a listening port, a Thrumlink message over one that listens or is UP. A host-vector group also wakes the port that carries its message (R358). -/
def execWakeTrigger (c : WakeCause) (s : State) : Res :=
  .next (if s.heldReset then s
    else match c with
      | .packet p => if s.flag F.PORT_CTL_LISTEN p.val then s.wakeDevice.wakePort p.val else s
      | .thrumlink p => if s.flag F.PORT_CTL_LISTEN p.val ∨ s.portUp p.val then s.wakeDevice.wakePort p.val else s
      | .sideband => s.wakeDevice
      | .source n =>
        if s.wakesFor n.val then
          let s := s.wakeDevice
          if s.fld F.INTC_GRP_CFG_TGT 0 (s.fld F.INTC_SRC_CFG_GRP 0 n.val) = 2 then
            (match s.streamPort with | some p => s.wakePort p | none => (s.wakePort 12).wakePort 13)
          else s
        else s)

/-! ### Pins (R380, R381, R394, R396, R397) -/

/-- `STAT[3:0]` (Table 15-9): codes 0x0, 0xC and 0xD are the hardware's. -/
def State.statPins (s : State) : Nat :=
  if s.heldReset then 0
  else if s.flag F.PWR_LEVEL_TRIP then 13
  else if s.fld F.TDM_ROLE_MODE = 2 ∧ s.tdm.noneOver then 12 else s.fld F.PWR_STATPIN_CODE

/-- Duty of fan output `i` in percent. -/
def State.fanOut (s : State) (i : Nat) : Nat :=
  if !s.power.fans || s.flag F.PWR_LEVEL_TRIP || (s.fld F.TDM_ROLE_MODE == 2 && s.tdm.noneOver) then 100
  else min 100 (if i = 0 then s.fld F.PWR_FAN_DUTY0 else s.fld F.PWR_FAN_DUTY1)

/-- `ALERT_N` is asserted (R396). The holding outputs of R394 stand for 100 ms first. -/
def State.alertN (s : State) : Bool :=
  !s.heldReset && (s.flag F.PWR_STAT_UV || s.flag F.PWR_STAT_OV || s.dieWarn || s.stkWarn || s.flag F.PWR_LEVEL_TRIP || s.flag F.PWR_LEVEL_LIMIT ||
    (s.fld F.TDM_ROLE_MODE == 2 && s.tdm.noneOver) || s.power.tamper)

/-- The sideband's own address (R396). -/
def State.sideAddr (s : State) : Nat := 0x60 + s.power.straps % 8

/-- The packet error code of a frame: CRC-8 with polynomial 0x07 (R396; log 126). -/
def pec (bs : List (BitVec 8)) : BitVec 8 := BitVec.ofNat 8 (bs.foldl (fun r b => chkByte 8 7 false r b.toNat) 0)

/-- ALERT_RESPONSE (R396): the device answers the Alert Response Address 0x0C with its own address. -/
def execAlertResponse (s : State) : Res :=
  .next (if s.alertN then
      let b := BitVec.ofNat 8 (2 * s.sideAddr)
      s.emit (.frame [b, pec [0x19, b]])
    else s)

/-- TAMPER (R397): `TAMPER_N` has been low for 1 ms. -/
def execTamper (s : State) : Res :=
  .next (if s.power.tamper then s
    else
      let s := s.setPower { s.power with tamper := true }
      if s.heldReset then s else s.event srcPower 5)

/-- TAMPER_N_RELEASE (R397). -/
def execTamperNRelease (s : State) : Res := .next (s.setPower { s.power with tamper := false })

/-- Whether the test port executes an instruction (Tables 13-9 and 15-8). -/
def State.tapAllows (s : State) : TapCode → Bool
  | .bypass => true
  | .idcode => true
  | .samplePreload => true
  | .extest => !s.flag F.SEC_STAT_CONF
  | .other _ => s.flag F.SEC_STAT_DEBUG_EFF && !s.flag F.SEC_STAT_CONF

/-- TAP_INSTRUCTION (R397): a refused instruction leaves the port in BYPASS (log 110). -/
def execTapInstruction (i : TapCode) (s : State) : Res :=
  .next (s.setPower { s.power with tap := if s.tapAllows i then i else .bypass })

end Sys2Proof.Machine
end

