-- ==== Sys2Proof/Machine/Protect.lean ====
section
/-!
DEFINITION. Commands of stored-data protection: code rebuild, fold flush, relocation, rebuild of a returned stack, the scrubber, the
leaky buckets, and the two start-up events of a stack controller (R154, R157, R160, R161, R165, R167, R168, R171).
-/
namespace Sys2Proof.Machine
open Sys2Proof

/-- The code of a code-dirty page is rebuilt from its lines; those no layer yields are poisoned (R157, R169). A page of a member that is missing keeps its
place. -/
def State.rebuildCode (s : State) (frame : Nat) : State :=
  if s.reach frame ≠ .direct then s else (s.recode frame 2 []).cleanPage frame

/-- CODE_REBUILD (R157, R169): the oldest queued page of the stack gets its page code. -/
def execCodeRebuild (x : Stack) (lost : ReadErr) (s : State) : Res :=
  .next (match (s.stk x.val).cdq with
    | [] => s
    | (f, _) :: _ => if !s.stkOpen x.val then s else (s.upset lost).rebuildCode f)

/-- Pages that have waited CODE_MS are rebuilt: the bound holds whatever else the stack does (R157). -/
def State.codeDue (s : State) : State :=
  s.stks.foldl (fun (s : State) (e : Nat × Stk) =>
    let due := s.fld1 F.STK_ECC_CTL_CODE_MS e.1 * 1000000
    if s.stkOpen e.1 then (e.2.cdq.filter (fun c => c.2 + due ≤ s.now)).foldl (fun (s : State) c => s.rebuildCode c.1) s else s) s

/-- FOLD_AGE_FLUSH (R160): the oldest slot that has been open FOLD_MS makes its completing flush, through port 7. -/
def execFoldAgeFlush (x : Stack) (lost : ReadErr) (s : State) : Res :=
  .next (let age := s.fld F.STK_ECC_CTL_FOLD_MS x.val * 1000000
    match (s.stk x.val).folds.find? (fun f => f.since + age ≤ s.now) with
    | some f =>
      let (ok, s) := s.useStk x.val
      if ok then (s.upset lost).flushFold f.frame else s
    | none => s)

/-- Frames of a stack that hold something. -/
def State.usedFrames (s : State) (x : Nat) : List Nat :=
  (((s.pool.mem.map (fun (c : Host.Cell) => c.1 / 65536)) ++ (s.pool.side.map (fun (e : Nat × BitVec 64) => e.1 / 1024)) ++ (s.pool.pstate.map (·.1))).filter
    (fun (f : Nat) => keyStack f == x && keyPage f < usableFrames)).eraseDups

/-- CHANNEL_RELOCATION_END (R153, R154): the check lines of the failed channel have their host: they are computed from the page's lines, recovered where
they are lost, and stored there. A code-dirty page gets them with its rebuild. -/
def execChannelRelocationEnd (x : Stack) (s : State) : Res :=
  .next (if s.flag F.STK_ECC_STAT_RELOC x.val then
      let h := (hostsOf (s.failedCh x.val)).headD (0, 0)
      let pages := (s.usedFrames x.val).filterMap (fun f =>
        if s.codeDirty f then none else (s.otherLines f 1024).map (fun ls => (f, ls)))
      let s := (s.setFld F.STK_ECC_STAT_RELOC 0 x.val).setFld F.STK_ECC_STAT_HCH0 (32 + h.2) x.val
      let s := pages.foldl (fun s p => s.putCode p.1 p.2) s
      s.event (srcStack x.val) 0x13 [h.1 + h.2 * 2 ^ 5]
    else s)

/-! ### Rebuild (R165) -/

/-- The units of a stack that await its rebuild and are DEGRADED. -/
def State.rebuildable (s : State) (x : Nat) : Bool × Bool :=
  let k := s.stk x
  -- a rebuild that a reset ended is taken up again where it stopped (R407)
  let cut := !s.flag F.STK_REB_STAT_BUSY && s.fld F.STK_REB_STAT_STK == x
  (k.awaitP1 && !k.missing && (s.unitState 1 x == 1 || (cut && s.unitState 1 x == 2)),
   k.awaitP2 && !k.missing && (s.unitState 2 x == 1 || (cut && s.unitState 2 x == 2)))

/-- Starts the rebuild of stack `x`: its P0 zone becomes untrusted, its DEGRADED units go to REBUILDING. -/
def State.startRebuild (s : State) (x : Nat) : State :=
  if !s.flag F.STK_REB_STAT_BUSY && s.fld F.STK_REB_STAT_STK == x && (s.unitState 1 x == 2 || s.unitState 2 x == 2) then
    (s.setFld F.STK_REB_STAT_BUSY 1).setStk x { s.stk x with rebAt := s.now }
  else
  let (a, b) := s.rebuildable x
  let p0 := (layoutBounds (s.regVal .STK_LAYOUT_CUR) x).1
  let zone (f : Nat) : Bool := keyStack f == x && keyPage f < p0
  let check (f : Nat) : Bool := keyStack f == x && usableFrames ≤ keyPage f && (keyPage f - usableFrames) * 16 < p0
  let s := s.setPool { s.pool with
    mem := s.pool.mem.filter (fun c => !(zone (c.1 / 65536) || check (c.1 / 65536)))
    side := s.pool.side.filter (fun e => !(zone (e.1 / 1024) || check (e.1 / 1024)))
    pstate := s.pool.pstate.filter (fun e => !zone e.1) }
  let k := s.stk x
  let s := s.setStk x { k with untrusted := p0, rebTo := 0, rebAt := s.now, cdq := k.cdq.filter (fun c => !zone c.1), folds := k.folds.filter (fun f => !zone f.frame) }
  let s := ((s.setFld F.STK_REB_STAT_BUSY 1).setFld F.STK_REB_STAT_STK x).setFld F.STK_REB_STAT_PTR 0
  let s := if a then
      let f := if x < 8 then F.STK_GRP_STAT_A_STATE else F.STK_GRP_STAT_B_STATE
      s.unitChange x (x / 8) 0 1 2 (fun s => s.setFld f 2)
    else s
  if b then
    let k := pairOf x
    s.unitChange x 2 k 1 2 (fun s => s.setFld F.STK_GRP_STAT_PAIR (setBits (s.fld F.STK_GRP_STAT_PAIR) (2 * k) 2 2))
  else s

/-- A frame of a returned member is rebuilt from the other members of its unit, as a full-page streaming write; a line that cannot be reconstructed is
written as poison (R165). How many such lines it has, and the state. -/
def State.rebuildFrame (s : State) (x page : Nat) : Nat × State :=
  let f := frameKey x page
  let gs := (s.stripe f).map (fun g => (g, s.linesIn g))
  let ls := (List.range 1024).filter (fun l => gs.any (fun g => g.2.contains l))
  -- the lines of the other members are read through their own layers
  let s := ls.foldl (fun (s : State) l => gs.foldl (fun (s : State) g =>
    if g.2.contains l ∧ s.reach g.1 = .direct then (s.readStored g.1 l 4).state else s) s) s
  let r := ls.map (fun l => (l, s.layer3 f l))
  let lost := r.filter (fun l => l.2.isNone)
  let s := s.streamFrame f (r.map (fun l => match l.2 with
    | some v => (l.1, if v.2 then zeroLine else v.1, if v.2 then 1 else 0)
    | none => (l.1, zeroLine, 1)))
  (lost.length, lost.foldl (fun s l => (s.noteUE x page l.1 4 true).poisonAlso f l.1 4) s)

/-- REBUILD_START (R165, Table 6-11); one rebuild runs at a time (log 53). -/
def execRebuildStart (w : Writer) (x : Stack) (s : State) : Res :=
  .next (s.regWrite w .STK_REBUILD 0 (fun s =>
    let r := s.rebuildable x.val
    if !r.1 && !r.2 then s.respond .accessDenied
    else if s.flag F.STK_REB_STAT_BUSY then s.respond .busy
    else (s.startRebuild x.val).respond .ok))

/-- AUTO_REBUILD (R165). -/
def execAutoRebuild (x : Stack) (s : State) : Res :=
  .next (let r := s.rebuildable x.val
    if s.flag F.STK_PRT_CTL_AUTO_REB ∧ !s.flag F.STK_REB_STAT_BUSY ∧ (r.1 ∨ r.2) then s.startRebuild x.val else s)

/-- The pointer of a rebuild passes frames up to `hi`: those of units that are REBUILDING are rebuilt, in ascending order; a frame in which nothing is
held in its stripe, nor in itself, is left as it is. -/
def State.rebuildTo (s : State) (x hi : Nat) : State :=
  let lo := s.fld F.STK_REB_STAT_PTR
  let pages := ((List.range 16).flatMap (fun y => if y / 8 = x / 8 then (s.usedFrames y).map keyPage else [])).filter (fun p =>
    lo ≤ p && p < hi && s.frameClass (frameKey x p) != 0 && s.unitState (s.frameClass (frameKey x p)) x == 2)
  let pages := pages.foldl (fun a p => insertSorted p a) []
  let s := pages.foldl (fun (s : State) p =>
    let s := s.setStk x { s.stk x with rebTo := p }
    let r := s.rebuildFrame x p
    r.2.setStk x { r.2.stk x with rebLost := (r.2.stk x).rebLost + r.1 }) s
  (s.setFld F.STK_REB_STAT_PTR (max lo hi)).setStk x { s.stk x with rebTo := max lo hi }

/-- Nanoseconds a rebuild takes for a frame, at REB_RATE GB/s (R165). -/
def State.rebuildStep (s : State) : Nat := 65536 / s.fld1 F.STK_PRT_CTL_REB_RATE

/-- The pointer of a running rebuild moves on with time, frame by frame; it stands at a zone's end until the unit ends (R165). -/
def State.rebuildTick (s : State) : State :=
  let x := s.fld F.STK_REB_STAT_STK
  let k := s.stk x
  if !s.flag F.STK_REB_STAT_BUSY || k.missing || s.now < k.rebAt + s.rebuildStep then s
  else
    let (p1, p2) := layoutBounds (s.regVal .STK_LAYOUT_CUR) x
    let stop := if s.unitState 1 x = 2 then p2 else usableFrames
    let ptr := s.fld F.STK_REB_STAT_PTR
    -- the P0 zone was filled when the rebuild started
    let next := if ptr < p1 then p1 else ptr + 1
    if ptr < stop then (s.rebuildTo x (min next stop)).setStk x { (s.rebuildTo x (min next stop)).stk x with rebAt := s.now } else s

/-- REBUILD_UNIT_END (R165): the pointer passes the zone of the next unit, whose frames that are left are rebuilt; `lost` is what the cells of the other
members have come to hold. The stack no longer awaits rebuild in that unit; the last unit ends the rebuild. -/
def execRebuildUnitEnd (x : Stack) (lost : ReadErr) (s : State) : Res :=
  let x := x.val
  .next (if !s.flag F.STK_REB_STAT_BUSY || s.fld F.STK_REB_STAT_STK ≠ x || (s.stk x).missing then s
    else
      let s := s.upset lost
      let (_, p2) := layoutBounds (s.regVal .STK_LAYOUT_CUR) x
      let finish (s : State) : State :=
        if s.unitState 1 x = 2 ∨ s.unitState 2 x = 2 then s
        else ((s.setFld F.STK_REB_STAT_BUSY 0).setFld F.STK_REB_STAT_STATUS Status.ok.code)
      if s.unitState 1 x = 2 then
        let s := s.rebuildTo x p2
        let n := (s.stk x).rebLost
        let s := s.setStk x { s.stk x with awaitP1 := false, rebLost := 0 }
        let f := if x < 8 then F.STK_GRP_STAT_A_STATE else F.STK_GRP_STAT_B_STATE
        let s := s.unitChange x (x / 8) 0 2 0 (fun s => s.setFld f 0)
        finish (s.event (srcStack x) 0x14 [x / 8, n])
      else if s.unitState 2 x = 2 then
        let s := s.rebuildTo x usableFrames
        let n := (s.stk x).rebLost
        let s := s.setStk x { s.stk x with awaitP2 := false, rebLost := 0 }
        let k := pairOf x
        let s := s.unitChange x 2 k 2 0 (fun s => s.setFld F.STK_GRP_STAT_PAIR (setBits (s.fld F.STK_GRP_STAT_PAIR) (2 * k) 2 0))
        finish (s.event (srcStack x) 0x14 [2 + k * 2 ^ 2, n])
      else s)

/-! ### Scrubber (R167, R150, R151) -/

/-- The page decode of the scrubber, errors and erasures together: a data line or a check line that disagrees with its codeword is written back
corrected; where a codeword does not decode, the check lines are written from the data (R150, R167). -/
def State.scrubCode (s : State) (frame : Nat) : State :=
  let dec := s.pageDecode frame true
  if dec.all (fun c => c == some []) then s
  else if dec.all Option.isSome then
    let at_ (pos : Nat) : Bool := dec.any (fun c => (c.getD []).any (fun e => e.1 == pos && e.2 ≠ 0))
    let s' := ((List.range 1024).filter (fun l => at_ (dataPos l))).foldl (fun (t : State) l =>
      match s.lineGet frame l with
      | some g => (decodedLine dec (dataPos l) g.value).elim t (fun d => (t.bucket (keyStack frame) 1).storeLine frame l d (s.rebuiltTag frame l d))
      | none => t) s
    ((List.range 64).filter (fun k => at_ (checkPos k))).foldl (fun (t : State) k =>
      let c := (s.checkWords frame k).flatMap (fun w => w.getD [0, 0, 0, 0])
      (decodedLine dec (checkPos k) c).elim t (fun d => t.setCheck frame k d)) s'
  else s.recode frame 1 []

/-- Scrubs one usable frame: every line through its line code, the page code where it is in force, the page-state list exact again, MIG clear (R167). -/
def State.scrubFrame (s : State) (frame : Nat) : State :=
  let s := (s.linesIn frame).foldl (fun s l => if s.deadLine frame l then s else (s.readStored frame l 1).state) s
  let s := if s.codeDirty frame then s else s.scrubCode frame
  let s := (s.linesIn frame).foldl (fun s l => match s.lineGet frame l with
    | some g =>
      -- the migration tag stays until the REMAP (R141)
      if g.tag / 4 % 2 = 1 ∧ !s.migSlots.any (fun m => m.2.2.2 ≠ 0 && m.2.2.1.dst == frame) then s.storeLine frame l g.data (g.tag - 4) else s
    | none => s) s
  let ls := ((s.pageLines frame).filter (fun l => l.2.2 % 2 == 1)).map (·.1)
  s.setPageState frame (listPoison (bits (s.pageState frame) 0 1) ls)

/-- Scrubs a check frame or a metadata frame: line-code corrections are written back; a check line that fails its line code is written again from its
page, a metadata line from another of its copies (R149, R152, R167). -/
def State.scrubOther (s : State) (frame : Nat) : State :=
  let x := keyStack frame
  let p := keyPage frame
  (s.linesIn frame).foldl (fun s l =>
    if s.deadLine frame l then s
    else match s.lineGet frame l with
      | some g => if g.fixed then (s.bucket x 0).putWord frame l (wordOf g.data (sideOf g.data g.tag g.ctrl)) else s
      | none =>
        if p < 1566720 then
          let f := frameKey x ((p - usableFrames) * 16 + l / 64)
          if s.codeDirty f then s
          else (s.otherLines f 1024).elim s (fun ls => (s.bucket x 1).storeLine frame l ((pageCode ls).getD (l % 64) zeroLine) 0)
        else
          let c := (p - 1566720) / 2048
          let m := (p - 1566720) % 2048
          let others := ((List.range 3).filter (· ≠ c)).filterMap (fun d => s.lineGet (frameKey x (metaPage d m)) (metaLine d (metaLine c l)))
          others.head?.elim s (fun g => s.storeLine frame l g.data g.tag)) s

/-- SCRUB_PAGE (R167): the frame at the pointer, check and metadata frames included; a full walk is a pass. -/
def execScrubPage (x : Stack) (e : ReadErr) (s : State) : Res :=
  let x := x.val
  .next (if !s.stkOpen x || (s.fld F.STK_SCRUB_CTL_PASS_H x = 0 ∧ !s.flag F.STK_SCRUB_CTL_START x) then s
    else
      let p := s.fld F.STK_SCRUB_STAT_PTR x
      let s := s.upset e
      let s := if usableFrames ≤ p then s.scrubOther (frameKey x p) else if s.reach (frameKey x p) = .direct then s.scrubFrame (frameKey x p) else s
      if p + 1 < framesPerStack then s.setFld F.STK_SCRUB_STAT_PTR (p + 1) x
      else ((s.setFld F.STK_SCRUB_STAT_PTR 0 x).bump F.STK_SCRUB_STAT_PASSES 1 x).setFld F.STK_SCRUB_CTL_START 0 x)

/-- SCRUB_BATCH (R167): a sleeping stack is woken for its batch. -/
def execScrubBatch (x : Stack) (s : State) : Res :=
  .next (let k := s.stk x.val
    if s.stkState x.val = 5 ∧ s.fld F.STK_SCRUB_CTL_PASS_H x.val ≠ 0 ∧
        k.batchAt + s.fld1 F.STK_SCRUB_CTL_BATCH_MIN x.val * 60000000000 ≤ s.now then
      (s.setStk x.val { k with batchAt := s.now }).wakeStk x.val
    else s)

/-- SCRUB_START (R167): a pass begins at once, from the first frame; a sleeping stack wakes. -/
def execScrubStart (w : Writer) (x : Stack) (s : State) : Res :=
  .next (s.regWrite w .STK_SCRUB_CTL x.val (fun s =>
    (((s.setFld F.STK_SCRUB_CTL_START 1 x.val).setFld F.STK_SCRUB_STAT_PTR 0 x.val).wakeStk x.val).respond .ok))

/-- BUCKET_LEAK (R168). -/
def execBucketLeak (x : Stack) (s : State) : Res :=
  .next (let k := s.stk x.val
    let t := s.fld F.STK_BKT_CFG_LEAK_S x.val * 1000000000
    if t ≠ 0 ∧ k.leakAt + t ≤ s.now then
      let s := s.setStk x.val { k with leakAt := s.now }
      [F.STK_BKT_LVL_LINE, F.STK_BKT_LVL_PAGE, F.STK_BKT_LVL_GRP].foldl (fun s f => s.setFld f (s.fld f x.val - 1) x.val) s
    else s)

/-! ### Start-up events (R171, R161) -/

/-- A controller has tested itself: a failure keeps its stack closed. -/
def State.selfTested (s : State) (x first : Nat) : State :=
  let s := (s.setFld F.STK_SELFTEST_DONE 1 x).setFld F.STK_SELFTEST_FIRST first x
  if first = 0 then s.setFld F.STK_SELFTEST_PASS 1 x else (s.setStkState x 7).event (srcStack x) 0x15 [first]

/-- CHECKER_SELF_TEST_END (R171): `first` is the first failing test, 0 when every test passed. It ends at start-up
step 5. -/
def execCheckerSelfTestEnd (x : Stack) (first : Fin 9) (s : State) : Res :=
  .next (let x := x.val
    if s.flag F.STK_SELFTEST_DONE x ∨ s.fld F.GLB_STAT_STEP ≠ 5 ∨ s.quarterDown (stackQuarter x) then s
    else s.selfTested x first.val)

/-- ZERO_FILL_END (R161): the fill of a stack ends: no line is poisoned, every page is code-clean, and INIT reads 0. -/
def execZeroFillEnd (x : Stack) (s : State) : Res :=
  .next (let x := x.val
    if s.flag F.STK_ECC_STAT_INIT x ∧ s.stkOpen x then
      let here (f : Nat) : Bool := keyStack f == x
      let s := s.setPool { s.pool with
        mem := s.pool.mem.filter (fun c => !here (c.1 / 65536))
        side := s.pool.side.filter (fun e => !here (e.1 / 1024))
        pstate := s.pool.pstate.filter (fun e => !here e.1) }
      let s := s.setStk x { s.stk x with untrusted := 0, cdq := [], folds := [] }
      s.setFld F.STK_ECC_STAT_INIT 0 x
    else s)

end Sys2Proof.Machine
end

