-- ==== Sys2Proof/Machine/Cfg.lean ====
section
/-!
DEFINITION. Configuration space: what every register reads, and what a write of every register does, by the access types of Table 0-4 and the
rules of its chapter (R3 to R5, R63, R143, R261, R311, R325, R364, R388, R412, R413).
-/
namespace Sys2Proof.Machine
open Sys2Proof

/-! ### Reads -/

/-- Bits of a truth value for each of `n` indexes. -/
def bitsWhere (n : Nat) (p : Nat → Bool) : Nat := (List.range n).foldl (fun a i => if p i then a + 2 ^ i else a) 0

/-- A stored register with a field replaced. -/
def withFld (v : Nat) (f : Fld) (x : Nat) : Nat := setBits v f.lo f.width (min x (2 ^ f.width - 1))

/-- Words of a quarter's own state (Tables 2-9, 3-16, 4-6, 7-8). -/
def State.xltQstat (s : State) (q : Nat) : Nat :=
  let v := withFld 0 F.XLT_QSTAT_WALK_BUSY (s.xlt.walks.filter (fun w => w.q == q)).length
  let v := withFld v F.XLT_QSTAT_MISSQ (s.xlt.missQ.filter (fun m => m.q == q)).length
  let v := withFld v F.XLT_QSTAT_FLT_USED (s.xlt.faults.filter (fun f => f.q == q)).length
  withFld v F.XLT_QSTAT_LOG_FULL (s.recordWaits q).toNat

def State.faultView (s : State) (q e : Nat) : Nat :=
  let v := withFld 0 F.XLT_FLT_ENTRY_SERIAL (smGet 0 s.xlt.serials (q * 128 + e) % 128)
  match s.xlt.faults.find? (fun f => f.q == q && f.e == e) with
  | none => v
  | some f =>
    let v := withFld (withFld v F.XLT_FLT_ENTRY_V 1) F.XLT_FLT_ENTRY_CTX f.ctx
    let v := withFld (withFld v F.XLT_FLT_ENTRY_SEG f.seg) F.XLT_FLT_ENTRY_WAITERS (min f.joined 65535)
    withFld (withFld v F.XLT_FLT_ENTRY_AGE ((s.now - f.since) / 10000)) F.XLT_FLT_ENTRY_REC f.recorded.toNat

def State.regionView (s : State) (r : Nat) : Nat :=
  if s.rgnV r then
    let x := s.region r
    withFld (withFld (withFld (withFld 0 F.XLT_VER_RGN_STAT_CUR_VER x.cur) F.XLT_VER_RGN_STAT_RETAINED x.retained)
      F.XLT_VER_RGN_STAT_PENDING x.pending) F.XLT_VER_RGN_STAT_SH_FREE (s.shadowFree r)
  else 0

def State.cohStat (s : State) (q : Nat) : Nat :=
  let n := (s.coh.dir.filter (fun e => lineQuarter e.1 == q && e.2.isSome)).length
  withFld (withFld (withFld 0 F.COH_STAT_ENTRIES n) F.COH_STAT_TRK (s.trackers q)) F.COH_STAT_RCL (s.coh.sweeps.any (fun x => x.q == q)).toNat

def State.stnQstat (s : State) (q : Nat) : Nat :=
  let n (p : Nat → Bool) : Nat := ((List.range 324).filter (fun i => p (s.siteState (q * 324 + i)))).length
  withFld (withFld (withFld (withFld 0 F.STN_QSTAT_ENABLED (n (fun x => 1 ≤ x && x ≤ 5))) F.STN_QSTAT_SPARE (n (· == 0)))
    F.STN_QSTAT_FENCED (n (· == 6))) F.STN_QSTAT_RETIRED (n (· == 7))

/-- Whether a clock domain is gated or stopped (Table 15-5). -/
def State.domGated (s : State) (d : Nat) : Bool :=
  if d = 0 then false
  else s.power.deep == 2 ||
    (if d < 5 then (s.fld F.PWR_LP_STAT_GATED).testBit (d - 1)
     else if d < 13 then false
     else if d < 29 then s.stkState (d - 13) == 5
     else if d < 45 then s.stkState (d - 29) == 5
     else if d < 59 then s.portState (d - 45) == stSleep else false)

/-- Frequency of a domain in kHz (Table 15-5). -/
def domKhz (d : Nat) : Nat :=
  if d = 0 then 3125 else if d < 9 then 1600000 else if d < 13 then 1000000 else if d < 29 then 1600000
  else if d < 45 then 6400000 else if d < 59 then 781250 else 1000000

/-- Interrupt state of group `g` and words of 64 sources (Table 14-5). -/
def State.groupView (s : State) (g : Nat) : Nat :=
  let left := (smGet 0 s.intc.holdEnd g - s.now + 999) / 1000
  withFld (withFld (withFld (withFld 0 F.INTC_GRP_STAT_SERV (s.intc.serv.getLsbD g).toNat) F.INTC_GRP_STAT_ERR (s.intc.err.getLsbD g).toNat)
    F.INTC_GRP_STAT_HOLD_LEFT left) F.INTC_GRP_STAT_DELIV (smGet 0 s.intc.deliv g)

/-- Word `i` of the window onto the recorder's store (R369). -/
def State.evrWindow (s : State) (i : Nat) : Nat := recGet (s.evrSlot (s.fld F.EVR_CURSOR_SLOT + i / 32)) (i % 32) 0 64

/-- What a register reads: the bits that are write-only read 0 (R4), and registers that report state report it. -/
def State.regView (s : State) (r : RegRef) : Nat :=
  let n := r.reg.home r.inst
  let v := s.regVal r.reg r.inst r.i r.j &&& (2 ^ 64 - 1 - r.reg.mask (fun a => a == .wo))
  match r.reg with
  | .XLT_QSTAT => s.xltQstat n
  | .XLT_FLT_ENTRY => s.faultView n r.i
  | .XLT_VER_REMAP => withFld 0 F.XLT_VER_REMAP_USED s.remapUsed
  | .XLT_VER_RGN_STAT => s.regionView r.i
  | .MOV_QSTAT =>
    bitsWhere 16 (fun k => let t := s.movState n k; t == 1 || t == 2 || t == 4) + bitsWhere 16 (fun k => s.movState n k == 3) * 2 ^ 16
  | .COH_STAT => s.cohStat n
  | .STK_ECC_STAT => withFld (withFld v F.STK_ECC_STAT_CDQ (s.stk n).cdq.length) F.STK_ECC_STAT_FOLD_OPEN (s.stk n).folds.length
  | .STN_QSTAT => s.stnQstat n
  | .STN_LOOM_DEV =>
    withFld (withFld 0 F.STN_LOOM_DEV_SEQ_TOTAL s.seqTotal) F.STN_LOOM_DEV_LOOMS ((List.range 64).filter (fun m => s.loomState m != 0)).length
  | .STN_TRAP1 => if s.flag F.SEC_STAT_CONF then 0 else v
  | .STN_TRAP2 => if s.flag F.SEC_STAT_CONF then 0 else v
  | .HUB_RT_STAT => withFld v F.HUB_RT_STAT_HELD s.heldOld
  | .PORT_GATE_STAT =>
    withFld (withFld v F.PORT_GATE_STAT_OPEN (s.gatesOpen n)) F.PORT_GATE_STAT_UNLOCKED (if s.locked then 0 else 1)
  | .PORT_HIST => if s.flag F.SEC_STAT_CONF then 0 else v
  | .TL_STAT =>
    let v := withFld (withFld 0 F.TL_STAT_UP0 (s.portUp 12).toNat) F.TL_STAT_UP1 (s.portUp 13).toNat
    let v := withFld (withFld v F.TL_STAT_ACTIVE (s.tl.active % 2)) F.TL_STAT_NONE (!(s.portUp 12 || s.portUp 13)).toNat
    withFld (withFld v F.TL_STAT_UNACK s.tl.unack.length) F.TL_STAT_HELD s.tl.held.length
  | .TL_EVT_STAT => withFld v F.TL_EVT_STAT_WAITING s.tl.events.length
  | .INTC_STAT => bitsWhere 32 s.groupReady + s.intc.serv.toNat * 2 ^ 32
  | .INTC_CORE => withFld v F.INTC_CORE_PEND (if r.i = 0 then s.intc.core0.toNat else s.intc.core1.toNat)
  | .INTC_GRP_STAT => s.groupView r.i
  | .INTC_SRC_PEND => bitsWhere 64 (fun j => s.srcPending (64 * r.i + j))
  | .INTC_SRC_SERV => bitsWhere 64 (fun j => s.inService (64 * r.i + j))
  | .INTC_SRC_RAW => bitsWhere 64 (fun j => s.levelCond (64 * r.i + j))
  | .EVR_STAT =>
    withFld (withFld (withFld (withFld 0 F.EVR_STAT_HEAD s.evr.head) F.EVR_STAT_COUNT s.evr.count) F.EVR_STAT_CLEARS s.evr.clears)
      F.EVR_STAT_CLR_SEQ s.evr.clrSeq
  | .EVR_OPS => s.opS + s.evr.pcyc % 2 ^ 32 * 2 ^ 32
  | .EVR_TIME => withFld (withFld 0 F.EVR_TIME_HOURS (s.opS / 3600)) F.EVR_TIME_SECS (s.opS % 3600)
  | .EVR_WIN => s.evrWindow r.i
  | .PWR_LEVEL => withFld (withFld v F.PWR_LEVEL_DUTY_EFF s.dutyEff) F.PWR_LEVEL_COLS_EFF s.colsEff
  | .PWR_STATPIN => v
  | .CLK_DOM =>
    withFld (withFld (withFld v F.CLK_DOM_GATED (s.domGated r.i).toNat) F.CLK_DOM_LOCK (if r.i ≠ 0 ∧ s.power.deep ≠ 2 ∧ !s.domGated r.i then 1
      else if r.i ≠ 0 ∧ r.i < 5 ∧ s.power.deep ≠ 2 then 1 else 0)) F.CLK_DOM_FREQ_KHZ (domKhz r.i)
  | .TDM_LEASE => withFld v F.TDM_LEASE_LEFT_US (if s.fld F.TDM_LEASE_HOLDER = 0 then 0 else (s.tdm.leaseEnd - s.now) / 1000)
  | .GLB_ID => Config.deviceId.toNat
  | .GLB_PART =>
    withFld (withFld (withFld v F.GLB_PART_PART 0x4816) F.GLB_PART_STEPPING Config.stepping.toNat) F.GLB_PART_ROM_VER Config.romVer.toNat
  | _ => v

/-- The quarter whose reset closes the block window that an offset lies in (R311). -/
def windowQuarter (off : Nat) : Option Nat :=
  match blockAt off with
  | some (.xlt, q, _) => some q
  | some (.coh, q, _) => some q
  | some (.stn, q, _) => some q
  | some (.mov, q, _) => some q
  | some (.stk, x, _) => some (stackQuarter x)
  | some (.port, p, _) => some (portQuarter p)
  | _ => none

/-- Whether the window of an offset is closed: its quarter is under reset, or no firmware was verified and only GLB answers (R311,
Table 16-1 step 3). -/
def State.windowShut (s : State) (off : Nat) : Bool :=
  (match windowQuarter off with | some q => s.quarterDown q | none => false) ||
    (s.fld F.GLB_STAT_STEP == 3 && s.fld F.PWR_STATPIN_CODE == 14 && 0x100000 ≤ off)

/-- A read of configuration space: `rsp` holds its status and data, and RC fields clear (R4, R5, R412). -/
def State.cfgRead (s : State) (w : Writer) (off : Nat) : State :=
  let s := s.wakeFor w
  if s.heldReset then s
  else match regAt off with
    | .outside => s.respond .accessDenied
    | .unimplemented => s.respond (if s.windowShut off then .busy else .ok)
    | .reg r =>
      if s.windowShut off then s.respond .busy
      else if r.reg = .INTC_SRC_CFG ∧ srcReserved r.i then s.respond .accessDenied
      else
        let v := s.regView r
        let m := r.reg.mask (fun a => a == .rc)
        let s := if m = 0 then s else s.setReg r.reg (s.regVal r.reg r.inst r.i r.j &&& (2 ^ 64 - 1 - m)) r.inst r.i r.j
        s.respond .ok (BitVec.ofNat 64 v)

/-! ### Writes -/

/-- The next state of a command's effect. No command stops. -/
def resState (s : State) : Res → State
  | .next t => t
  | _ => s

/-- A write that is stored by the access types of the register's fields: RW and RWS store, W1C clears (R4). -/
def State.typedWrite (s : State) (r : RegRef) (v : Nat) : State :=
  let m := r.reg.mask accRW
  let c := r.reg.mask (fun a => a == .w1c)
  let old := s.regVal r.reg r.inst r.i r.j
  (s.setReg r.reg (((old &&& (2 ^ 64 - 1 - m)) ||| (v &&& m)) &&& (2 ^ 64 - 1 - s.clears r.reg c v r.inst r.i)) r.inst r.i r.j).respond .ok

def finOf (n a : Nat) (h : 0 < n := by decide) : Fin n := ⟨a % n, Nat.mod_lt _ h⟩

/-- Registers of check-value units that stand still while EN = 1 (R364). -/
def RegName.chkFixed (r : RegName) : Bool :=
  r == .CHK_SEL || r == .CHK_POLY || r == .CHK_INIT || r == .CHK_XOROUT || r == .CHK_RUN || r == .CHK_COUNT

/-- Whether `CHK_SEL` names a unit that exists (Table 14-7). -/
def chkSelOk (v : Nat) : Bool :=
  let i := F.CHK_SEL_IDX.of v
  match F.CHK_SEL_KIND.of v with
  | 0 => i < 324
  | 1 => i < 14
  | _ => i < 16

/-- A write changes what the writable fields of the register hold. -/
def State.changes (s : State) (r : RegRef) (v : Nat) : Bool := v &&& r.reg.mask accRW != s.regVal r.reg r.inst r.i r.j &&& r.reg.mask accRW

/-- The writes of registers without a row of their own that do more than store (the rules each names). -/
def State.specialWrite (s : State) (r : RegRef) (v : Nat) : State :=
  let p := r.inst
  let deny := s.respond .accessDenied
  match r.reg with
  | .XLT_SEG_BASE => if s.segV r.i r.j then deny else s.typedWrite r v
  | .XLT_SEG_LEN => if s.segV r.i r.j then deny else s.typedWrite r v
  | .XLT_SEG_HVA => if s.segV r.i r.j then deny else s.typedWrite r v
  | .XLT_VER_RGN_PG => if s.rgnV r.i then deny else s.typedWrite r v
  | .STK_CTL => ((s.typedWrite r v).fillStk p).settle
  | .STK_LAYOUT => s.writeLayout v
  | .SEC_DEBUG => s.writeDebug v
  | .SEC_CTX => if s.ctxV r.i then deny else s.typedWrite r v
  | .STN_LOOM_CTL => if s.loomState r.i ≠ 0 then deny else s.typedWrite r v
  | .STN_LOOM_IMG => if s.loomState r.i ≠ 0 then deny else s.typedWrite r v
  | .STN_LOOM_SEQT => if s.loomState r.i ≠ 0 then deny else s.typedWrite r v
  | .STN_LOOM_KEY => (s.setReg .STN_LOOM_KEY v 0 r.i).respond .ok
  | .PORT_ALLOW =>
    if F.PORT_ALLOW_BLOCK.of v = 1 ∧ F.PORT_ALLOW_KEY.of v % 64 ≠ 0 then deny else s.typedWrite r v
  | .PORT_GATE_BASE => if s.fld F.PORT_GATE_CTL_ACT p = r.i ∧ s.changes r v then deny else s.typedWrite r v
  | .PORT_GATE_LIST => if s.fld F.PORT_GATE_CTL_ACT p = r.i ∧ s.changes r v then deny else s.typedWrite r v
  | .PORT_GATE_CTL =>
    let f := if s.fld F.PORT_GATE_CTL_ACT p = 0 then F.PORT_GATE_CTL_LEN0 else F.PORT_GATE_CTL_LEN1
    if s.fld f p ≠ f.of v then deny
    else
      let s := s.typedWrite r v
      if F.PORT_GATE_CTL_PEND.of v = 1 ∧ !s.flag F.PORT_GATE_CTL_PEND p then (s.pendGates p).respond .ok else s
  | .HUB_RT_DEF => if s.verClosed r.i then deny else s.typedWrite r v
  | .HUB_TIME_CTL =>
    let src (x : Nat) : Nat := F.HUB_TIME_CTL_SRC.of x % 3
    let old := s.regVal .HUB_TIME_CTL
    let s := s.typedWrite r v
    if src old = src v then s
    else (({ s with time := { s.time with good := 0, bad := 0, sync := none } } : State).setLock false).respond .ok
  | .INTC_SRC_PEND =>
    let m := s.clears .INTC_SRC_PEND (2 ^ 64 - 1) v 0 r.i
    (s.setIntc { s.intc with pend := s.intc.pend &&& ~~~(BitVec.ofNat 1024 (m * 2 ^ (64 * r.i))) }).respond .ok
  | .CHK_SEL =>
    if s.flag F.CHK_CTL_EN 0 r.i ∨ !chkSelOk v ∨ (s.flag F.SEC_STAT_CONF ∧ v &&& RegName.CHK_SEL.mask accRW ≠ s.regVal .CHK_SEL 0 r.i) then deny
    else s.typedWrite r v
  | _ => if r.reg.chkFixed ∧ s.flag F.CHK_CTL_EN 0 r.i then deny else s.typedWrite r v

/-- A write that is invalid and changes nothing (the OP values that the field tables call so). -/
def nothing (w : Writer) (r : RegRef) (s : State) : Res := .next (s.regWrite w r.reg r.inst (fun s => s.respond .ok))

/-- A write that is refused. -/
def denied (w : Writer) (r : RegRef) (s : State) : Res := .next (s.regWrite w r.reg r.inst (fun s => s.respond .accessDenied))

/-- A write of a register of translation or versions that is a command. -/
def xltWrite (w : Writer) (r : RegRef) (v : BitVec 64) (s : State) : Res :=
  let n := v.toNat
  match r.reg with
  | .XLT_CTX_BIND => execXltCtxBindWrite w (finOf _ r.i) v s
  | .XLT_SEG_ATTR => execXltSegAttrWrite w (finOf _ r.i) (finOf _ r.j) v s
  | .XLT_EXT_OP => if F.XLT_EXT_OP_OP.of n = 0 then execExtRead w s else execExtWrite w s
  | .XLT_FLT_RESUME =>
    let f := BitVec.ofNat 16 (F.XLT_FLT_RESUME_FID.of n)
    match F.XLT_FLT_RESUME_ACTION.of n with
    | 0 => execResumeRetry w f s
    | 1 => execResumeFail w f s
    | _ => .next (s.regWrite w .XLT_FLT_RESUME 0 (fun s => (s.setRstat f.toNat 2 0).respond .ok))
  | .XLT_RVK_CMD =>
    let c := finOf _ (F.XLT_RVK_CMD_CTX.of n)
    let g := finOf _ (F.XLT_RVK_CMD_SEG.of n)
    let t := BitVec.ofNat 16 (F.XLT_RVK_CMD_TAG.of n)
    match F.XLT_RVK_CMD_TYPE.of n with
    | 0 => execRevokeUnmap w c g t s
    | 1 => execRevokeRemap w c g t s
    | 2 => execRevokeProtect w c g t s
    | 3 => execRevokeSegment w c g t s
    | 4 => execRevokeContext w c t s
    | _ => denied w r s
  | .XLT_VER_CMD =>
    let g := finOf _ (F.XLT_VER_CMD_REGION.of n)
    let k := finOf _ (F.XLT_VER_CMD_SLOT.of n)
    match F.XLT_VER_CMD_OP.of n, F.XLT_VER_CMD_P.of n with
    | 0, 0 => execForceClose w g k s
    | 1, 1 => execDiscardPendingSlot w g k s
    | 2, _ => execDestroyRegion w g s
    | _, _ => .next (s.regWrite w r.reg r.inst (fun s => s.verResult .accessDenied .ok))
  | .XLT_VER_RGN_ID => execXltVerRgnIdWrite w (finOf _ r.i) v s
  | .MOV_CH_CTX => execMovChCtxWrite w (finOf _ r.inst) (finOf _ r.i) v s
  | .MOV_CH_START => execMovChStart w (finOf _ r.inst) (finOf _ r.i) v s
  | .MOV_CH_CMD =>
    let q := finOf _ r.inst
    let k := finOf _ r.i
    match F.MOV_CH_CMD_OP.of n with
    | 0 => execMoverResume w q k s
    | 1 => execMoverRetry w q k s
    | 2 => execMoverStop w q k s
    | _ => nothing w r s
  | _ => .next (s.regWrite w r.reg r.inst (fun s => s.specialWrite r n))

/-- A write of a register of the directory, the stacks, the stations or the looms that is a command. -/
def unitWrite (w : Writer) (r : RegRef) (v : BitVec 64) (s : State) : Res :=
  let n := v.toNat
  match r.reg with
  | .COH_DEAD_CMD => execCohDeadCmd w (finOf _ (F.COH_DEAD_CMD_AGENT.of n)) s
  | .COH_AGENT => execCohAgentWrite w (finOf _ r.i) v s
  | .STK_TRN_CTL =>
    .next (s.regWrite w r.reg r.inst (fun s =>
      let s := s.typedWrite r n
      if F.STK_TRN_CTL_START.of n = 1 then ((s.setFld F.STK_TRN_CTL_START 1 r.inst).wakeStk r.inst).respond .ok else s))
  | .STK_REF =>
    -- the refresh rate follows HOT_C (R130)
    .next (s.regWrite w r.reg r.inst (fun s => let s := s.typedWrite r n; s.setTemp r.inst (s.fld F.STK_STAT_TEMP r.inst)))
  | .STK_SCRUB_CTL =>
    if F.STK_SCRUB_CTL_START.of n = 1 then
      execScrubStart w (finOf _ r.inst) (resState s (.next (s.regWrite w r.reg r.inst (fun s => s.typedWrite r n))))
    else .next (s.regWrite w r.reg r.inst (fun s => s.typedWrite r n))
  | .STK_PLC_SCAN => execPlacementScan w (finOf _ r.inst) (finOf _ (F.STK_PLC_SCAN_CLASS.of n)) (BitVec.ofNat 21 (F.STK_PLC_SCAN_MAX.of n)) s
  | .STK_MIG_CMD => execMigrationCmd w (finOf _ r.inst) (BitVec.ofNat 17 (F.STK_MIG_CMD_EXT_COUNT.of n)) (BitVec.ofNat 16 (F.STK_MIG_CMD_TAG.of n)) s
  | .STK_REBUILD => execRebuildStart w (finOf _ (F.STK_REBUILD_STK.of n)) s
  | .STN_FENCE_CMD =>
    let q := finOf _ r.inst
    let k := BitVec.ofNat 9 (F.STN_FENCE_CMD_SITE.of n)
    match F.STN_FENCE_CMD_OP.of n with
    | 0 => execFenceCmd w q k s
    | 1 => execSelftestCmd w q k s
    | 2 => execRetireCmd w q k s
    | _ => if 323 < k.toNat then denied w r s else nothing w r s
  | .STN_LOOM_CMD =>
    let l := finOf _ r.i
    match F.STN_LOOM_CMD_OP.of n with
    | 0 => execLoomLoad w l s
    | 1 => execLoomReset w l s
    | 2 => execLoomPause w l s
    | 3 => execLoomResume w l s
    | _ => .next (s.loomCmd w (fun s => s.loomErr r.i .accessDenied))
  | _ => .next (s.regWrite w r.reg r.inst (fun s => s.specialWrite r n))

/-- A write of a register of the ports or the hub that is a command. -/
def linkWrite (w : Writer) (r : RegRef) (v : BitVec 64) (s : State) : Res :=
  let n := v.toNat
  let p := finOf _ r.inst
  match r.reg with
  | .PORT_CTL => execPortCtlWrite w p v s
  | .PORT_CRD_CFG => execPortCrdCfgWrite w p v s
  | .PORT_TRN_CMD =>
    match F.PORT_TRN_CMD_OP.of n with
    | 0 => execPortRetrainCmd w p s
    | 1 => execPortDownCmd w p s
    | 2 => execPortTrainCmd w p s
    | _ => nothing w r s
  | .PORT_Q_CFG => execPortQCfgWrite w p (finOf _ r.i) v s
  | .HUB_RT_CMD =>
    match F.HUB_RT_CMD_OP.of n with
    | 0 => execFlip w s
    | 1 => execRecheck w s
    | _ => nothing w r s
  | .HUB_RT_OP =>
    match F.HUB_RT_OP_OP.of n with
    | 0 => execRouteRead w s
    | 1 => execRouteWrite w s
    | 2 => execRouteClear w s
    | _ => execRouteCopy w s
  | .HUB_MC_OP => if F.HUB_MC_OP_OP.of n = 0 then execGroupRead w s else execGroupWrite w s
  | .HUB_TIME_SET => execTimeSet w v s
  | .HUB_POL_CFG => execHubPolCfgWrite w (finOf _ r.i) v s
  | .HUB_QSEL => execHubQselWrite w (finOf _ r.i) v s
  | _ => .next (s.regWrite w r.reg r.inst (fun s => s.specialWrite r n))

/-- Whether a core's action port takes a write: its own core's, while its actions are accepted (R389, R391). -/
def State.portOwn (s : State) (w : Writer) (k : Nat) : Bool := writerCore w == some k && s.mayAct k

/-- A write of a register of the device's controllers that is a command. -/
def deviceWrite (w : Writer) (r : RegRef) (v : BitVec 64) (s : State) : Res :=
  let n := v.toNat
  match r.reg with
  | .SEC_REL_CMD => execReleaseCmd w v s
  | .SEC_BNC_TAIL => execBounceTailWrite w (finOf _ r.i) v s
  | .INTC_CTL => if F.INTC_CTL_GDIS.of n = 0 then execGdisClear w s else .next (s.regWrite w r.reg r.inst (fun s => s.specialWrite r n))
  | .INTC_GRP_CMPL => execGroupComplete w (finOf _ (F.INTC_GRP_CMPL_GROUP.of n)) s
  | .INTC_SW_SET => execSwSet w (finOf _ (F.INTC_SW_SET_N.of n)) s
  | .INTC_GRP_CFG => execIntcGrpCfgWrite w (finOf _ r.i) v s
  | .INTC_SRC_CFG => execIntcSrcCfgWrite w (finOf _ r.i) v s
  | .CHK_CTL => execChkCtlWrite w (finOf _ r.i) v s
  | .CHK_CMD =>
    match F.CHK_CMD_OP.of n with
    | 0 => execChkCompare w (finOf _ r.i) s
    | 1 => execChkReset w (finOf _ r.i) s
    | _ => nothing w r s
  | .EVR_CURSOR => execEvrCursorWrite w v s
  | .PWR_LP_CMD => if F.PWR_LP_CMD_OP.of n = 1 then execDeepCmd w s else execDeepCancel w s
  | .TDM_CMD =>
    match F.TDM_CMD_OP.of n with
    | 0 => execHandover w s
    | 1 => execLeaseOn w s
    | 2 => execLeaseOff w s
    | _ => nothing w r s
  | .TDM_LEASE =>
    if hostWriter w ∨ w = .image then denied w r s
    else if F.TDM_LEASE_ACQ.of n = 1 then execLeaseAcq w s else nothing w r s
  | .TDM_HB =>
    let s := resState s (.next (s.regWrite w r.reg r.inst (fun s => s.typedWrite r n)))
    if F.TDM_HB_BEAT.of n = 1 ∧ s.rsp.1 = .ok then execHeartbeat w s else .next s
  | .TDM_ACT0 =>
    .next (let s := s.wakeFor w
      if s.heldReset then s else if s.portOwn w r.i then s.typedWrite r n else s.respond .accessDenied)
  | .TDM_ACT1 => if r.i < 2 then execAction w (finOf _ r.i) v s else denied w r s
  | _ => .next (s.regWrite w r.reg r.inst (fun s => s.specialWrite r n))

/-- A direct write of a class A register: only the holder of the token makes it, in lease mode (R388, R393). -/
def directA (w : Writer) (r : RegRef) (n : Nat) (s : State) : Res :=
  .next (s.regWrite w r.reg r.inst (fun s =>
    if (writerCore w).isSome ∧ s.fld F.TDM_ROLE_MODE = 1 ∧ !(r.reg == .PWR_STATPIN && F.PWR_STATPIN_CODE.of n == 15) then
      (s.putA r n).respond .ok
    else s.respond .accessDenied))

/-- A write of a register that exists, through its own block. -/
def writeReg (w : Writer) (r : RegRef) (v : BitVec 64) (s : State) : Res :=
  if r.reg.classA ∧ r.reg ≠ .INTC_GRP_CMPL then directA w r v.toNat s
  else match r.reg.spec.block with
    | .xlt => xltWrite w r v s
    | .mov => xltWrite w r v s
    | .coh => unitWrite w r v s
    | .stk => unitWrite w r v s
    | .stn => unitWrite w r v s
    | .port => linkWrite w r v s
    | .hub => linkWrite w r v s
    | _ => deviceWrite w r v s

/-- A write of configuration space through the block window of its offset: outside every window it is denied; unimplemented offsets and copies
of device registers ignore it (R5, R63, R412). `put` writes a register that exists. -/
def State.cfgWrite (s : State) (w : Writer) (off : Nat) (put : RegRef → State → Res) : State :=
  let s1 := s.wakeFor w
  if s1.heldReset then s1
  else match regAt off with
    | .outside => s1.respond .accessDenied
    | .unimplemented => s1.respond (if s1.windowShut off then .busy else if s1.barred w then .accessDenied else .ok)
    | .reg r =>
      if s1.windowShut off then s1.respond .busy
      else if r.inst ≠ r.reg.home r.inst then s1.respond (if s1.barred w then .accessDenied else .ok)
      else resState s1 (put r s)

end Sys2Proof.Machine
end

