-- ==== Sys2Proof/Machine/Startup.lean ====
section
/-!
DEFINITION. Start-up and resets as commands: the pins and register commands that reset the device, firmware verification, the configuration image,
warm start, the return of a quarter, and the steps that time ends (R328, R334, R337, R338, R401 to R411).
-/
namespace Sys2Proof.Machine
open Sys2Proof

def State.setStart (s : State) (x : Start) : State := { s with start := x }

/-! ### Resets (R406, R411) -/

/-- POWER_ON_RESET (R401, R396): `PORST_N` is released; STAT[2:0] gave the straps, `torn` are the recorder slots that lost power left torn. -/
def execPowerOnReset (straps : BitVec 3) (torn : List (BitVec 14 × BitVec 2048)) (s : State) : Res :=
  .next (if s.power.porst then
      let s := s.powerOn 0 torn
      s.setPower { s.power with straps := straps.toNat }
    else s)

/-- PORST_N_ASSERT (R406): the device is held in reset, STAT 0x0. -/
def execPorstNAssert (s : State) : Res :=
  .next (let s := s.powerLoss
    s.setPower { s.power with porst := true, off := false })

/-- PACKAGE_RESET (R406): `RESET_N` has been low for 1 µs. -/
def execPackageReset (s : State) : Res := .next (s.packageReset 4)

/-- The reset command (R406, Table 16-5): the host and the sideband write it, with CONFIRM; one that meets another in the same instant completes
BUSY. `f` is none where the command completes BUSY. -/
def State.resetCmd (s : State) (w : Writer) (confirm : Nat) (f : State → Option State) : State :=
  s.regWrite w .GLB_RST_CMD 0 (fun s =>
    if !hostWriter w ∨ confirm ≠ 0xA5 then s.respond .accessDenied
    else if s.start.cmdAt = some s.now then s.respond .busy
    else match f s with
      | none => s.respond .busy
      | some s => (s.setStart { s.start with cmdAt := some s.now }).respond .ok)

/-- The preparation of a warm reset starts (R407 steps 1 to 3): admission closes, calls end, the directory's lines are recalled. A firmware
update fails; quarter resets that prepare are abandoned. -/
def State.beginWarm (s : State) : State :=
  let s := (s.setStart { s.start with warm := true, prep := 0 }).fwFail
  let s := ((s.busyUnstarted (fun _ => true)).endLooms (fun _ => true)).endCopies (fun _ => true)
  (s.trackedFrames.foldl (fun s f => s.recallFrame f) s).settle

/-- WARM_RESET_CMD (R406, R407). -/
def execWarmResetCmd (w : Writer) (confirm : BitVec 8) (s : State) : Res :=
  .next (s.resetCmd w confirm.toNat (fun s => if !s.flag F.GLB_STAT_READY ∨ s.start.warm then none else some s.beginWarm))

/-- QUARTER_RESET_CMD (R406). A quarter already under reset takes no second one. -/
def execQuarterResetCmd (w : Writer) (q : Quarter) (confirm : BitVec 8) (s : State) : Res :=
  .next (s.resetCmd w confirm.toNat (fun s =>
    if !s.flag F.GLB_STAT_READY ∨ s.start.warm then none else some (s.beginQuarter q.val 4 false)))

/-- PACKAGE_RESET_CMD (R406). -/
def execPackageResetCmd (w : Writer) (confirm : BitVec 8) (s : State) : Res :=
  .next (s.resetCmd w confirm.toNat (fun s => some (s.packageReset 5)))

/-- WARM_START (R407, R408): once the device is prepared its logic resets and start-up begins; quarters that are held stay so. `kept` is false
where the kept copy of the image cannot be read. -/
def execWarmStart (kept : Bool) (s : State) : Res :=
  .next (if s.start.warm ∧ !s.heldReset ∧ s.scopeQuiet (fun _ => true) then
      let s := s.parkStacks (fun _ => true)
      let hold := s.fld F.GLB_STAT_QHOLD
      let s := (s.downNotices).afterReset .warm
      let s := if kept then s else s.setStart { s.start with kept := none }
      let s := (s.count F.GLB_RST_STAT_WARMS).startUp 1 true
      if hold = 0 then s
      else (((s.setFld F.GLB_STAT_QHOLD hold).setFld F.GLB_STAT_QRST hold).setFld F.SEC_STAT_QRST hold).beginTrans
    else s)

/-! ### Firmware verification (R337, Table 16-1 steps 3 and 4) -/

/-- A firmware image that boots: its signature verifies under Polertin's key, its security version is at or above FLOOR. -/
def State.fwBoots (s : State) (b : List (BitVec 8)) : Bool :=
  Config.verifies Config.romKey (Config.fwBody b) (Config.fwSig b) && decide (s.fld F.SEC_VER_FLOOR ≤ Config.fwSecVer b)

/-- Step 4: firmware sets ROLE = HOST and EN = 1 on the Thrumlink ports (R309). -/
def State.startTl (s : State) (p : Nat) : State :=
  if s.quarterDown (portQuarter p) then s else (s.setFld F.PORT_CTL_ROLE 0 p).setFld F.PORT_CTL_EN 1 p

/-- FIRMWARE_VERIFICATION_END (R337): core `c` boots its image, else that of the previous slot, else it stays off. When no core is left to verify,
start-up goes on, or stops with STAT 0xE. -/
def execFirmwareVerificationEnd (c : Fin 2) (s : State) : Res :=
  .next (let c := c.val
    if s.heldReset ∨ s.fld F.GLB_STAT_STEP ≠ 3 ∨ !s.tdm.up.testBit c ∨ s.tdm.verified.testBit c then s
    else
      let cur := s.sec.fw.getD Config.shippedFw
      let old := s.sec.fwPrev.getD []
      let done (s : State) : State := s.setTdm { s.tdm with verified := s.tdm.verified ||| 2 ^ c }
      let s :=
        if s.fwBoots cur then (done s).measureFw c cur
        else if s.sec.fwPrev.isSome ∧ s.fwBoots old then ((done s).measureFw c old).setFld F.GLB_STAT_FW_ALT 1
        else s.setTdm { s.tdm with up := s.tdm.up &&& (3 - 2 ^ c) }
      if s.tdm.up = 0 then s.setFld F.PWR_STATPIN_CODE 14
      else if s.tdm.up = s.tdm.verified then ((s.setStep 4).startTl 12).startTl 13
      else s)

/-! ### The configuration image (R402 to R405) -/

/-- NENT of an image. -/
def imgNent (b : List (BitVec 8)) : Nat := bits (wordAt b 0) 32 16

/-- The two words of entry `e`. -/
def imgEntry (b : List (BitVec 8)) (e : Nat) : Nat × Nat := (wordAt b (64 + 16 * e), wordAt b (72 + 16 * e))

/-- Check 1 of R403, of an image of `len` bytes. -/
def imgForm (b : List (BitVec 8)) (len : Nat) : Bool :=
  let w0 := wordAt b 0
  b.length == len && len == 64 + 16 * imgNent b + 2888 && imgNent b != 0 && bits w0 0 16 == 0x4346 && bits w0 16 8 == 1 &&
    bits w0 25 7 == 0 && bits w0 48 16 == 0 && bits (wordAt b 16) 32 32 == 0 && [24, 32, 40, 48, 56].all (fun o => wordAt b o == 0) &&
    (List.range (imgNent b)).all (fun e =>
      let w := (imgEntry b e).1
      bits w 26 2 != 3 && bits w 28 4 == 0 && bits w 44 20 == 0)

/-- The signed bytes, the owner's public key and the signature. -/
def imgSigned (b : List (BitVec 8)) : List (BitVec 8) := sliceBytes b 0 (132 + 16 * imgNent b)
def imgOwner (b : List (BitVec 8)) : List (BitVec 8) := sliceBytes b (64 + 16 * imgNent b) 68
def imgSig (b : List (BitVec 8)) : List (BitVec 8) := sliceBytes b (132 + 16 * imgNent b) 2820

/-- The checks of R403 in order, as the IMG_CAUSE of the first that fails; 0 = none. -/
def State.imgCheck (s : State) (img : Option (List (BitVec 8))) (len : Nat) : Nat :=
  match img with
  | none => 5
  | some b =>
    let key := Config.shake (imgOwner b) 64
    if !imgForm b len then 1
    else if wordAt b 8 ≠ 0 ∧ wordAt b 8 ≠ Config.deviceId.toNat then 2
    else if key ≠ (if s.sec.owner.isEmpty then Config.romKey else s.sec.owner) then 3
    else if !Config.verifies key (imgSigned b) (imgSig b) then 4
    else 0

/-- Whether an entry may not name an offset (R404). -/
def imgRefused (off : Nat) : Bool :=
  match blockAt off with
  | none => false
  | some (.tdm, _, _) => true
  | some (b, _, _) =>
    match regAt off with
    | .reg r => (b == .sec && r.reg != .SEC_CTL) || r.reg == .GLB_RST_CMD || r.reg == .GLB_IMG_BASE || r.reg == .GLB_IMG_LEN || r.reg == .GLB_IMG_CMD ||
        r.reg == .GLB_IMG_STAT || r.reg.classA || r.reg.mask (fun a => a == .rwl) != 0
    | _ => b == .sec

/-- Registers that an image may write, as they return to their reset values when it fails (R405): not those it may not name, and not those of
the Thrumlink ports, which stay as they are. -/
def imgClears (r : RegRef) : Bool :=
  !imgRefused (r.reg.addr r.inst r.i r.j) && !(r.reg.spec.block == .port && !r.reg.spec.device && 12 ≤ r.inst)

/-- A register's writable fields at their reset values. -/
def State.clearReg (s : State) (r : RegRef) : State :=
  let m := r.reg.mask (fun a => a == .rw || a == .rws || a == .w1s)
  let v := s.regVal r.reg r.inst r.i r.j
  s.setReg r.reg ((v &&& (2 ^ 64 - 1 - m)) ||| (r.reg.resetVal r.i &&& m)) r.inst r.i r.j

/-- R405 step 1: no part of a failed image stays. What waits at a stack completes BUSY, with the later requests of the channels, also where
the image had not set its EN yet (log 128). -/
def State.undoImage (s : State) : State :=
  let s := (s.busyUnstarted (fun _ => true)).endLooms (fun _ => true)
  let s := (List.range 16).foldl (fun s x => s.dropLines x) s
  let s := ((List.range 4).foldl (fun s q => s.dropMovers q) s).settle
  let s := s.regs.foldl (fun s e => match regAt e.1 with | .reg r => if imgClears r then s.clearReg r else s | _ => s) s
  let s : State := { s with
    xlt := { serials := s.xlt.serials }
    ver := []
    hub := { s.hub with rt := [], mc := [], opEnd := none, reports := [], flows := [], pol := [] } }
  ((s.setFld F.SEC_STAT_STRICT 0).setFld F.SEC_STAT_CONF 0).debugEff.settle

/-- An image fails (R405); `err` and `ent` name the failing entry. Stacks whose contents a warm start kept go back to self-refresh (R408). -/
def State.failImage (s : State) (cause ent err igen : Nat) (kept : Bool) : State :=
  let src := srcCore (s.fld F.TDM_LEASE_HOLDER - 1)
  let s := s.undoImage
  let s := s.setStart { s.start with run := none, held := none, fabric := 0, waitAt := s.now, kept := if kept then none else s.start.kept }
  let s := (s.setFld F.GLB_STAT_WAIT_IMG 1).setFld F.GLB_STAT_IMG_CAUSE cause
  let s := ((s.setFld F.GLB_STAT_IMG_ENT ent).setFld F.GLB_STAT_IMG_ERR err).setFld F.PWR_STATPIN_CODE 10
  let s := s.event src 0x40 [cause + err * 2 ^ 4 + ent * 2 ^ 8 + (if kept then 2 ^ 24 else 0), igen]
  if kept then (List.range 16).foldl (fun s x => s.startSleep x) s else s

/-- Every frame whose release bit is set is zero-filled, and its bit clears (R328, R408). -/
def State.zeroReleased (s : State) : State :=
  let fs := (s.pool.release.filter (·.2)).map (·.1)
  let s := fs.foldl (fun s f => s.zeroFrame f) s
  s.setPool { s.pool with release := [] }

/-- The last entry has been applied: STRICT and CONF take effect and are measured, the image is kept, and step 8 sets EN on the fabric ports the
image enabled (R334, R401, R404). -/
def State.endImage (s : State) (r : ImgRun) : State :=
  let conf := bits (wordAt r.bytes 0) 24 1
  let igen := bits (wordAt r.bytes 16) 0 32
  let s := ((s.setFld F.SEC_STAT_STRICT (s.fld F.SEC_CTL_STRICT)).setFld F.SEC_STAT_CONF conf).debugEff
  let s := s.extend 3 (Config.shake (toBytes 8 (s.regVal .SEC_STAT)) 64)
  if s.flag F.SEC_STAT_STRICT ∧ (List.range 16).any (fun x => 32 < s.fld F.STK_TIM1_TFAW x) then s.failImage 8 0 0 igen r.kept
  else
    let s := if s.flag F.GLB_STAT_WARM then s.zeroReleased else s
    let s := ((s.setFld F.GLB_IMG_STAT_V 1).setFld F.GLB_IMG_STAT_CONF conf).setFld F.GLB_IMG_STAT_NENT (imgNent r.bytes)
    let s := s.setFld F.GLB_IMG_STAT_IGEN igen
    let s := (s.setStart { s.start with run := none, kept := some r.bytes }).setStep 8
    (List.range 12).foldl (fun s p =>
      if s.start.fabric.testBit p ∧ !s.quarterDown (portQuarter p) then s.setFld F.PORT_CTL_EN 1 p else s) s

/-- One write of an entry, as a class B write (R404). -/
def State.imgWrite (s : State) (off v : Nat) : State :=
  if imgRefused off then s.respond .accessDenied
  else s.cfgWrite .image off (fun r s => writeReg .image r (BitVec.ofNat 64 v) s)

/-- The read of a POLL entry. -/
def State.imgPoll (s : State) (off : Nat) : State := if imgRefused off then s.respond .accessDenied else s.cfgRead .image off

/-- Applies the entries from `e` on, `n` at most, until a POLL waits, an entry fails or the last has been applied (R404). -/
def State.applyImage (s : State) (r : ImgRun) (e : Nat) : Nat → State
  | 0 => s.endImage r
  | n + 1 =>
    let (a, v) := imgEntry r.bytes e
    let off := bits a 0 26
    let kind := bits a 26 2
    let igen := bits (wordAt r.bytes 16) 0 32
    if kind = 0 then
      let s := s.imgWrite off v
      if s.rsp.1 = .ok then s.applyImage r (e + 1) n else s.failImage 6 e s.rsp.1.code igen r.kept
    else
      let s := s.imgPoll off
      if s.rsp.1 ≠ .ok then s.failImage 6 e s.rsp.1.code igen r.kept
      else
        let x := s.rsp.2.toNat &&& v
        if (kind = 1 ∧ x = v) ∨ (kind = 2 ∧ x = 0) then State.applyImage s { r with pollAt := none } (e + 1) n
        else
          let t := match r.pollAt with | some p => p.1 | none => s.now
          if t + max 1 (bits a 32 12) * 1000000 ≤ s.now then s.failImage 7 e 0 igen r.kept
          else s.setStart { s.start with run := some { r with next := e, pollAt := some (t, s.now + 10000) } }

/-- Goes on with an image from its next entry. -/
def State.runImage (s : State) (r : ImgRun) : State := s.applyImage r r.next (imgNent r.bytes - r.next)

/-- Step 7 runs: the image is checked, measured (R338), then applied. -/
def State.loadImage (s : State) (img : Option (List (BitVec 8))) (len : Nat) (kept : Bool) : State :=
  let s := ((s.setFld F.GLB_STAT_WAIT_IMG 0).setFld F.GLB_STAT_IMG_CAUSE 0).setStep 7
  let s := (s.setFld F.GLB_STAT_IMG_ENT 0).setFld F.GLB_STAT_IMG_ERR 0
  let s := s.setStart { s.start with held := none, fabric := 0 }
  let cause := s.imgCheck img len
  let b := img.getD []
  if cause ≠ 0 then s.failImage cause 0 0 (if cause = 1 ∨ cause = 5 then 0 else bits (wordAt b 16) 0 32) kept
  else (s.extend 3 (Config.shake (imgSigned b) 64)).runImage ⟨b, 0, none, kept⟩

/-- A LOAD at step 7: the host reads give `img`, none where one of them fails or lies outside its window (R318, R403); the stacks wake (R405). -/
def State.hostLoad (s : State) (img : Option (List (BitVec 8))) : State :=
  let s := (List.range 16).foldl (fun s x => s.rouseStk x) s
  let len := s.fld F.GLB_IMG_LEN_LEN
  s.loadImage (if s.winOk (s.fld F.GLB_IMG_BASE_BASE * 4096) len false then img else none) len false

/-- A load without a LOAD command is due (`GLB_IMG_LEN.AUTO`). -/
def State.autoLoad (s : State) : Bool :=
  s.flag F.GLB_IMG_LEN_AUTO && decide (4 ≤ s.fld F.GLB_RST_STAT_PKG_CAUSE) && !s.flag F.GLB_STAT_WARM

/-- The effect of LOAD = 1 (R401, R405, Table 16-5). -/
def State.loadCmd (s : State) (img : Option (List (BitVec 8))) : State :=
  let step := s.fld F.GLB_STAT_STEP
  if 8 ≤ step ∨ s.start.run.isSome then s.respond .accessDenied
  else if step < 7 then (s.setStart { s.start with held := some img }).respond .ok
  else (s.hostLoad img).respond .ok

/-- IMAGE_LOAD (R403): `img` is what the host reads of the image give. The writer `image` stands for the automatic load. -/
def execImageLoad (w : Writer) (img : Option (List (BitVec 8))) (s : State) : Res :=
  .next (if w = .image then
      (if s.fld F.GLB_STAT_STEP = 7 ∧ s.start.run.isNone ∧ !s.flag F.GLB_STAT_WAIT_IMG ∧ s.autoLoad then s.hostLoad img else s)
    else s.regWrite w .GLB_IMG_CMD 0 (fun s => s.loadCmd img))

/-- IMAGE_POLL_RETRY (R404): 10 µs have passed since the last read. -/
def execImagePollRetry (s : State) : Res :=
  .next (match s.start.run with
    | some r =>
      match r.pollAt with
      | some (_, t) => if t ≤ s.now then (s.setStart { s.start with run := none }).runImage r else s
      | none => s
    | none => s)

/-- WAIT_IMAGE_SLEEP (R405): 1 s of waiting has passed. -/
def execWaitImageSleep (s : State) : Res :=
  .next (if s.flag F.GLB_STAT_WAIT_IMG ∧ s.start.waitAt + 1000000000 ≤ s.now then (List.range 16).foldl (fun s x => s.startSleep x) s else s)

/-! ### The steps that time ends (R401) -/

/-- Step 7 starts: the kept copy after a warm reset, a LOAD that is held, a load without waiting, or the wait for one (R401, R408). -/
def State.enterStep7 (s : State) : State :=
  if s.flag F.GLB_STAT_WARM then
    match s.start.kept with
    | some b => s.loadImage (some b) b.length true
    | none => (s.setStep 7).failImage 9 0 0 0 true
  else match s.start.held with
    | some img => (s.setStep 7).hostLoad img
    | none =>
      if s.autoLoad then s.setStep 7
      else
        let s := ((s.setStep 7).setFld F.GLB_STAT_WAIT_IMG 1).setFld F.PWR_STATPIN_CODE 10
        s.setStart { s.start with waitAt := s.now }

/-- Quarters that start-up waits for: under reset and not held. -/
def State.awaited (s : State) (q : Nat) : Bool := (s.fld F.GLB_STAT_QRST).testBit q && !(s.fld F.GLB_STAT_QHOLD).testBit q
def State.heldQuarter (s : State) (q : Nat) : Bool := (s.fld F.GLB_STAT_QHOLD).testBit q

/-- Step 6 starts on a stack: it trains, or leaves self-refresh after a warm reset (R134, R408). -/
def State.startStack (s : State) (x : Nat) : State :=
  if s.heldQuarter (stackQuarter x) ∨ s.stkState x = 7 then s
  else if s.flag F.GLB_STAT_WARM then (if s.stkState x = 5 then (s.rescanDirty x).exitStk x else s)
  else s.setStkState x 1

/-- Step 6 has ended on a stack. -/
def State.stackReady (s : State) (x : Nat) : Bool :=
  let t := s.stkState x
  s.heldQuarter (stackQuarter x) || t == 0 || t == 7 || (s.stkOpen x && !s.flag F.STK_ECC_STAT_INIT x)

/-- Step 8 ends: the holder takes the captain role, and firmware raises FLOOR to its image's required floor (R337, R401). -/
def State.endStartUp (s : State) : State :=
  let s := ((s.setFld F.GLB_STAT_READY 1).setStep 9).takeCaptain (s.fld F.TDM_LEASE_HOLDER - 1)
  let old := s.fld F.SEC_VER_FLOOR
  let new := min 4095 (Config.fwFloor s.fwImage)
  if old < new then (s.ledgerChange .floor old new []).setFld F.SEC_VER_FLOOR new else s

/-- Start-up as time passes. -/
def State.advance (s : State) : State :=
  if s.heldReset then s
  else match s.fld F.GLB_STAT_STEP with
    | 1 => s.setStep 2
    | 4 => s.setStep 5
    | 5 =>
      if (List.range 4).any s.awaited ∨ (List.range 16).any (fun x => !s.heldQuarter (stackQuarter x) && !s.flag F.STK_SELFTEST_DONE x) then s
      else (List.range 16).foldl (fun s x => s.startStack x) (s.setStep 6)
    | 6 => if !(List.range 4).any s.awaited ∧ (List.range 16).all s.stackReady then
        ((List.range 4).foldl (fun s q => if s.heldQuarter q then s else s.poisonLost q) s).enterStep7
      else s
    | 8 =>
      let reached (p : Nat) : Bool := !s.start.fabric.testBit p || s.heldQuarter (portQuarter p) ||
        (let t := s.portState p; t != stDark && t != stBeacon && t != stTraining)
      if !(List.range 4).any s.awaited ∧ (List.range 12).all reached ∧ s.fld F.TDM_LEASE_HOLDER ≠ 0 then s.endStartUp else s
    | _ => s

/-! ### Quarter return (R409) -/

/-- A return that fails; the third in a row leaves the quarter held, and its stacks missing. -/
def State.failReturn (s : State) (q : Nat) : State :=
  let n := smGet 0 s.start.fails q + 1
  let s := s.setStart { s.start with fails := smSet 0 s.start.fails q n }
  if n < 3 then s else (s.setFld F.GLB_STAT_QHOLD (s.fld F.GLB_STAT_QHOLD ||| 2 ^ q)).quarterMissing q

/-- The image in force writes the registers of a returned quarter again, in image order. -/
def State.reapply (s : State) (q : Nat) : State :=
  match s.start.kept with
  | none => s
  | some b =>
    if !s.flag F.GLB_IMG_STAT_V then s
    else (List.range (imgNent b)).foldl (fun s e =>
      let (a, v) := imgEntry b e
      let off := bits a 0 26
      match regAt off with
      | .reg r =>
        if bits a 26 2 = 0 ∧ !r.reg.spec.device ∧ r.reg.quarter r.inst = some q ∧ r.reg.spec.block ≠ .mov then s.imgWrite off v else s
      | _ => s) s

/-- A quarter whose return succeeds: its controllers have tested themselves, its stacks leave self-refresh with a delay retrain, site roles
are assigned, and its bit clears (R409 steps 1 to 4). -/
def State.cameBack (s : State) (q : Nat) (r : QuarterUp) : State :=
  let s := (List.range 4).foldl (fun s i => s.selfTested (4 * q + i) (min 8 (r.tests.getD i 0))) s
  let s := (List.range 4).foldl (fun s i =>
    let x := 4 * q + i
    if s.stkState x = 5 then
      let t := min 255 (r.temps.getD i 0)
      let s := (s.setTemp x t).rescanDirty x
      let s := s.setStk x { s.stk x with lastReq := s.now, passAt := s.now, passTemp := t, rhAt := s.now }
      (s.setStkState x (openState (s.failedCh x))).takeHints x
    else s) s
  let s := (s.assignRoles q).freeLevels q
  let s := (s.setFld F.GLB_STAT_QRST (setBits (s.fld F.GLB_STAT_QRST) q 1 0)).setFld F.SEC_STAT_QRST (setBits (s.fld F.SEC_STAT_QRST) q 1 0)
  s.setStart { s.start with away := setBits s.start.away q 1 0, fails := smSet 0 s.start.fails q 0 }

/-- What a quarter that came back gets again: the registers of the image in force, the enables of its ports, the class A values of its units; then its
stacks serve what waits for them (R409 step 5). -/
def State.rejoin (s : State) (q : Nat) : State :=
  let rsp := s.rsp
  let s := (s.poisonLost q).reapply q
  let s := if 8 ≤ s.fld F.GLB_STAT_STEP then
      (List.range 12).foldl (fun s p => if portQuarter p = q ∧ s.start.fabric.testBit p then s.setFld F.PORT_CTL_EN 1 p else s) s
    else s
  let s := if 4 ≤ s.fld F.GLB_STAT_STEP then (if q = 0 then s.startTl 12 else if q = 2 then s.startTl 13 else s) else s
  let s := if s.fld F.TDM_ROLE_MODE = 0 then
      s.reissue (s.classAValues.filter (fun e => e.2.1.reg.quarter e.2.1.inst == some q))
    else s
  let s : State := { s with rsp := rsp }
  ((List.range 4).foldl (fun s i => s.fillStk (4 * q + i)) s).endTrans.settle

/-- QUARTER_RETURN (R409). Its management core restarts on its own (CORE_RESTART_END). -/
def execQuarterReturn (q : Quarter) (r : QuarterUp) (s : State) : Res :=
  .next (let q := q.val
    if s.heldReset ∨ !s.awaited q ∨ s.start.prep.testBit q ∨ s.start.warm then s
    else if !r.ok ∨ !s.reaches q then s.failReturn q
    else (s.cameBack q r).rejoin q)

end Sys2Proof.Machine
end

