-- ==== Sys2Proof/Machine/CfgCmds.lean ====
section
/-!
DEFINITION. The commands that reach configuration space by address: firmware's accesses, CFG_RD and CFG_WR, the sideband (R4, R311, R312, R396).
-/
namespace Sys2Proof.Machine
open Sys2Proof

/-- A write of `GLB_RST_CMD` (Table 16-8). -/
def rstWrite (w : Writer) (n : Nat) (s : State) : Res :=
  let c := BitVec.ofNat 8 (F.GLB_RST_CMD_CONFIRM.of n)
  match F.GLB_RST_CMD_OP.of n with
  | 0 => execWarmResetCmd w c s
  | 1 => execQuarterResetCmd w (finOf _ (F.GLB_RST_CMD_Q.of n)) c s
  | 2 => execPackageResetCmd w c s
  | _ => .next (s.regWrite w .GLB_RST_CMD 0 (fun s => s.respond (if hostWriter w ∧ c = 0xA5 then .ok else .accessDenied)))

/-- A write of any register. The image that a LOAD written by address reads is the host's (log 125). -/
def fullWrite (w : Writer) (v : BitVec 64) (r : RegRef) (s : State) : Res :=
  if r.reg = .GLB_RST_CMD then rstWrite w v.toNat s
  else if r.reg = .GLB_IMG_CMD then
    .next (s.regWrite w .GLB_IMG_CMD 0 (fun s =>
      if F.GLB_IMG_CMD_LOAD.of v.toNat = 1 then
        let img := Config.hostImage s.free
        ({ s with free := s.free + 1 } : State).loadCmd img
      else s.respond .ok))
  else writeReg w r v s

/-- One write at an offset. -/
def State.writeAt (s : State) (w : Writer) (off : Nat) (v : BitVec 64) : State := s.cfgWrite w off (fullWrite w v)

/-- REGISTER_WRITE (R4). -/
def execRegisterWrite (w : Writer) (off : BitVec 26) (v : BitVec 64) (s : State) : Res := .next (s.writeAt w off.toNat v)

/-- COUNTER_READ_CLEAR (R4). -/
def execCounterReadClear (w : Writer) (off : BitVec 26) (s : State) : Res := .next (s.cfgRead w off.toNat)

/-- RWL_WRITE (R4, R348). -/
def execRwlWrite (w : Writer) (off : BitVec 26) (v : BitVec 64) (s : State) : Res := .next (s.writeAt w off.toNat v)

/-! ### Thrumlink (R311, R312) -/

/-- The writer behind a port. -/
def portWriter (p : Nat) : Writer := if p = 13 then .tl1 else .tl0

/-- The limits of R311 on a configuration packet. -/
def cfgForm (k : Packet) : Bool :=
  decide (k.addr.toNat < 2 ^ 26) && k.addr.toNat % 8 == 0 && k.lenN % 8 == 0 && decide (8 ≤ k.lenN) && decide (k.lenN ≤ 64)

/-- Answers a configuration packet. -/
def State.cfgReply (s : State) (p : Nat) (k : Packet) (st : Status) (done : Nat) (data : List Nat) : State :=
  let m : Packet := ({ dst := k.src, src := k.dst, typ := 0x72, vc := 7, tag := k.tag, epoch := s.epoch, last := true,
                       w3 := BitVec.ofNat 64 (st.code + done * 16) } : Packet).withPayload (wordBytes data)
  s.enqueue p (504 + 7) m

/-- Reads `n` registers from an offset up, until one does not complete OK: its status, the data, and the state. -/
def State.readRun (s : State) (w : Writer) (off : Nat) : Nat → List Nat → Status × List Nat × State
  | 0, acc => (.ok, acc, s)
  | n + 1, acc =>
    let s := s.cfgRead w off
    if s.rsp.1 = .ok then State.readRun s w (off + 8) n (acc ++ [s.rsp.2.toNat]) else (s.rsp.1, acc, s)

/-- Writes words from an offset up, until one does not complete OK: its status, how many did, and the state. -/
def State.writeRun (s : State) (w : Writer) (off : Nat) : List Nat → Nat → Status × Nat × State
  | [], done => (.ok, done, s)
  | v :: rest, done =>
    let s := s.writeAt w off (BitVec.ofNat 64 v)
    if s.rsp.1 = .ok then State.writeRun s w (off + 8) rest (done + 1) else (s.rsp.1, done, s)

/-- CFG_RD (R311). -/
def execCfgRd (p : Port) (k : Packet) (s : State) : Res :=
  .next (s.onArrival p.val 0x70 k (fun s =>
    if !cfgForm k then s.cfgReply p.val k .accessDenied 0 []
    else
      let (st, data, s) := s.readRun (portWriter p.val) k.addr.toNat (k.lenN / 8) []
      s.cfgReply p.val k st data.length data))

/-- CFG_WR (R311). -/
def execCfgWr (p : Port) (k : Packet) (s : State) : Res :=
  .next (s.onArrival p.val 0x71 k (fun s =>
    if !cfgForm k then s.cfgReply p.val k .accessDenied 0 []
    else
      let ws := (List.range (k.lenN / 8)).map (fun i => wordAt k.payload (8 * i))
      let (st, done, s) := s.writeRun (portWriter p.val) k.addr.toNat ws 0
      s.cfgReply p.val k st done []))

/-! ### Sideband (R396) -/

/-- STATUS of a frame: the code, with bit 7 once the access is done. -/
def sideStatus (st : Status) : Nat := st.code + 128

/-- A frame that came whole and is answered: the bytes that the device sends, with their PEC. -/
def State.sideReply (s : State) (sent answer : List (BitVec 8)) : State := s.emit (.frame (answer ++ [pec (sent ++ answer)]))

/-- OFFSET is valid. -/
def sideOff (off : BitVec 32) : Bool := decide (off.toNat < 2 ^ 26) && off.toNat % 8 == 0

/-- SIDEBAND_WRITE (R396): a frame with a wrong PEC accesses nothing. -/
def execSidebandWrite (off : BitVec 32) (v : BitVec 64) (pec : Bool) (s : State) : Res :=
  .next (if s.heldReset ∨ !pec then s
    else
      let s := if sideOff off then s.writeAt .sideband off.toNat v else (s.wakeFor .sideband).respond .accessDenied
      s.setPower { s.power with smb := some s.rsp.1 })

/-- SIDEBAND_READ (R396). -/
def execSidebandRead (off : BitVec 32) (pec : Bool) (s : State) : Res :=
  .next (if s.heldReset ∨ !pec then s
    else
      let s := if sideOff off then s.cfgRead .sideband off.toNat else (s.wakeFor .sideband).respond .accessDenied
      let a := 2 * s.sideAddr
      s.sideReply (toBytes 2 (a + 0x11 * 256) ++ toBytes 4 off.toNat ++ toBytes 1 (a + 1))
        (toBytes 8 s.rsp.2.toNat ++ toBytes 1 (sideStatus s.rsp.1)))

/-- SIDEBAND_STATUS (R396): the status of the last WRITE; bit 7 reads 0 while there has been none. -/
def execSidebandStatus (pec : Bool) (s : State) : Res :=
  .next (if s.heldReset ∨ !pec then s
    else
      let s := s.wakeFor .sideband
      let a := 2 * s.sideAddr
      s.sideReply (toBytes 2 (a + 0x12 * 256) ++ toBytes 1 (a + 1)) (toBytes 1 (match s.power.smb with | some st => sideStatus st | none => 0)))

end Sys2Proof.Machine
end

