-- ==== Sys2Proof/Machine/MifelGen.lean ====
section
/-!
DEFINITION. Mifel generation helpers: online softmax, draft-tree masks, top-k, sampling and random numbers (R228 to R231).
-/
namespace Sys2Proof.Machine
open Sys2Proof

/-! ### Online softmax (R228) -/

def negInf : BitVec 32 := 0xFF800000#32

/-- osm.init: m = −infinity, l = +0, c = 1, and zeros. -/
def execOsmInit (st : SiteId) (w : BitVec 54) (s : State) : Res :=
  .next (s.issueReg st (mifelWord 8 0 w) { rd := some .v } false (fun t i =>
    t.putLanes (vN i.rd) (BitVec.allOnes 64) (fun k => if k < 16 then negInf else if 32 ≤ k ∧ k < 48 then 0x3F800000#32 else 0)))

/-- Bit `j` of row `i` of a mask vector: lanes 2i and 2i + 1. -/
def maskBit (vm : Nat → BitVec 32) (i j : Nat) : Bool := (vm (2 * i + j / 32)).getLsbD (j % 32)

/-- What `osm.upd` makes of a row: its new m, l and c, and its probabilities (R228). -/
def osmRow (m l : BitVec 32) (xs : List (BitVec 32)) : BitVec 32 × BitVec 32 × BitVec 32 × List (BitVec 32) :=
  let mn := xs.foldl fMax m
  if mn = negInf then (m, l, 0x3F800000#32, xs.map (fun _ => 0))
  else
    let c := fExp2 (fSub m mn)
    let ps := xs.map (fun x => fExp2 (fSub x mn))
    (mn, fAdd (fMul l c) (tree fAdd 6 ps), c, ps)

/-- osm.upd[.m]. -/
def execOsmUpd (st : SiteId) (w : BitVec 54) (s : State) : Res :=
  .next (s.issue st (mifelWord 8 1 w) { rd := some .v, ra := some .acc, rb := some .v, rc := some .s } false (fun _ _ t i =>
    let a := accN i.ra
    if t.accBusy a then .stall
    else
      let sc := (t.sc i).extractLsb' 0 32
      let d := vN i.rd
      let rows := (List.range 16).map (fun r => osmRow (t.lane d r) (t.lane d (16 + r))
        ((List.range 64).map (fun j =>
          if i.immBits 0 1 = 1 ∧ !maskBit (t.vb i) r j then negInf else fMul (t.cell a r j) sc)))
      let t := t.putAcc a (fun r j => ((rows.getD r (0, 0, 0, [])).2.2.2).getD j 0)
      .stn (t.putLanes d (BitVec.ofNat 64 (2 ^ 48 - 1)) (fun k =>
        let x := rows.getD (k % 16) (0, 0, 0, [])
        if k < 16 then x.1 else if k < 32 then x.2.1 else x.2.2.1))))

/-- An operation over the elements of the accumulator RD with the state vector RA. -/
def State.osmAcc (s : State) (x : SiteId) (word : BitVec 64) (f : Stn → Insn → Nat → BitVec 32 → BitVec 32) : State :=
  s.issue x word { rd := some .acc, ra := some .v } false (fun _ _ t i =>
    if t.accBusy (accN i.rd) then .stall else .stn (t.putAcc (accN i.rd) (fun r j => f t i r (t.cell (accN i.rd) r j))))

/-- osm.scale: acc[i][j] × c[i]. -/
def execOsmScale (st : SiteId) (w : BitVec 54) (s : State) : Res :=
  .next (s.osmAcc st (mifelWord 8 2 w) (fun t i r a => fMul a (t.va i (32 + r))))
/-- osm.fin: acc[i][j] × rcp(l[i]), or +0 where l[i] is 0. -/
def execOsmFin (st : SiteId) (w : BitVec 54) (s : State) : Res :=
  .next (s.osmAcc st (mifelWord 8 3 w) (fun t i r a =>
    let l := t.va i (16 + r)
    if (f32 l).isZero then 0 else fMul a (fRcp l)))

/-! ### Draft-tree masks (R229) -/

/-- `d` is `n` or one of its ancestors, by the parents of a descriptor. -/
def isAncestor (desc : List (BitVec 8)) (d : Nat) : Nat → Nat → Bool
  | 0, n => n == d
  | f + 1, n => n == d || (n != 0 && isAncestor desc d f (desc.getD n 0).toNat)

/-- A descriptor within its limits: 1 to 17 nodes, and in each byte n = 1 to 16 a parent below n (R229). -/
def treeOk (desc : List (BitVec 8)) : Bool :=
  let n := (desc.getD 0 0).toNat
  1 ≤ n && n ≤ 17 && (List.range 17).all (fun k => k == 0 || (desc.getD k 0).toNat < k)

/-- Key `k` is visible to node `n`. -/
def treeSees (desc : List (BitVec 8)) (t0 n k : Nat) : Bool :=
  n < (desc.getD 0 0).toNat && (k < t0 || (k - t0 < (desc.getD 0 0).toNat && isAncestor desc (k - t0) 17 n))

/-- A number of bits given as a function. -/
def bitsOf (n : Nat) (f : Nat → Bool) : Nat := (List.range n).foldl (fun a k => a + if f k then 2 ^ k else 0) 0

/-- tmask (R229). -/
def execTmask (st : SiteId) (w : BitVec 54) (s : State) : Res :=
  .next (s.issue st (mifelWord 8 4 w) { rd := some .v, ra := some .s, rb := some .s, rc := some .s } false (fun _ _ t i =>
    let a := (t.sa i).toNat
    let rep := i.immBits 0 5
    let q0 := i.immBits 5 5
    if lsBad a 24 8 then .trap 2 a 0 0
    else if t.readStalls a 24 then .stall
    else
      let desc := t.lsRead a 24
      if !treeOk desc || !(rep == 1 || rep == 2 || rep == 4 || rep == 8 || rep == 16) || 16 < q0 then .trap 3 a 0 0
      else .stn (t.putLanes (vN i.rd) (BitVec.allOnes 64) (fun k =>
        if k < 32 then
          BitVec.ofNat 32 (bitsOf 32 (fun j => treeSees desc (t.sc i).toNat (q0 + k / 2 / rep) ((t.sb i).toNat + k % 2 * 32 + j)))
        else 0))))

/-! ### Selections (R230) -/

/-- A pair precedes another: a larger value, or an equal one with the lower index. -/
def pairBefore (a b : BitVec 32 × BitVec 32) : Bool :=
  let x := f32 a.1
  let y := f32 b.1
  y.lt x || (x.eq y && a.2.ult b.2)

/-- Inserts a pair into a descending list. -/
def insertPair (p : BitVec 32 × BitVec 32) : List (BitVec 32 × BitVec 32) → List (BitVec 32 × BitVec 32)
  | [] => [p]
  | q :: rest => if pairBefore p q then p :: q :: rest else q :: insertPair p rest

/-- vtopk (R230). -/
def execVtopk (st : SiteId) (w : BitVec 54) (s : State) : Res :=
  .next (s.issueReg st (mifelWord 8 5 w) { rd := some .v, ra := some .v, rb := some .s } false (fun t i =>
    let d := vN i.rd
    let old := (List.range 32).map (fun k => (t.lane d k, t.lane d (32 + k)))
    let new := ((List.range 64).map (fun j => (t.va i j, (t.sb i).extractLsb' 0 32 + BitVec.ofNat 32 j))).filter (fun p => !(f32 p.1).isNan)
    let best := new.foldl (fun l p => insertPair p l) old
    t.putLanes d (BitVec.allOnes 64) (fun k => if k < 32 then (best.getD k (0, 0)).1 else (best.getD (k - 32) (0, 0)).2)))

/-! ### Random numbers (R231) -/

/-- Lane `j` of a draw with a key and a counter. -/
def rngLane (key ctr : BitVec 64) (j : Nat) : BitVec 32 :=
  let z := key + (ctr * 64 + BitVec.ofNat 64 (j + 1)) * 0x9E3779B97F4A7C15#64
  let z := (z ^^^ (z >>> 30)) * 0xBF58476D1CE4E5B9#64
  let z := (z ^^^ (z >>> 27)) * 0x94D049BB133111EB#64
  (z ^^^ (z >>> 31)).extractLsb' 32 32

/-- sample (R230). -/
def execSample (st : SiteId) (w : BitVec 54) (s : State) : Res :=
  .next (s.issueReg st (mifelWord 8 6 w) { rd := some .v, ra := some .v, rb := some .s, rc := some .s } false (fun t i =>
    let d := vN i.rd
    let c := (t.sc i).extractLsb' 0 32
    let score (j : Nat) : BitVec 32 := if c = 0 then t.va i j else fAdd (fMul (t.va i j) c) (gumbel (rngLane t.key t.rctr j))
    let best := (List.range 64).foldl (fun b j =>
      let p := (score j, (t.sb i).extractLsb' 0 32 + BitVec.ofNat 32 j)
      if pairBefore p b then p else b) (t.lane d 0, t.lane d 1)
    let t := (t.setLane d 0 best.1).setLane d 1 best.2
    if c = 0 then t else { t with rctr := t.rctr + 1 }))

/-- rng: a draw of 64 lanes (R231). -/
def execRng (st : SiteId) (w : BitVec 54) (s : State) : Res :=
  .next (s.issueReg st (mifelWord 8 7 w) { rd := some .v } false (fun t i =>
    { t.putLanes (vN i.rd) (BitVec.allOnes 64) (rngLane t.key t.rctr) with rctr := t.rctr + 1 }))
/-- rngs: CTR = A (R231). -/
def execRngs (st : SiteId) (w : BitVec 54) (s : State) : Res :=
  .next (s.issueReg st (mifelWord 8 8 w) { ra := some .s } false (fun t i => { t with rctr := t.sa i }))

end Sys2Proof.Machine
end

