-- ==== Sys2Proof/Machine/MifelLocal.lean ====
section
/-!
DEFINITION. Mifel local-store instructions (R210, R180, R205, R207).
-/
namespace Sys2Proof.Machine
open Sys2Proof

/-- Shapes of the local-store class: a load of a scalar or vector, a store of one (Form X). -/
def shapeLoad (k : RegKind) : Shape := { rd := some k, ra := some .s, lanes := k == .v }
def shapeStore (k : RegKind) : Shape := { ra := some .s, rb := some k, lanes := k == .v }

/-- The address of a local-store instruction: s[RA] + IMM20, sign-extended (R210). -/
def Stn.lsAddr (t : Stn) (i : Insn) : Nat := (t.sa i + i.simm20).toNat

/-- A load of `n` bytes aligned to `al`: an address that is out of range or unaligned traps with cause 2; bytes that wait for data stall it
(R207, R210). -/
def State.load (s : State) (x : SiteId) (word : BitVec 64) (k : RegKind) (n al : Nat) (f : Stn → Insn → List (BitVec 8) → Stn) : State :=
  s.issue x word (shapeLoad k) false (fun _ _ t i =>
    let a := t.lsAddr i
    if lsBad a n al then .trap 2 a 0 0
    else if t.readStalls a n then .stall
    else .stn (f t i (t.lsRead a n)))

/-- A store over `n` bytes aligned to `al`; `f` gives the station with its bytes stored at the address. -/
def State.store (s : State) (x : SiteId) (word : BitVec 64) (k : RegKind) (n al : Nat) (f : Stn → Insn → Nat → Stn) : State :=
  s.issue x word (shapeStore k) false (fun _ _ t i =>
    let a := t.lsAddr i
    if lsBad a n al then .trap 2 a 0 0
    else if t.writeStalls a n then .stall
    else .stn (f t i a))

/-- lds (Table 8-5). -/
def execLds (st : SiteId) (w : BitVec 54) (s : State) : Res :=
  .next (s.load st (mifelWord 2 0 w) .s 8 8 (fun t i bs => t.putS i (BitVec.ofNat 64 (ofBytes bs))))
/-- ldw, zero-extended (Table 8-5). -/
def execLdw (st : SiteId) (w : BitVec 54) (s : State) : Res :=
  .next (s.load st (mifelWord 2 1 w) .s 4 4 (fun t i bs => t.putS i (BitVec.ofNat 64 (ofBytes bs))))
/-- sts (Table 8-5). -/
def execSts (st : SiteId) (w : BitVec 54) (s : State) : Res :=
  .next (s.store st (mifelWord 2 2 w) .s 8 8 (fun t i a => t.lsWrite a (toBytes 8 (t.sb i).toNat)))
/-- stw (Table 8-5). -/
def execStw (st : SiteId) (w : BitVec 54) (s : State) : Res :=
  .next (s.store st (mifelWord 2 3 w) .s 4 4 (fun t i a => t.lsWrite a (toBytes 4 (t.sb i).toNat)))
/-- ldv: lane k = bytes 4k to 4k + 3, under the lane guard (Table 8-5). -/
def execLdv (st : SiteId) (w : BitVec 54) (s : State) : Res :=
  .next (s.load st (mifelWord 2 4 w) .v 256 64 (fun t i bs => t.putLanes (vN i.rd) (t.guard i) (fun k => word32At bs (4 * k))))
/-- Stores `n` bytes of each lane whose guard is 1 (R205). -/
def Stn.storeLanes (t : Stn) (i : Insn) (a n : Nat) (f : BitVec 32 → Nat) : Stn :=
  let g := t.guard i
  (List.range 64).foldl (fun t' k => if g.getLsbD k then t'.lsWrite (a + n * k) (toBytes n (f (t.vb i k))) else t') t
/-- stv (Table 8-5). -/
def execStv (st : SiteId) (w : BitVec 54) (s : State) : Res :=
  .next (s.store st (mifelWord 2 5 w) .v 256 64 (fun t i a => t.storeLanes i a 4 (fun v => v.toNat)))
/-- ldv.h: each lane a BF16, widened exactly (Table 8-5). -/
def execLdvH (st : SiteId) (w : BitVec 54) (s : State) : Res :=
  .next (s.load st (mifelWord 2 6 w) .v 128 64 (fun t i bs =>
    t.putLanes (vN i.rd) (t.guard i) (fun k => ofBf16 (BitVec.ofNat 16 (ofBytes (sliceBytes bs (2 * k) 2))))))
/-- stv.h: each lane as BF16, rounded by R187 (Table 8-5). -/
def execStvH (st : SiteId) (w : BitVec 54) (s : State) : Res :=
  .next (s.store st (mifelWord 2 7 w) .v 128 64 (fun t i a => t.storeLanes i a 2 (fun v => (toBf16 false v).toNat)))

end Sys2Proof.Machine
end

