-- ==== Sys2Proof/Machine/MifelPool.lean ====
section
/-!
DEFINITION. Mifel pool instructions and the pool path of a station: issue, completion into tickets and channel statuses, refusals and their
resending, and refills of the instruction cache (R177, R183, R207, R221 to R225, R232).
-/
namespace Sys2Proof.Machine
open Sys2Proof

/-! ### The pool path -/

/-- The endpoint a station's traffic carries (R235). -/
def State.stnEp (s : State) (k : Nat) : Nat := match (s.stn k).loom with | some n => s.loomEp n | none => 0

/-- Sends an operation as a request of its channel (R64, R222). -/
def State.sendOp (s : State) (k : Nat) (o : PoolOp) : State :=
  let c := s.siteCtx k
  let pieces := match o.kind with
    | .vread => versionPieces o.addr o.len
    | .vwrite => versionPieces o.addr o.len
    | .read => s.plainPieces c o.addr o.len true
    | .write => s.plainPieces c o.addr o.len true
    | .hint => s.plainPieces c o.addr o.len true
    | _ => []
  let id := s.ord.nextId
  let s := s.updStn k (fun t => { t with ops := t.ops.map (fun x => if x.serial = o.serial then { x with req := some id } else x) })
  s.admitReq { id := 0, chan := s.siteChan k o.ch, tag := id % 65536, kind := o.kind, seg := bits o.addr 56 3, addr := o.addr, len := o.len,
               vh := o.vh, data := if o.kind.isWrite then o.data else List.replicate o.len 0, have_ := o.len, pieces := pieces,
               fold := o.fold, stash := o.stash, info := o.hint, ep := s.stnEp k, dest := .station k o.serial } false

/-- A ticket is outstanding; t15 never is (R201, R222). -/
def Stn.ticket (t : Stn) (n : Nat) : Ticket := smGet {} t.tickets n
def Stn.ticketBusy (t : Stn) (n : Nat) : Bool := n ≠ 15 && (t.ticket n).op.isSome
def Stn.setTicket (t : Stn) (n : Nat) (x : Ticket) : Stn := if n = 15 then t else { t with tickets := smSet {} t.tickets n x }

/-- Operations of a channel, and whether the channel holds refused ones back (R222, R223). -/
def Stn.onCh (t : Stn) (c : Nat) : List PoolOp := t.ops.filter (fun o => o.ch == c)
def Stn.holding (t : Stn) (c : Nat) : Bool := (t.onCh c).any (fun o => o.req.isNone)

/-- An operation issues: its ticket, its place in its channel and a range entry, then its request, unless its channel waits to resend. A page
fault holds the faulting channel alone, as R222 says, and not every pool access of the station, as R51 says (DESIGN CHOICE, log 132). -/
def State.poolIssue (s : State) (k : Nat) (t : Stn) (i : Insn) (o : PoolOp) (range : Option Bool) : Issue :=
  let n := i.immBits 0 4
  if t.ticketBusy n || 256 ≤ (t.onCh o.ch).length || (range.isSome && 32 ≤ t.ranges.length) then .stall
  else
    let o := { o with serial := t.serial, ticket := n }
    let t' := ({ t with
      serial := t.serial + 1, ops := t.ops ++ [o]
      ranges := match range with | some dst => t.ranges ++ [lineRange o.ls o.len dst (.op o.serial)] | none => t.ranges } : Stn).setTicket n
        { op := some o.serial, ch := o.ch }
    let s := s.setStn k t'
    .all (if t.holding o.ch then s else (s.sendOp k o).settle)

/-- A length, local-store address or handle a pool instruction cannot take: bad lengths trap with cause 3 before a bad local-store address
with cause 2 and a handle that is not 8-byte aligned with cause 3 (R221). -/
def poolTrap (ls : Option Nat) (h n : Nat) : Option Issue :=
  if n % 8 ≠ 0 ∨ n < 8 ∨ 262144 < n then some (.trap 3 n 0 0)
  else match ls with
    | some a => if lsBad a n 8 then some (.trap 2 a 0 0) else if h % 8 ≠ 0 then some (.trap 3 h 0 0) else none
    | none => if h % 8 ≠ 0 then some (.trap 3 h 0 0) else none

/-! ### Data movement (R221, Table 8-11) -/

/-- Shapes of the pool class. -/
def shapePool : Shape := { rd := some .s, ra := some .s, rb := some .s, mods := 7 }

/-- A read into local store. -/
def State.poolRead (s : State) (x : SiteId) (word : BitVec 64) (h : Shape) (kind : ReqKind) : State :=
  s.issue x word h false (fun s k t i =>
    let ls := (t.sd i).toNat
    let a := (t.sa i).toNat
    let n := (t.sb i).toNat
    match poolTrap (some ls) a n with
    | some r => r
    | none =>
      if t.writeStalls ls n then .stall
      else s.poolIssue k t i { serial := 0, ticket := 0, ch := i.modBits 0 3, kind := kind, ls := ls, addr := a, len := n
                               vh := if kind = .vread then (t.sc i).toNat else 0 } (some true))

/-- A write from local store. -/
def State.poolWrite (s : State) (x : SiteId) (word : BitVec 64) (h : Shape) (bad : Bool) (kind : ReqKind) : State :=
  s.issue x word h bad (fun s k t i =>
    let ls := (t.sd i).toNat
    let a := (t.sa i).toNat
    let n := (t.sb i).toNat
    match poolTrap (some ls) a n with
    | some r => r
    | none =>
      if t.readStalls ls n then .stall
      else s.poolIssue k t i { serial := 0, ticket := 0, ch := i.modBits 0 3, kind := kind, ls := ls, addr := a, len := n
                               vh := if kind = .vwrite then (t.sc i).toNat else 0, data := t.lsRead ls n
                               fold := kind = .write && i.modBits 3 1 == 1
                               stash := if kind = .write && i.modBits 4 1 == 1 then some (bits (t.sc i).toNat 0 9) else none } (some false))

/-- pget (Table 8-11). -/
def execPget (st : SiteId) (w : BitVec 54) (s : State) : Res := .next (s.poolRead st (mifelWord 6 0 w) shapePool .read)
/-- pput: MOD[3] = fold append, MOD[4] = stash to agent C[8:0]; both set is illegal (Table 8-11). -/
def execPput (st : SiteId) (w : BitVec 54) (s : State) : Res :=
  let word := mifelWord 6 1 w
  let m := (insnOf word).modBits 3 2
  .next (s.poolWrite st word { shapePool with rc := if 2 ≤ m then some .s else none, mods := 31 } (m == 3) .write)
/-- pget.v: VREAD of version handle C (Table 8-11). -/
def execPgetV (st : SiteId) (w : BitVec 54) (s : State) : Res :=
  .next (s.poolRead st (mifelWord 6 2 w) { shapePool with rc := some .s } .vread)
/-- pput.v: VWRITE to pending handle C (Table 8-11). -/
def execPputV (st : SiteId) (w : BitVec 54) (s : State) : Res :=
  .next (s.poolWrite st (mifelWord 6 3 w) { shapePool with rc := some .s } false .vwrite)

/-! ### Versions (Table 8-11) -/

/-- pver with IMM20[6:4] = `sub`: a word with another operation is not this instruction's; 5 to 7 are illegal, and issue as the last. -/
def State.pver (s : State) (x : SiteId) (w : BitVec 54) (sub : Nat) (kind : ReqKind) : State :=
  let word := mifelWord 6 4 w
  let op := (insnOf word).immBits 4 3
  if op = sub ∨ (sub = 4 ∧ 5 ≤ op) then
    s.issue x word { ra := some .s, rb := some .s, mods := 7 } (5 ≤ op) (fun s k t i =>
      let a := (t.sa i).toNat
      let region := sub = 0 || sub = 2
      s.poolIssue k t i { serial := 0, ticket := 0, ch := i.modBits 0 3, kind := kind, addr := if region then a else 0
                          vh := if sub = 2 then (t.sb i).toNat else if region then 0 else a } none)
  else s

/-- pver OPEN of region A. -/
def execPverOpen (st : SiteId) (w : BitVec 54) (s : State) : Res := .next (s.pver st w 0 .vopen)
/-- pver CLOSE of handle A. -/
def execPverClose (st : SiteId) (w : BitVec 54) (s : State) : Res := .next (s.pver st w 1 .vclose)
/-- pver BEGIN of region A on base version B. -/
def execPverBegin (st : SiteId) (w : BitVec 54) (s : State) : Res := .next (s.pver st w 2 .vbegin)
/-- pver PUBLISH of handle A. -/
def execPverPublish (st : SiteId) (w : BitVec 54) (s : State) : Res := .next (s.pver st w 3 .vpublish)
/-- pver DISCARD of handle A. -/
def execPverDiscard (st : SiteId) (w : BitVec 54) (s : State) : Res := .next (s.pver st w 4 .vdiscard)

/-- phint: HINT = IMM20[5:4] on the pages of a range (Table 8-11, R138). -/
def execPhint (st : SiteId) (w : BitVec 54) (s : State) : Res :=
  .next (s.issue st (mifelWord 6 6 w) { ra := some .s, rb := some .s, mods := 7 } false (fun s k t i =>
    let a := (t.sa i).toNat
    let n := (t.sb i).toNat
    match poolTrap none a n with
    | some r => r
    | none => s.poolIssue k t i { serial := 0, ticket := 0, ch := i.modBits 0 3, kind := .hint, addr := a, len := n, hint := i.immBits 4 2 } none))

/-- cvt.hdl: D = the handle of host address A; pB says whether there is one (R45, R225). -/
def execCvtHdl (st : SiteId) (w : BitVec 54) (s : State) : Res :=
  .next (s.issue st (mifelWord 6 8 w) { rd := some .s, ra := some .s, rb := some .p } false (fun s k t i =>
    let v := s.cvtHdl (s.siteCtx k) (t.sa i).toNat
    .stn ((t.putS i (BitVec.ofNat 64 v)).setP (pN i.rb) (allBits (v ≠ 0)))))
/-- cvt.hva: D = the host address of handle A; pB says whether there is one (R45, R225). -/
def execCvtHva (st : SiteId) (w : BitVec 54) (s : State) : Res :=
  .next (s.issue st (mifelWord 6 9 w) { rd := some .s, ra := some .s, rb := some .p } false (fun s k t i =>
    let v := s.cvtHva (s.siteCtx k) (t.sa i).toNat
    .stn ((t.putS i (BitVec.ofNat 64 v)).setP (pN i.rb) (allBits (v ≠ 0)))))

/-! ### Completion (R223) -/

/-- Folds a status into a channel status as the worst by Table 3-3; any status other than OK is worse than OK. -/
def foldStatus (a b : Status) : Status := if b = .ok then a else if a = .ok then b else worseOf a b

/-- An operation is over: read data land, or zeros where they failed; its range is free; its outcome is in its ticket, or its status folded
into its channel's. -/
def Stn.opOver (t : Stn) (o : PoolOp) (x : Outcome16) (data : List (BitVec 8)) : Stn :=
  let t := if o.kind.isRead then t.lsWrite o.ls (sliceBytes data 0 o.len) else t
  let t := ({ t with ops := t.ops.filter (fun y => y.serial ≠ o.serial) } : Stn).freeRange (.op o.serial)
  if o.ticket = 15 then { t with chst := smSet .ok t.chst o.ch (foldStatus (smGet .ok t.chst o.ch) x.status) }
  else t.setTicket o.ticket { op := none, ch := o.ch, status := x.status, worst := x.worst, abt := x.abt, maskv := x.maskv, info := x.info
                              word1 := x.word1 }

/-- The outcome block of an operation that ends BUSY without being served. -/
def busyOutcome (o : PoolOp) (abt : Bool) : Outcome16 := { plainOutcome 0 o.ch .busy o.len with abt := abt }

/-- A completion that is a refusal of R68: BUSY for the whole of a plain read or write of a REMOTE segment, not an abort and not a quarter
reset (R223). -/
def State.isRefusal (s : State) (k : Nat) (o : PoolOp) (x : Outcome16) : Bool :=
  x.status == .busy && !x.abt && (o.kind == .read || o.kind == .write) && !s.closed (siteQ k) &&
    F.XLT_SEG_ATTR_REMOTE.of (s.segAttr (s.siteCtx k) (bits o.addr 56 3)) == 1

/-- TICKET_COMPLETE (R223): the oldest completed request of the station. A refused one is held to be sent again with the later requests of
its channel; the sixteenth refusal completes them BUSY: those held at once, those sent with it when their own refusal comes. -/
def execTicketComplete (st : SiteId) (s : State) : Res :=
  .next (let k := siteKey st
    match s.ord.done.find? (fun d => match d.dest with | .station j _ => j == k | _ => false) with
    | none => s
    | some d =>
      let n := match d.dest with | .station _ n => n | _ => 0
      let s := s.setOrd { s.ord with done := s.ord.done.erase d }
      match (s.stn k).ops.find? (fun o => o.serial == n) with
      | none => s
      | some o =>
        if s.isRefusal k o d.out then
          if o.tries < 15 then
            s.updStn k (fun t => { t with ops := t.ops.map (fun (y : PoolOp) =>
              if y.serial = n then { y with req := none, tries := y.tries + 1, at_ := s.now } else y) })
          else
            s.updStn k (fun t =>
              let t := { t with ops := t.ops.map (fun (y : PoolOp) =>
                if y.ch = o.ch ∧ n < y.serial ∧ y.req.isSome then { y with tries := 15 } else y) }
              ((t.onCh o.ch).filter (fun y => y.serial == n || (y.req.isNone && n < y.serial))).foldl
                (fun t y => t.opOver y (busyOutcome y false) []) t)
        else (s.updStn k (fun t => t.opOver o d.out d.data)).settleLooms)

/-- REFUSAL_RESEND (R223): 1 µs after the refusal, the held requests of a channel go again in their order, once none sent after the first of
them is outstanding. -/
def execRefusalResend (st : SiteId) (ch : Fin 8) (s : State) : Res :=
  .next (let k := siteKey st
    let ops := (s.stn k).onCh ch.val
    let held := ops.filter (fun o => o.req.isNone)
    match held with
    | [] => s
    | o :: _ =>
      if held.all (fun o => o.at_ + 1000 ≤ s.now || o.tries = 0) && ops.all (fun y => y.req.isNone || y.serial < o.serial) then
        (held.foldl (fun s o => s.sendOp k o) s).settle
      else s)

/-- pabort (R75, R224): OK on its own ticket when the abort wins, ALREADY_COMPLETE when the target has nothing left to abort. A request held
for resending has not reached its commit point; one that has been sent is decided at the end of the cycle (R77). -/
def execPabort (st : SiteId) (w : BitVec 54) (s : State) : Res :=
  .next (s.issue st (mifelWord 6 5 w) {} false (fun s k t i =>
    let n := i.immBits 0 4
    let u := i.immBits 4 4
    let answer (s : State) (t : Stn) (won : Bool) : Issue :=
      .all (s.setStn k (t.setTicket n { status := if won then .ok else .alreadyComplete })).settle
    if u = 15 then .trap 3 15 0 0
    else if t.ticketBusy n then .stall
    else match (t.ticket u).op.bind (fun m => t.ops.find? (fun o => o.serial == m)) with
      | none => answer s t false
      | some o =>
        match o.req.bind s.req with
        | some r =>
          .all ((s.setStn k (({ t with serial := t.serial + 1 } : Stn).setTicket n { op := some t.serial })).decideLate
            (.abort r.chan r.tag (.ticket k n t.serial)))
        | none =>
          if o.req.isNone then answer (s.count F.XLT_ORD_CNT_ABORT_WON 1 (siteQ k)) (t.opOver o (busyOutcome o true) []) true
          else answer s t false))

/-! ### Refills of the instruction cache (R177, R232) -/

/-- ICACHE_REFILL (R177): a parity error on the line of the pc starts a refetch of the line, which counts in IC_PE; the command that finds the
refetch complete fills the line, or traps the station with cause 5. -/
def execIcacheRefill (st : SiteId) (s : State) : Res :=
  .next (let k := siteKey st
    let t := s.stn k
    match t.refill with
    | none =>
      if s.siteState k = 3 ∧ t.run ∧ t.pc < t.code.length then
        let line := t.pc / 32
        let a := t.prog + 256 * line
        let n := min 256 (8 * (t.code.length - 32 * line))
        let s := (s.setStn k { t with refill := some line }).count F.STN_CNT_IC_PE 1 (siteQ k)
        let c := s.siteCtx k
        (s.addReq { id := 0, chan := s.siteChan k 8, tag := s.ord.nextId % 65536, kind := .fetch, seg := bits a 56 3, addr := a, len := n
                    data := List.replicate n 0, have_ := n, pieces := s.plainPieces c a n true, ep := s.stnEp k, dest := .refill k }).settle
      else s
    | some line =>
      match s.ord.done.find? (fun d => d.dest == .refill k) with
      | none => s
      | some d =>
        let s := s.setOrd { s.ord with done := s.ord.done.erase d }
        if d.out.status = .ok then
          let ws := (List.range (d.data.length / 8)).map (fun i => BitVec.ofNat 64 (wordAt d.data (8 * i)))
          s.setStn k { t with refill := none, code := t.code.take (32 * line) ++ ws ++ t.code.drop (32 * line + ws.length) }
        else (s.setStn k { t with refill := none }).trapStn k 5 (256 * line) d.out.status.code 0 0 t.pc)

end Sys2Proof.Machine
end

