-- ==== Sys2Proof/Machine/MifelScalar.lean ====
section
/-!
DEFINITION. Mifel scalar and branch instructions (R208, R209).
-/
namespace Sys2Proof.Machine
open Sys2Proof

/-- Operand shapes of the scalar class (Table 8-3). -/
def shapeSSS : Shape := { rd := some .s, ra := some .s, rb := some .s, formT := true }
def shapeSSI : Shape := { rd := some .s, ra := some .s, formI := true }
def shapePPP : Shape := { rd := some .p, ra := some .p, rb := some .p, formT := true }

/-- D = A op B. -/
def State.alu (s : State) (x : SiteId) (word : BitVec 64) (f : BitVec 64 → BitVec 64 → BitVec 64) : State :=
  s.issueReg x word shapeSSS false (fun t i => t.putS i (f (t.sa i) (t.sb i)))

/-- D = A op IMM32, the immediate sign-extended. -/
def State.aluImm (s : State) (x : SiteId) (word : BitVec 64) (f : BitVec 64 → BitVec 64 → BitVec 64) : State :=
  s.issueReg x word shapeSSI false (fun t i => t.putS i (f (t.sa i) i.imm32))

/-- D = A op B on predicates. -/
def State.aluPred (s : State) (x : SiteId) (word : BitVec 64) (f : BitVec 64 → BitVec 64 → BitVec 64) : State :=
  s.issueReg x word shapePPP false (fun t i => t.putP i (f (t.preg (pN i.ra)) (t.preg (pN i.rb))))

/-- Shift amounts are modulo 64. -/
def shAmt (b : BitVec 64) : Nat := b.toNat % 64

/-- add (Table 8-3). -/
def execAdd (st : SiteId) (w : BitVec 54) (s : State) : Res := .next (s.alu st (mifelWord 0 0 w) (fun a b => a + b))
/-- sub (Table 8-3). -/
def execSub (st : SiteId) (w : BitVec 54) (s : State) : Res := .next (s.alu st (mifelWord 0 1 w) (fun a b => a - b))
/-- and (Table 8-3). -/
def execAnd (st : SiteId) (w : BitVec 54) (s : State) : Res := .next (s.alu st (mifelWord 0 2 w) (fun a b => a &&& b))
/-- or (Table 8-3). -/
def execOr (st : SiteId) (w : BitVec 54) (s : State) : Res := .next (s.alu st (mifelWord 0 3 w) (fun a b => a ||| b))
/-- xor (Table 8-3). -/
def execXor (st : SiteId) (w : BitVec 54) (s : State) : Res := .next (s.alu st (mifelWord 0 4 w) (fun a b => a ^^^ b))
/-- shl (Table 8-3). -/
def execShl (st : SiteId) (w : BitVec 54) (s : State) : Res := .next (s.alu st (mifelWord 0 5 w) (fun a b => a <<< shAmt b))
/-- shr, filling with 0 (Table 8-3). -/
def execShr (st : SiteId) (w : BitVec 54) (s : State) : Res := .next (s.alu st (mifelWord 0 6 w) (fun a b => a >>> shAmt b))
/-- sra, filling with the sign (Table 8-3). -/
def execSra (st : SiteId) (w : BitVec 54) (s : State) : Res := .next (s.alu st (mifelWord 0 7 w) (fun a b => a.sshiftRight (shAmt b)))
/-- mul: the low 64 bits (Table 8-3). -/
def execMul (st : SiteId) (w : BitVec 54) (s : State) : Res := .next (s.alu st (mifelWord 0 8 w) (fun a b => a * b))
/-- mulhu: the high 64 bits of the unsigned product (Table 8-3). -/
def execMulhu (st : SiteId) (w : BitVec 54) (s : State) : Res := .next (s.alu st (mifelWord 0 9 w) (fun a b => BitVec.ofNat 64 (a.toNat * b.toNat / 2 ^ 64)))
/-- min, signed (Table 8-3). -/
def execMin (st : SiteId) (w : BitVec 54) (s : State) : Res := .next (s.alu st (mifelWord 0 10 w) (fun a b => if a.sle b then a else b))
/-- max, signed (Table 8-3). -/
def execMax (st : SiteId) (w : BitVec 54) (s : State) : Res := .next (s.alu st (mifelWord 0 11 w) (fun a b => if a.sle b then b else a))
/-- minu (Table 8-3). -/
def execMinu (st : SiteId) (w : BitVec 54) (s : State) : Res := .next (s.alu st (mifelWord 0 12 w) (fun a b => if a.ule b then a else b))
/-- maxu (Table 8-3). -/
def execMaxu (st : SiteId) (w : BitVec 54) (s : State) : Res := .next (s.alu st (mifelWord 0 13 w) (fun a b => if a.ule b then b else a))
/-- addi (Table 8-3). -/
def execAddi (st : SiteId) (w : BitVec 54) (s : State) : Res := .next (s.aluImm st (mifelWord 0 16 w) (fun a b => a + b))
/-- andi (Table 8-3). -/
def execAndi (st : SiteId) (w : BitVec 54) (s : State) : Res := .next (s.aluImm st (mifelWord 0 17 w) (fun a b => a &&& b))
/-- ori (Table 8-3). -/
def execOri (st : SiteId) (w : BitVec 54) (s : State) : Res := .next (s.aluImm st (mifelWord 0 18 w) (fun a b => a ||| b))
/-- xori (Table 8-3). -/
def execXori (st : SiteId) (w : BitVec 54) (s : State) : Res := .next (s.aluImm st (mifelWord 0 19 w) (fun a b => a ^^^ b))
/-- shli (Table 8-3). -/
def execShli (st : SiteId) (w : BitVec 54) (s : State) : Res := .next (s.aluImm st (mifelWord 0 20 w) (fun a b => a <<< shAmt b))
/-- shri (Table 8-3). -/
def execShri (st : SiteId) (w : BitVec 54) (s : State) : Res := .next (s.aluImm st (mifelWord 0 21 w) (fun a b => a >>> shAmt b))
/-- srai (Table 8-3). -/
def execSrai (st : SiteId) (w : BitVec 54) (s : State) : Res := .next (s.aluImm st (mifelWord 0 22 w) (fun a b => a.sshiftRight (shAmt b)))
/-- movi: D = IMM32, sign-extended (Table 8-3). -/
def execMovi (st : SiteId) (w : BitVec 54) (s : State) : Res :=
  .next (s.issueReg st (mifelWord 0 23 w) { rd := some .s, formI := true } false (fun t i => t.putS i i.imm32))
/-- movhi: D[63:32] = IMM32, D[31:0] kept (Table 8-3). -/
def execMovhi (st : SiteId) (w : BitVec 54) (s : State) : Res :=
  .next (s.issueReg st (mifelWord 0 24 w) { rd := some .s, formI := true } false (fun t i =>
    t.putS i (i.imm32.extractLsb' 0 32 ++ (t.sd i).extractLsb' 0 32)))
/-- cmp.cc (Table 8-3). -/
def execCmp (st : SiteId) (w : BitVec 54) (s : State) : Res :=
  let word := mifelWord 0 32 w
  .next (s.issueReg st word { rd := some .p, ra := some .s, rb := some .s, mods := 7, formT := true } (6 ≤ (insnOf word).modBits 0 3)
    (fun t i => t.putP i (allBits (scalarCc (i.modBits 0 3) (t.sa i) (t.sb i)))))
/-- cmpi.cc (Table 8-3). -/
def execCmpi (st : SiteId) (w : BitVec 54) (s : State) : Res :=
  let word := mifelWord 0 33 w
  .next (s.issueReg st word { rd := some .p, ra := some .s, mods := 7, formI := true } (6 ≤ (insnOf word).modBits 0 3)
    (fun t i => t.putP i (allBits (scalarCc (i.modBits 0 3) (t.sa i) i.imm32))))
/-- pand (Table 8-3). -/
def execPand (st : SiteId) (w : BitVec 54) (s : State) : Res := .next (s.aluPred st (mifelWord 0 40 w) (fun a b => a &&& b))
/-- por (Table 8-3). -/
def execPor (st : SiteId) (w : BitVec 54) (s : State) : Res := .next (s.aluPred st (mifelWord 0 41 w) (fun a b => a ||| b))
/-- pxor (Table 8-3). -/
def execPxor (st : SiteId) (w : BitVec 54) (s : State) : Res := .next (s.aluPred st (mifelWord 0 42 w) (fun a b => a ^^^ b))
/-- pnot (Table 8-3). -/
def execPnot (st : SiteId) (w : BitVec 54) (s : State) : Res :=
  .next (s.issueReg st (mifelWord 0 43 w) { rd := some .p, ra := some .p, formT := true } false (fun t i => t.putP i (~~~ t.preg (pN i.ra))))
/-- mov.ps: a predicate from a scalar, bit for bit (Table 8-3). -/
def execMovPs (st : SiteId) (w : BitVec 54) (s : State) : Res :=
  .next (s.issueReg st (mifelWord 0 44 w) { rd := some .p, ra := some .s, formT := true } false (fun t i => t.putP i (t.sa i)))
/-- mov.sp: a scalar from a predicate, bit for bit (Table 8-3). -/
def execMovSp (st : SiteId) (w : BitVec 54) (s : State) : Res :=
  .next (s.issueReg st (mifelWord 0 45 w) { rd := some .s, ra := some .p, formT := true } false (fun t i => t.putS i (t.preg (pN i.ra))))

/-- The target of a relative branch, as a 32-bit instruction index. -/
def Stn.target (t : Stn) (i : Insn) : BitVec 32 := BitVec.ofNat 32 t.pc + i.imm32.extractLsb' 0 32

/-- br (Table 8-4, R209). -/
def execBr (st : SiteId) (w : BitVec 54) (s : State) : Res :=
  .next (s.issue st (mifelWord 1 0 w) { formI := true } false (fun _ _ t i => .jump t (t.target i)))
/-- jal: D = pc + 1 (Table 8-4, R209). -/
def execJal (st : SiteId) (w : BitVec 54) (s : State) : Res :=
  .next (s.issue st (mifelWord 1 1 w) { rd := some .s, formI := true } false (fun _ _ t i => .jump (t.putS i (BitVec.ofNat 64 (t.pc + 1))) (t.target i)))
/-- jr: pc = A[31:0] (Table 8-4, R209). -/
def execJr (st : SiteId) (w : BitVec 54) (s : State) : Res :=
  .next (s.issue st (mifelWord 1 2 w) { ra := some .s, formT := true } false (fun _ _ t i => .jump t ((t.sa i).extractLsb' 0 32)))

end Sys2Proof.Machine
end

