-- ==== Sys2Proof/Machine/MifelSync.lean ====
section
/-!
DEFINITION. Mifel synchronisation and trap instructions (R226, R227, R232, R247).
-/
namespace Sys2Proof.Machine
open Sys2Proof

/-- nop (Table 8-12). -/
def execNop (st : SiteId) (w : BitVec 54) (s : State) : Res := .next (s.issueReg st (mifelWord 7 0 w) {} false (fun t _ => t))

/-- The value `pwait` returns (Table 8-12). -/
def Ticket.value (x : Ticket) : Nat := x.status.code + x.worst.code * 16 + x.abt.toNat * 256 + x.maskv.toNat * 512

/-- Waits for the ticket the instruction names; t15 traps with cause 3. -/
def State.onTicket (s : State) (x : SiteId) (word : BitVec 64) (mods : Nat) (f : Stn → Insn → Ticket → Issue) : State :=
  s.issue x word { rd := some .s, mods := mods } false (fun _ _ t i =>
    let n := i.immBits 0 4
    if n = 15 then .trap 3 15 0 0
    else if t.ticketBusy n then .block
    else f t i (t.ticket n))

/-- pwait[.chk]: the ticket's outcome; with `.chk`, a status other than OK traps with cause 4 (Table 8-12). -/
def execPwait (st : SiteId) (w : BitVec 54) (s : State) : Res :=
  .next (s.onTicket st (mifelWord 7 1 w) 1 (fun t i x =>
    if i.modBits 0 1 = 1 ∧ x.status ≠ .ok then .trap 4 0 x.status.code (i.immBits 0 4 + x.ch % 8 * 16)
    else .stn (t.putS i (BitVec.ofNat 64 x.value))))
/-- pwait.ch[.chk]: the status of a channel, once its untracked requests have completed; it is OK again afterwards (Table 8-12). -/
def execPwaitCh (st : SiteId) (w : BitVec 54) (s : State) : Res :=
  .next (s.issue st (mifelWord 7 2 w) { rd := some .s, mods := 1 } false (fun _ _ t i =>
    let c := i.immBits 0 3
    let x := smGet .ok t.chst c
    if (t.onCh c).any (fun o => o.ticket == 15) then .block
    else if i.modBits 0 1 = 1 ∧ x ≠ .ok then .trap 4 0 x.code (15 + c * 16)
    else .stn (({ t with chst := smSet .ok t.chst c .ok } : Stn).putS i (BitVec.ofNat 64 x.code))))
/-- pres: word 1 of the outcome (Table 8-12). -/
def execPres (st : SiteId) (w : BitVec 54) (s : State) : Res :=
  .next (s.onTicket st (mifelWord 7 3 w) 0 (fun t i x => .stn (t.putS i (BitVec.ofNat 64 x.word1))))
/-- pinfo: INFO, zero-extended (Table 8-12). -/
def execPinfo (st : SiteId) (w : BitVec 54) (s : State) : Res :=
  .next (s.onTicket st (mifelWord 7 4 w) 0 (fun t i x => .stn (t.putS i (BitVec.ofNat 64 x.info))))
/-- wait: until the units of the mask are idle (Table 8-12). -/
def execWait (st : SiteId) (w : BitVec 54) (s : State) : Res :=
  .next (s.issue st (mifelWord 7 5 w) {} false (fun _ _ t i =>
    let m := i.immBits 0 4
    if (m.testBit 0 && !t.queue.isEmpty) || (m.testBit 1 && !t.ops.isEmpty) || (m.testBit 2 && !t.sends.isEmpty) ||
       (m.testBit 3 && !t.recvs.isEmpty) then .block else .stn t))

/-- Array, pool requests and sends of the station are over (R227 step 1). -/
def Stn.quiet (t : Stn) : Bool := t.queue.isEmpty && t.ops.isEmpty && t.sends.isEmpty

/-- beat (R227): once the station is quiet, BEAT counts, and a pending pause takes the station to STATE 4. -/
def execBeat (st : SiteId) (w : BitVec 54) (s : State) : Res :=
  .next (s.issue st (mifelWord 7 6 w) {} false (fun s k t _ =>
    if !t.quiet then .stall
    else
      let s := s.setStn k { t with beats := t.beats + 1 }
      .all (if t.pausing then
        let s := s.setSiteState k 4
        match t.loom with
        | some n => s.checkPaused n
        | none => s
      else s)))

/-- The running call of the draft a station works for. -/
def State.callOf (s : State) (k : Nat) : Option (Nat × Nat × Call) :=
  let t := s.stn k
  t.loom.bind (fun n => ((s.loom n).drafts[t.draft]?).bind (fun x => x.run.map (fun c => (n, t.draft, c))))

/-- cmpl (R226, R247): the first of a call records A and B, a later one traps with cause 3. -/
def execCmpl (st : SiteId) (w : BitVec 54) (s : State) : Res :=
  .next (s.issue st (mifelWord 7 7 w) { ra := some .s, rb := some .s } false (fun s k t i =>
    match s.callOf k with
    | some (n, d, c) =>
      if c.cmpl.isSome then .trap 3 (t.sa i).toNat 0 0
      else .all (s.updDraft n d (fun x => { x with run := some { c with cmpl := some ((t.sa i).toNat, (t.sb i).toNat) } }))
    | none => .stn t))

/-- A station has halted: it waits for a call; its call ends OK once every station of the call has halted (R247). -/
def State.haltStn (s : State) (k : Nat) : State :=
  match s.callOf k with
  | some (n, d, c) =>
    let wait := c.wait.filter (· ≠ k)
    let c := { c with wait := wait }
    let s := ((s.awaitCall k).checkPaused n).updDraft n d (fun x => { x with run := some c })
    if wait.isEmpty ∧ c.ending.isNone then s.endOk n d c else s
  | none => s.awaitCall k

/-- halt (R247): waits as step 1 of R227, then ends the call on this station. -/
def execHalt (st : SiteId) (w : BitVec 54) (s : State) : Res :=
  .next (s.issue st (mifelWord 7 8 w) {} false (fun s k t _ => if !t.quiet then .stall else .all (s.haltStn k)))

/-- Value of system register `n` (Table 8-13). CYCLE counts at 1.6 GHz. -/
def State.sysreg (s : State) (k : Nat) (t : Stn) (n : Nat) : Nat :=
  match n with
  | 0 => siteI k + siteQ k * 512
  | 1 => s.siteCtx k
  | 2 => (s.now - t.loadAt) * 8 / 5
  | 3 => t.beats
  | 4 => if s.locked then s.netNow else s.now
  | 5 => t.entry
  | 6 => t.arg.toNat
  | _ => t.rctr.toNat

/-- sysr (Table 8-12); n from 8 on is illegal (Table 8-13). -/
def execSysr (st : SiteId) (w : BitVec 54) (s : State) : Res :=
  let word := mifelWord 7 9 w
  .next (s.issue st word { rd := some .s } (8 ≤ (insnOf word).immBits 0 4) (fun s k t i =>
    .stn (t.putS i (BitVec.ofNat 64 (s.sysreg k t (i.immBits 0 4))))))

/-! ### Traps (R204, R232) -/

/-- An operation of a class that exists (Tables 8-3 to 8-15). -/
def opExists (cls op : Nat) : Bool :=
  match cls with
  | 0 => op ≤ 0x0D || (0x10 ≤ op && op ≤ 0x18) || op == 0x20 || op == 0x21 || (0x28 ≤ op && op ≤ 0x2D)
  | 1 => op ≤ 2
  | 2 => op ≤ 7
  | 3 => op ≤ 0x17
  | 4 => op ≤ 5
  | 5 => op ≤ 3
  | 6 => op ≤ 6 || op == 8 || op == 9
  | 7 => op ≤ 9
  | 8 => op ≤ 8
  | 9 => op == 0
  | _ => false

/-- TRAP (R232): the user trap, cause 7 with its code; a word whose CLASS or OP is reserved traps with cause 1 (R204). Other words have a
command of their own. -/
def execTrap (st : SiteId) (word : BitVec 64) (s : State) : Res :=
  .next (let i := insnOf word
    if i.cls.toNat = 9 ∧ i.op.toNat = 0 then s.issue st word { formI := true } false (fun _ _ _ i => .trap 7 0 0 (i.imm32.toNat % 256))
    else if opExists i.cls.toNat i.op.toNat then s
    else s.issue st word {} true (fun _ _ t _ => .stn t))

end Sys2Proof.Machine
end

