-- ==== Sys2Proof/Machine/Dispatch.lean ====
section
/-!
DEFINITION. The meaning of every command: one arm per constructor of Instr, each a direct call.
-/
namespace Sys2Proof.Machine
open Sys2Proof

def exec (i : Instr) (s : State) : Host.Outcome State Fault Refusal :=
  match i with
  | .registerWrite w off v => Sys2Proof.Machine.execRegisterWrite w off v s
  | .counterReadClear w off => Sys2Proof.Machine.execCounterReadClear w off s
  | .rwlWrite w off v => Sys2Proof.Machine.execRwlWrite w off v s
  | .bridgeRetrainFailure b => Sys2Proof.Machine.execBridgeRetrainFailure b s
  | .wakeTrigger c => Sys2Proof.Machine.execWakeTrigger c s
  | .xltCtxBindWrite w c v => Sys2Proof.Machine.execXltCtxBindWrite w c v s
  | .xltSegAttrWrite w c g v => Sys2Proof.Machine.execXltSegAttrWrite w c g v s
  | .extRead w => Sys2Proof.Machine.execExtRead w s
  | .extWrite w => Sys2Proof.Machine.execExtWrite w s
  | .walkStart q => Sys2Proof.Machine.execWalkStart q s
  | .walkEnd q n bad => Sys2Proof.Machine.execWalkEnd q n bad s
  | .faultEntryAllocate q => Sys2Proof.Machine.execFaultEntryAllocate q s
  | .faultRecordWrite q => Sys2Proof.Machine.execFaultRecordWrite q s
  | .resumeRetry w fid => Sys2Proof.Machine.execResumeRetry w fid s
  | .resumeFail w fid => Sys2Proof.Machine.execResumeFail w fid s
  | .faultTimeout q e => Sys2Proof.Machine.execFaultTimeout q e s
  | .revokeUnmap w c g tag => Sys2Proof.Machine.execRevokeUnmap w c g tag s
  | .revokeRemap w c g tag => Sys2Proof.Machine.execRevokeRemap w c g tag s
  | .revokeProtect w c g tag => Sys2Proof.Machine.execRevokeProtect w c g tag s
  | .revokeSegment w c g tag => Sys2Proof.Machine.execRevokeSegment w c g tag s
  | .revokeContext w c tag => Sys2Proof.Machine.execRevokeContext w c tag s
  | .revokeStart c => Sys2Proof.Machine.execRevokeStart c s
  | .revokeDrainEnd c => Sys2Proof.Machine.execRevokeDrainEnd c s
  | .rd p k => Sys2Proof.Machine.execRd p k s
  | .wr p k => Sys2Proof.Machine.execWr p k s
  | .poolPieceComplete id n => Sys2Proof.Machine.execPoolPieceComplete id n s
  | .rdata p k => Sys2Proof.Machine.execRdata p k s
  | .cmplPacket p k => Sys2Proof.Machine.execCmplPacket p k s
  | .abort p k => Sys2Proof.Machine.execAbort p k s
  | .hint p k => Sys2Proof.Machine.execHint p k s
  | .vopOpen p k => Sys2Proof.Machine.execVopOpen p k s
  | .vopClose p k => Sys2Proof.Machine.execVopClose p k s
  | .vopBegin p k => Sys2Proof.Machine.execVopBegin p k s
  | .vopPublish p k => Sys2Proof.Machine.execVopPublish p k s
  | .vopDiscard p k => Sys2Proof.Machine.execVopDiscard p k s
  | .vrd p k => Sys2Proof.Machine.execVrd p k s
  | .vwr p k => Sys2Proof.Machine.execVwr p k s
  | .publishCommit id => Sys2Proof.Machine.execPublishCommit id s
  | .versionLeaseExpiry r n => Sys2Proof.Machine.execVersionLeaseExpiry r n s
  | .xltVerRgnIdWrite w r v => Sys2Proof.Machine.execXltVerRgnIdWrite w r v s
  | .forceClose w r n => Sys2Proof.Machine.execForceClose w r n s
  | .discardPendingSlot w r n => Sys2Proof.Machine.execDiscardPendingSlot w r n s
  | .destroyRegion w r => Sys2Proof.Machine.execDestroyRegion w r s
  | .movChCtxWrite w q k v => Sys2Proof.Machine.execMovChCtxWrite w q k v s
  | .movChStart w q k h => Sys2Proof.Machine.execMovChStart w q k h s
  | .descriptorFetch q k => Sys2Proof.Machine.execDescriptorFetch q k s
  | .descriptorComplete q k => Sys2Proof.Machine.execDescriptorComplete q k s
  | .moverResume w q k => Sys2Proof.Machine.execMoverResume w q k s
  | .moverRetry w q k => Sys2Proof.Machine.execMoverRetry w q k s
  | .moverStop w q k => Sys2Proof.Machine.execMoverStop w q k s
  | .moverStopEnd q k => Sys2Proof.Machine.execMoverStopEnd q k s
  | .rdshared p k => Sys2Proof.Machine.execRdshared p k s
  | .rdown p k => Sys2Proof.Machine.execRdown p k s
  | .upgrade p k => Sys2Proof.Machine.execUpgrade p k s
  | .evclean p k => Sys2Proof.Machine.execEvclean p k s
  | .wbdirty p k => Sys2Proof.Machine.execWbdirty p k s
  | .rspi p k => Sys2Proof.Machine.execRspi p k s
  | .rspdata p k => Sys2Proof.Machine.execRspdata p k s
  | .rspok p k => Sys2Proof.Machine.execRspok p k s
  | .stashack p k => Sys2Proof.Machine.execStashack p k s
  | .stashref p k => Sys2Proof.Machine.execStashref p k s
  | .binv p k => Sys2Proof.Machine.execBinv p k s
  | .back p k => Sys2Proof.Machine.execBack p k s
  | .dead p k => Sys2Proof.Machine.execDead p k s
  | .snoopTimeout a lid => Sys2Proof.Machine.execSnoopTimeout a lid s
  | .backTimeout n lid => Sys2Proof.Machine.execBackTimeout n lid s
  | .peerRouteLoss n => Sys2Proof.Machine.execPeerRouteLoss n s
  | .cohDeadCmd w a => Sys2Proof.Machine.execCohDeadCmd w a s
  | .cohAgentWrite w a v => Sys2Proof.Machine.execCohAgentWrite w a v s
  | .reclaimSweepEnd q => Sys2Proof.Machine.execReclaimSweepEnd q s
  | .poisonListWrite => Sys2Proof.Machine.execPoisonListWrite s
  | .stackRequestArrival x k e => Sys2Proof.Machine.execStackRequestArrival x k e s
  | .columnCommandIssue x ch e => Sys2Proof.Machine.execColumnCommandIssue x ch e s
  | .rowCommandIssue x ch => Sys2Proof.Machine.execRowCommandIssue x ch s
  | .idleClose x ch b => Sys2Proof.Machine.execIdleClose x ch b s
  | .refreshDue x ch b => Sys2Proof.Machine.execRefreshDue x ch b s
  | .rowHammerClear x ch b => Sys2Proof.Machine.execRowHammerClear x ch b s
  | .stackTrainingEnd x r => Sys2Proof.Machine.execStackTrainingEnd x r s
  | .periodicRetrain x r => Sys2Proof.Machine.execPeriodicRetrain x r s
  | .tempDriftRetrain x r => Sys2Proof.Machine.execTempDriftRetrain x r s
  | .trainingStartCmd w x r => Sys2Proof.Machine.execTrainingStartCmd w x r s
  | .selfRefreshEntry x => Sys2Proof.Machine.execSelfRefreshEntry x s
  | .selfRefreshExit x => Sys2Proof.Machine.execSelfRefreshExit x s
  | .selfRefreshExitEnd x temp => Sys2Proof.Machine.execSelfRefreshExitEnd x temp s
  | .placementDecay x => Sys2Proof.Machine.execPlacementDecay x s
  | .placementScan w x cls max => Sys2Proof.Machine.execPlacementScan w x cls max s
  | .scanEntryWrite x => Sys2Proof.Machine.execScanEntryWrite x s
  | .scanEnd x => Sys2Proof.Machine.execScanEnd x s
  | .migrationCmd w x extCount tag => Sys2Proof.Machine.execMigrationCmd w x extCount tag s
  | .migrationCopyEnd x k lost => Sys2Proof.Machine.execMigrationCopyEnd x k lost s
  | .migrationRemapIssue c g => Sys2Proof.Machine.execMigrationRemapIssue c g s
  | .codeRebuild x lost => Sys2Proof.Machine.execCodeRebuild x lost s
  | .foldAgeFlush x lost => Sys2Proof.Machine.execFoldAgeFlush x lost s
  | .channelRelocationEnd x => Sys2Proof.Machine.execChannelRelocationEnd x s
  | .rebuildStart w x => Sys2Proof.Machine.execRebuildStart w x s
  | .autoRebuild x => Sys2Proof.Machine.execAutoRebuild x s
  | .rebuildUnitEnd x lost => Sys2Proof.Machine.execRebuildUnitEnd x lost s
  | .scrubPage x e => Sys2Proof.Machine.execScrubPage x e s
  | .scrubBatch x => Sys2Proof.Machine.execScrubBatch x s
  | .scrubStart w x => Sys2Proof.Machine.execScrubStart w x s
  | .bucketLeak x => Sys2Proof.Machine.execBucketLeak x s
  | .localStoreDoubleError st => Sys2Proof.Machine.execLocalStoreDoubleError st s
  | .weftFlitReceive x port bad => Sys2Proof.Machine.execWeftFlitReceive x port bad s
  | .siteDomainFault st => Sys2Proof.Machine.execSiteDomainFault st s
  | .fenceDrainEnd st => Sys2Proof.Machine.execFenceDrainEnd st s
  | .fenceCmd w q site => Sys2Proof.Machine.execFenceCmd w q site s
  | .selftestCmd w q site => Sys2Proof.Machine.execSelftestCmd w q site s
  | .retireCmd w q site => Sys2Proof.Machine.execRetireCmd w q site s
  | .selftestEnd st first => Sys2Proof.Machine.execSelftestEnd st first s
  | .icacheRefill st => Sys2Proof.Machine.execIcacheRefill st s
  | .add st w => Sys2Proof.Machine.execAdd st w s
  | .sub st w => Sys2Proof.Machine.execSub st w s
  | .and st w => Sys2Proof.Machine.execAnd st w s
  | .or st w => Sys2Proof.Machine.execOr st w s
  | .xor st w => Sys2Proof.Machine.execXor st w s
  | .shl st w => Sys2Proof.Machine.execShl st w s
  | .shr st w => Sys2Proof.Machine.execShr st w s
  | .sra st w => Sys2Proof.Machine.execSra st w s
  | .mul st w => Sys2Proof.Machine.execMul st w s
  | .mulhu st w => Sys2Proof.Machine.execMulhu st w s
  | .min st w => Sys2Proof.Machine.execMin st w s
  | .max st w => Sys2Proof.Machine.execMax st w s
  | .minu st w => Sys2Proof.Machine.execMinu st w s
  | .maxu st w => Sys2Proof.Machine.execMaxu st w s
  | .addi st w => Sys2Proof.Machine.execAddi st w s
  | .andi st w => Sys2Proof.Machine.execAndi st w s
  | .ori st w => Sys2Proof.Machine.execOri st w s
  | .xori st w => Sys2Proof.Machine.execXori st w s
  | .shli st w => Sys2Proof.Machine.execShli st w s
  | .shri st w => Sys2Proof.Machine.execShri st w s
  | .srai st w => Sys2Proof.Machine.execSrai st w s
  | .movi st w => Sys2Proof.Machine.execMovi st w s
  | .movhi st w => Sys2Proof.Machine.execMovhi st w s
  | .cmp st w => Sys2Proof.Machine.execCmp st w s
  | .cmpi st w => Sys2Proof.Machine.execCmpi st w s
  | .pand st w => Sys2Proof.Machine.execPand st w s
  | .por st w => Sys2Proof.Machine.execPor st w s
  | .pxor st w => Sys2Proof.Machine.execPxor st w s
  | .pnot st w => Sys2Proof.Machine.execPnot st w s
  | .movPs st w => Sys2Proof.Machine.execMovPs st w s
  | .movSp st w => Sys2Proof.Machine.execMovSp st w s
  | .br st w => Sys2Proof.Machine.execBr st w s
  | .jal st w => Sys2Proof.Machine.execJal st w s
  | .jr st w => Sys2Proof.Machine.execJr st w s
  | .lds st w => Sys2Proof.Machine.execLds st w s
  | .ldw st w => Sys2Proof.Machine.execLdw st w s
  | .sts st w => Sys2Proof.Machine.execSts st w s
  | .stw st w => Sys2Proof.Machine.execStw st w s
  | .ldv st w => Sys2Proof.Machine.execLdv st w s
  | .stv st w => Sys2Proof.Machine.execStv st w s
  | .ldvH st w => Sys2Proof.Machine.execLdvH st w s
  | .stvH st w => Sys2Proof.Machine.execStvH st w s
  | .vadd st w => Sys2Proof.Machine.execVadd st w s
  | .vsub st w => Sys2Proof.Machine.execVsub st w s
  | .vmul st w => Sys2Proof.Machine.execVmul st w s
  | .vfma st w => Sys2Proof.Machine.execVfma st w s
  | .vmax st w => Sys2Proof.Machine.execVmax st w s
  | .vmin st w => Sys2Proof.Machine.execVmin st w s
  | .vabs st w => Sys2Proof.Machine.execVabs st w s
  | .vneg st w => Sys2Proof.Machine.execVneg st w s
  | .vrcp st w => Sys2Proof.Machine.execVrcp st w s
  | .vrsqrt st w => Sys2Proof.Machine.execVrsqrt st w s
  | .vexp2 st w => Sys2Proof.Machine.execVexp2 st w s
  | .vcmp st w => Sys2Proof.Machine.execVcmp st w s
  | .vsel st w => Sys2Proof.Machine.execVsel st w s
  | .vbcast st w => Sys2Proof.Machine.execVbcast st w s
  | .vext st w => Sys2Proof.Machine.execVext st w s
  | .vlane st w => Sys2Proof.Machine.execVlane st w s
  | .vredsum st w => Sys2Proof.Machine.execVredsum st w s
  | .vredmax st w => Sys2Proof.Machine.execVredmax st w s
  | .vand st w => Sys2Proof.Machine.execVand st w s
  | .vor st w => Sys2Proof.Machine.execVor st w s
  | .vxor st w => Sys2Proof.Machine.execVxor st w s
  | .vshl st w => Sys2Proof.Machine.execVshl st w s
  | .vshr st w => Sys2Proof.Machine.execVshr st w s
  | .vcvt st w => Sys2Proof.Machine.execVcvt st w s
  | .mma st w => Sys2Proof.Machine.execMma st w s
  | .mmaz st w => Sys2Proof.Machine.execMmaz st w s
  | .mmaEnd st => Sys2Proof.Machine.execMmaEnd st s
  | .acczero st w => Sys2Proof.Machine.execAcczero st w s
  | .accst st w => Sys2Proof.Machine.execAccst st w s
  | .vacc st w => Sys2Proof.Machine.execVacc st w s
  | .vaccw st w => Sys2Proof.Machine.execVaccw st w s
  | .wsend st w => Sys2Proof.Machine.execWsend st w s
  | .wrecv st w => Sys2Proof.Machine.execWrecv st w s
  | .wsendS st w => Sys2Proof.Machine.execWsendS st w s
  | .wrecvS st w => Sys2Proof.Machine.execWrecvS st w s
  | .pget st w => Sys2Proof.Machine.execPget st w s
  | .pput st w => Sys2Proof.Machine.execPput st w s
  | .pgetV st w => Sys2Proof.Machine.execPgetV st w s
  | .pputV st w => Sys2Proof.Machine.execPputV st w s
  | .pverOpen st w => Sys2Proof.Machine.execPverOpen st w s
  | .pverClose st w => Sys2Proof.Machine.execPverClose st w s
  | .pverBegin st w => Sys2Proof.Machine.execPverBegin st w s
  | .pverPublish st w => Sys2Proof.Machine.execPverPublish st w s
  | .pverDiscard st w => Sys2Proof.Machine.execPverDiscard st w s
  | .pabort st w => Sys2Proof.Machine.execPabort st w s
  | .phint st w => Sys2Proof.Machine.execPhint st w s
  | .cvtHdl st w => Sys2Proof.Machine.execCvtHdl st w s
  | .cvtHva st w => Sys2Proof.Machine.execCvtHva st w s
  | .ticketComplete st => Sys2Proof.Machine.execTicketComplete st s
  | .refusalResend st ch => Sys2Proof.Machine.execRefusalResend st ch s
  | .nop st w => Sys2Proof.Machine.execNop st w s
  | .pwait st w => Sys2Proof.Machine.execPwait st w s
  | .pwaitCh st w => Sys2Proof.Machine.execPwaitCh st w s
  | .pres st w => Sys2Proof.Machine.execPres st w s
  | .pinfo st w => Sys2Proof.Machine.execPinfo st w s
  | .wait st w => Sys2Proof.Machine.execWait st w s
  | .beat st w => Sys2Proof.Machine.execBeat st w s
  | .cmpl st w => Sys2Proof.Machine.execCmpl st w s
  | .halt st w => Sys2Proof.Machine.execHalt st w s
  | .sysr st w => Sys2Proof.Machine.execSysr st w s
  | .osmInit st w => Sys2Proof.Machine.execOsmInit st w s
  | .osmUpd st w => Sys2Proof.Machine.execOsmUpd st w s
  | .osmScale st w => Sys2Proof.Machine.execOsmScale st w s
  | .osmFin st w => Sys2Proof.Machine.execOsmFin st w s
  | .tmask st w => Sys2Proof.Machine.execTmask st w s
  | .vtopk st w => Sys2Proof.Machine.execVtopk st w s
  | .sample st w => Sys2Proof.Machine.execSample st w s
  | .rng st w => Sys2Proof.Machine.execRng st w s
  | .rngs st w => Sys2Proof.Machine.execRngs st w s
  | .trap st word => Sys2Proof.Machine.execTrap st word s
  | .loomLoad w n => Sys2Proof.Machine.execLoomLoad w n s
  | .loomLoadEnd n => Sys2Proof.Machine.execLoomLoadEnd n s
  | .loomReset w n => Sys2Proof.Machine.execLoomReset w n s
  | .loomPause w n => Sys2Proof.Machine.execLoomPause w n s
  | .loomResume w n => Sys2Proof.Machine.execLoomResume w n s
  | .call p k => Sys2Proof.Machine.execCall p k s
  | .callStart n d => Sys2Proof.Machine.execCallStart n d s
  | .chainedCallSend n => Sys2Proof.Machine.execChainedCallSend n s
  | .pauseWaitExpiry n => Sys2Proof.Machine.execPauseWaitExpiry n s
  | .mendStart st => Sys2Proof.Machine.execMendStart st s
  | .mendComplete st => Sys2Proof.Machine.execMendComplete st s
  | .weftStall st port => Sys2Proof.Machine.execWeftStall st port s
  | .portCtlWrite w p v => Sys2Proof.Machine.execPortCtlWrite w p v s
  | .portCrdCfgWrite w p v => Sys2Proof.Machine.execPortCrdCfgWrite w p v s
  | .portRetrainCmd w p => Sys2Proof.Machine.execPortRetrainCmd w p s
  | .portDownCmd w p => Sys2Proof.Machine.execPortDownCmd w p s
  | .portTrainCmd w p => Sys2Proof.Machine.execPortTrainCmd w p s
  | .trainingStart p => Sys2Proof.Machine.execTrainingStart p s
  | .trainingEnd p r => Sys2Proof.Machine.execTrainingEnd p r s
  | .cap p c => Sys2Proof.Machine.execCap p c s
  | .echo p t1 turn => Sys2Proof.Machine.execEcho p t1 turn s
  | .beaconBurst p => Sys2Proof.Machine.execBeaconBurst p s
  | .flitReceive p f r => Sys2Proof.Machine.execFlitReceive p f r s
  | .replayTimeout p => Sys2Proof.Machine.execReplayTimeout p s
  | .auditSend p => Sys2Proof.Machine.execAuditSend p s
  | .audit p counts => Sys2Proof.Machine.execAudit p counts s
  | .leakRetrain p => Sys2Proof.Machine.execLeakRetrain p s
  | .leakRetrainForce p => Sys2Proof.Machine.execLeakRetrainForce p s
  | .retrainReq p => Sys2Proof.Machine.execRetrainReq p s
  | .retrainEnd p c => Sys2Proof.Machine.execRetrainEnd p c s
  | .retrainTimeout p => Sys2Proof.Machine.execRetrainTimeout p s
  | .lossRetrain p => Sys2Proof.Machine.execLossRetrain p s
  | .lossDown p => Sys2Proof.Machine.execLossDown p s
  | .downNotice p => Sys2Proof.Machine.execDownNotice p s
  | .sleepReq p => Sys2Proof.Machine.execSleepReq p s
  | .sleepAck p => Sys2Proof.Machine.execSleepAck p s
  | .sleepNak p => Sys2Proof.Machine.execSleepNak p s
  | .wakeBurst p => Sys2Proof.Machine.execWakeBurst p s
  | .wakeBurstDetect p => Sys2Proof.Machine.execWakeBurstDetect p s
  | .hubForward p vc => Sys2Proof.Machine.execHubForward p vc s
  | .egressStart p => Sys2Proof.Machine.execEgressStart p s
  | .gateEntryEnd p => Sys2Proof.Machine.execGateEntryEnd p s
  | .routeRead w => Sys2Proof.Machine.execRouteRead w s
  | .routeWrite w => Sys2Proof.Machine.execRouteWrite w s
  | .routeClear w => Sys2Proof.Machine.execRouteClear w s
  | .routeCopy w => Sys2Proof.Machine.execRouteCopy w s
  | .routeOpEnd => Sys2Proof.Machine.execRouteOpEnd s
  | .flip w => Sys2Proof.Machine.execFlip w s
  | .recheck w => Sys2Proof.Machine.execRecheck w s
  | .drainDetect => Sys2Proof.Machine.execDrainDetect s
  | .drainTimeout => Sys2Proof.Machine.execDrainTimeout s
  | .autoAltFailover p => Sys2Proof.Machine.execAutoAltFailover p s
  | .groupRead w => Sys2Proof.Machine.execGroupRead w s
  | .groupWrite w => Sys2Proof.Machine.execGroupWrite w s
  | .mwr p k => Sys2Proof.Machine.execMwr p k s
  | .mcall p k => Sys2Proof.Machine.execMcall p k s
  | .mrep p k => Sys2Proof.Machine.execMrep p k s
  | .multicastReportSend rid => Sys2Proof.Machine.execMulticastReportSend rid s
  | .mcBranchTimeout rid p => Sys2Proof.Machine.execMcBranchTimeout rid p s
  | .sync p k => Sys2Proof.Machine.execSync p k s
  | .followUp p k => Sys2Proof.Machine.execFollowUp p k s
  | .syncSend p => Sys2Proof.Machine.execSyncSend p s
  | .timeSet w v => Sys2Proof.Machine.execTimeSet w v s
  | .portQCfgWrite w p q v => Sys2Proof.Machine.execPortQCfgWrite w p q v s
  | .hubPolCfgWrite w c v => Sys2Proof.Machine.execHubPolCfgWrite w c v s
  | .hubQselWrite w c v => Sys2Proof.Machine.execHubQselWrite w c v s
  | .queueSample p => Sys2Proof.Machine.execQueueSample p s
  | .cfgRd p k => Sys2Proof.Machine.execCfgRd p k s
  | .cfgWr p k => Sys2Proof.Machine.execCfgWr p k s
  | .hostMessageSend => Sys2Proof.Machine.execHostMessageSend s
  | .hwack p k => Sys2Proof.Machine.execHwack p k s
  | .hrdata p k => Sys2Proof.Machine.execHrdata p k s
  | .hrdTimeout tag => Sys2Proof.Machine.execHrdTimeout tag s
  | .streamReturn => Sys2Proof.Machine.execStreamReturn s
  | .eventRingWrite => Sys2Proof.Machine.execEventRingWrite s
  | .releaseCmd w v => Sys2Proof.Machine.execReleaseCmd w v s
  | .releaseStart bad => Sys2Proof.Machine.execReleaseStart bad s
  | .releaseEnd => Sys2Proof.Machine.execReleaseEnd s
  | .attReq p k => Sys2Proof.Machine.execAttReq p k s
  | .akGenerate => Sys2Proof.Machine.execAkGenerate s
  | .kexCt p k => Sys2Proof.Machine.execKexCt p k s
  | .bounceTailWrite w t v => Sys2Proof.Machine.execBounceTailWrite w t v s
  | .bounceSlot t => Sys2Proof.Machine.execBounceSlot t s
  | .bounceSlotEnd t => Sys2Proof.Machine.execBounceSlotEnd t s
  | .fwStage p k img => Sys2Proof.Machine.execFwStage p k img s
  | .fwApply p k => Sys2Proof.Machine.execFwApply p k s
  | .fwUpdateEnd => Sys2Proof.Machine.execFwUpdateEnd s
  | .auth p k => Sys2Proof.Machine.execAuth p k s
  | .extend p k => Sys2Proof.Machine.execExtend p k s
  | .endSession p k => Sys2Proof.Machine.execEndSession p k s
  | .evrClear p k => Sys2Proof.Machine.execEvrClear p k s
  | .interruptDelivery g => Sys2Proof.Machine.execInterruptDelivery g s
  | .groupComplete w g => Sys2Proof.Machine.execGroupComplete w g s
  | .swSet w n => Sys2Proof.Machine.execSwSet w n s
  | .intcGrpCfgWrite w g v => Sys2Proof.Machine.execIntcGrpCfgWrite w g v s
  | .intcSrcCfgWrite w n v => Sys2Proof.Machine.execIntcSrcCfgWrite w n v s
  | .gdisClear w => Sys2Proof.Machine.execGdisClear w s
  | .loomDeliveryRetry g => Sys2Proof.Machine.execLoomDeliveryRetry g s
  | .chkCompare w u => Sys2Proof.Machine.execChkCompare w u s
  | .chkReset w u => Sys2Proof.Machine.execChkReset w u s
  | .chkCtlWrite w u v => Sys2Proof.Machine.execChkCtlWrite w u v s
  | .evrSample x => Sys2Proof.Machine.execEvrSample x s
  | .evrCheckpoint bad => Sys2Proof.Machine.execEvrCheckpoint bad s
  | .evrPeriodEnd bad => Sys2Proof.Machine.execEvrPeriodEnd bad s
  | .evrCursorWrite w v => Sys2Proof.Machine.execEvrCursorWrite w v s
  | .railFault r mv => Sys2Proof.Machine.execRailFault r mv s
  | .inputUndervoltage v => Sys2Proof.Machine.execInputUndervoltage v s
  | .inputOvervoltage v => Sys2Proof.Machine.execInputOvervoltage v s
  | .inputBrownout v => Sys2Proof.Machine.execInputBrownout v s
  | .inputOverlimit v => Sys2Proof.Machine.execInputOverlimit v s
  | .inputRecover v => Sys2Proof.Machine.execInputRecover v s
  | .powerLoop watts die q => Sys2Proof.Machine.execPowerLoop watts die q s
  | .limiterEngage mean => Sys2Proof.Machine.execLimiterEngage mean s
  | .limiterRelease mean => Sys2Proof.Machine.execLimiterRelease mean s
  | .thermalTrip die q x temp => Sys2Proof.Machine.execThermalTrip die q x temp s
  | .thermalTripLift die q x temp => Sys2Proof.Machine.execThermalTripLift die q x temp s
  | .lockLoss d => Sys2Proof.Machine.execLockLoss d s
  | .referenceLoss => Sys2Proof.Machine.execReferenceLoss s
  | .holdoverEnd => Sys2Proof.Machine.execHoldoverEnd s
  | .freewheelEntry q => Sys2Proof.Machine.execFreewheelEntry q s
  | .deepIdleEntry => Sys2Proof.Machine.execDeepIdleEntry s
  | .deepCmd w => Sys2Proof.Machine.execDeepCmd w s
  | .deepCancel w => Sys2Proof.Machine.execDeepCancel w s
  | .heartbeat w => Sys2Proof.Machine.execHeartbeat w s
  | .heartbeatMiss => Sys2Proof.Machine.execHeartbeatMiss s
  | .coreFault c => Sys2Proof.Machine.execCoreFault c s
  | .overlapClose => Sys2Proof.Machine.execOverlapClose s
  | .coreRestartEnd c ok => Sys2Proof.Machine.execCoreRestartEnd c ok s
  | .noCaptainHoldEnd => Sys2Proof.Machine.execNoCaptainHoldEnd s
  | .handover w => Sys2Proof.Machine.execHandover w s
  | .leaseOn w => Sys2Proof.Machine.execLeaseOn w s
  | .leaseOff w => Sys2Proof.Machine.execLeaseOff w s
  | .leaseAcq w => Sys2Proof.Machine.execLeaseAcq w s
  | .leaseExpiry => Sys2Proof.Machine.execLeaseExpiry s
  | .action w c v => Sys2Proof.Machine.execAction w c v s
  | .sidebandWrite off v pec => Sys2Proof.Machine.execSidebandWrite off v pec s
  | .sidebandRead off pec => Sys2Proof.Machine.execSidebandRead off pec s
  | .sidebandStatus pec => Sys2Proof.Machine.execSidebandStatus pec s
  | .tamper => Sys2Proof.Machine.execTamper s
  | .powerOnReset straps torn => Sys2Proof.Machine.execPowerOnReset straps torn s
  | .packageReset => Sys2Proof.Machine.execPackageReset s
  | .imageLoad w img => Sys2Proof.Machine.execImageLoad w img s
  | .imagePollRetry => Sys2Proof.Machine.execImagePollRetry s
  | .waitImageSleep => Sys2Proof.Machine.execWaitImageSleep s
  | .warmResetCmd w confirm => Sys2Proof.Machine.execWarmResetCmd w confirm s
  | .quarterResetCmd w q confirm => Sys2Proof.Machine.execQuarterResetCmd w q confirm s
  | .packageResetCmd w confirm => Sys2Proof.Machine.execPackageResetCmd w confirm s
  | .warmStart kept => Sys2Proof.Machine.execWarmStart kept s
  | .quarterReturn q r => Sys2Proof.Machine.execQuarterReturn q r s
  | .selfRefreshEntryEnd x => Sys2Proof.Machine.execSelfRefreshEntryEnd x s
  | .bridgeRetrain b => Sys2Proof.Machine.execBridgeRetrain b s
  | .checkerSelfTestEnd x first => Sys2Proof.Machine.execCheckerSelfTestEnd x first s
  | .zeroFillEnd x => Sys2Proof.Machine.execZeroFillEnd x s
  | .firmwareVerificationEnd c => Sys2Proof.Machine.execFirmwareVerificationEnd c s
  | .heartbeatMissedOnce => Sys2Proof.Machine.execHeartbeatMissedOnce s
  | .inputRestart => Sys2Proof.Machine.execInputRestart s
  | .porstNAssert => Sys2Proof.Machine.execPorstNAssert s
  | .tamperNRelease => Sys2Proof.Machine.execTamperNRelease s
  | .alertResponse => Sys2Proof.Machine.execAlertResponse s
  | .tapInstruction t => Sys2Proof.Machine.execTapInstruction t s

end Sys2Proof.Machine
end

