-- ==== Sys2Proof/Machine/Cycle.lean ====
section
/-!
DEFINITION. The end of a cycle: what the commands of one nanosecond brought to the directory slices, the version units and the fault tables is
taken in the order that the races of the spec give (R56, R77, R78, R88, R105, R251; log 144).
-/
namespace Sys2Proof.Machine
open Sys2Proof

/-- Tells who asked for an abort how it went (R75, R224). -/
def State.abortAnswer (s : State) (a : Aborter) (won : Bool) : State :=
  match a with
  | .port p k c =>
    let o : Outcome16 := ⟨k.tagN, k.chN, false, if won then .ok else .alreadyComplete, .ok, false, 0, 0⟩
    s.sendReply p (some c) false { o.packet k with epoch := s.epoch }
  | .ticket key n serial =>
    if (smGet {} (s.stn key).tickets n).op = some serial then
      s.updStn key (fun t => { t with tickets := smSet {} t.tickets n { status := if won then .ok else .alreadyComplete } })
    else s

/-- Decides one thing that waited for the end of the cycle. -/
def State.lateNow (s : State) : Late → State
  | .lease r n => if s.leaseOver r n then s.endOpens r n else s
  | .timeout q e => s.timeoutNow q e
  | .abort c tag a => let x := s.abort c tag; x.2.abortAnswer a x.1
  | .replay p => if s.replayDue p then s.replayNow p else s
  | .token => if s.leaseEnds then s.loseLease else s

/-- Leases of versions before timeouts before aborts; replays of a link and the lease of the tandem meet none of them. -/
def Late.rank : Late → Nat
  | .lease .. => 0
  | .timeout .. => 1
  | .abort .. => 2
  | .replay .. => 2
  | .token => 2

/-- The end of a cycle: the slices take the requests that arrived, the version units their operations, then leases, fault timeouts and aborts are
decided, and every channel goes on; joint calls end. -/
def State.cycleEnd (s : State) : State :=
  let s := s.takeArrived.openWaiting.runUnits.settle.endJoint
  let ls := s.ord.late
  if ls.isEmpty then s
  else
    let s := s.setOrd { s.ord with late := [] }
    ((List.range 3).foldl (fun s n => (ls.filter (fun x => x.rank == n)).foldl (fun s x => s.lateNow x) s) s).settle

end Sys2Proof.Machine
end

