-- ==== Sys2Proof/Machine/Tick.lean ====
section
/-!
DEFINITION. The passing of time: what the block does while no command waits (log 1). The cycle ends (log 144) and one nanosecond passes; a following clock
slews at 100 ppm (R300); a call or reset whose stations have drained ends (R238, R247); the timers of snoops and broadcasts stand still while their port retrains or sleeps (R102, R112); the
device notes which peers have a route (R112); resets that are prepared take their quarters (R407), start-up goes on (R401), and a command that
waits for deep idle enters it (R386).
-/
namespace Sys2Proof.Machine
open Sys2Proof

/-- A port whose link is kept but whose packets wait (R112). -/
def State.portPaused (s : State) (p : Nat) : Bool :=
  let st := s.portState p
  st == stRetrain || st == stSleep || st == stWaking

/-- The port by which an endpoint is reached by the active version, if it is one. -/
def State.routePort (s : State) (ep : Nat) : Option Nat := (s.lookup s.epoch.toNat ep).filter (· < 14)

/-- The port that carries the snoops of an agent (Table 4-11). -/
def State.agentPort (s : State) (a : Nat) : Option Nat :=
  if s.agentLocal a then some (s.fld F.COH_AGENT_PORT 0 a) else s.routePort (s.fld F.COH_AGENT_EP 0 a)

/-- The port that carries a broadcast to peer slot `n`. -/
def State.peerPort (s : State) (n : Nat) : Option Nat := s.routePort (s.fld F.COH_PEER_EP_EP 0 n)

def State.pausedAt (s : State) (p : Option Nat) : Bool :=
  match p with
  | some p => s.portPaused p
  | none => false

/-- Slews network time by 1 ns every 10,000 ns (R300: at most 100 ppm). -/
def State.slewTick (s : State) : State :=
  if s.now % 10000 = 0 ∧ s.time.slew ≠ 0 then
    let d : Int := if 0 < s.time.slew then 1 else -1
    { s with time := { s.time with off := s.time.off + d, slew := s.time.slew - d } }
  else s

/-- A message for a line that names agent or broadcaster `i`, to endpoint `ep`, waits for a flip to drain (R295). -/
def State.cohHeld (s : State) (lid : BitVec 64) (ep i : Nat) : Bool :=
  s.hub.heldCoh.any (fun x => x.2.2.addr == lid && x.2.2.dstN == ep && x.2.2.agent == i)

/-- Ages of snoops that have not left or whose port is not UP, and of awaited BAcks held back by paused ports (R102, R112, R295); no pause is
stated for a stash (R106). -/
def State.holdSnoops (s : State) : State :=
  let up (p : Option Nat) : Bool := match p with | some p => s.portUp p | none => false
  let hold (lid : BitVec 64) (n : Snoop) : Snoop :=
    if !up (s.agentPort n.agent) || s.cohHeld lid (s.fld F.COH_AGENT_EP 0 n.agent) n.agent then { n with since := n.since + 1 } else n
  s.setCoh { s.coh with
    txns := s.coh.txns.map (fun (t : Txn) =>
      let lid := BitVec.ofNat 64 (s.lid t.line)
      { t with snoops := t.snoops.map (hold lid)
               backs := t.backs.map (fun b =>
                 if s.pausedAt (s.peerPort b.1) || s.hub.heldCoh.any (fun x => x.2.2.addr == lid && x.2.2.typN == 0x50 && x.2.2.dstN == s.fld F.COH_PEER_EP_EP 0 b.1)
                 then (b.1, b.2 + 1) else b) })
    peers := s.coh.peers.map (fun (b : PeerInv) => { b with snoops := b.snoops.map (hold b.lid) }) }

/-- Notes the time at which each slot was last seen with a route, or was no peer (R112). -/
def State.noteRoutes (s : State) : State :=
  s.setCoh { s.coh with routeAt := (List.range 8).foldl (fun m n =>
    if s.peers.contains n && !s.hasRoute (s.fld F.COH_PEER_EP_EP 0 n) then m else smSet 0 m n s.now) s.coh.routeAt }

/-- A column-command window of 64 cycles begins every 40 ns: the budget of a stack is what `STK_THROT.COLS` then reads, or 1 in a thermal trip (R129, R380). -/
def State.latchCols (s : State) : State :=
  if s.now % 40 ≠ 0 then s
  else (List.range 16).foldl (fun (s : State) x =>
    let n := if s.flag F.PWR_LEVEL_TRIP then 1 else s.fld F.STK_THROT_COLS x
    if (s.stk x).cols = n then s else s.setStk x { s.stk x with cols := n }) s

/-- Array cycles that the throttle held count for the context of the station, in units of 1,024 (R331). -/
def State.holdArray (s : State) (c n : Nat) : State :=
  let m := smGet 0 s.power.arrayHeld c + n
  (s.setPower { s.power with arrayHeld := smSet 0 s.power.arrayHeld c (m % 1024) }).count F.SEC_OBS_THR_KCYC (m / 1024) 0 c

/-- A window of 16 station cycles ends every 10 ns: an array with work has run DUTY of them and was held for the others; the next window takes the
duty that `STN_THROT` then reads (R193; log 154). -/
def State.throttleTick (s : State) : State :=
  if s.now % 10 ≠ 0 then s
  else
    let s := s.stns.foldl (fun (s : State) e =>
      let d := smGet 16 s.power.duty (siteQ e.1)
      if e.2.queue.isEmpty ∨ 16 ≤ d then s else s.holdArray (s.siteCtx e.1) (16 - d)) s
    s.setPower { s.power with duty := (List.range 4).foldl (fun m q => smSet 16 m q (s.fld1 F.STN_THROT_DUTY q)) s.power.duty }

/-- What time brings to the stacks: the budget of a window, training passes, code rebuilds that are due, a rebuild's pointer (R129, R135, R157, R165). -/
def State.stackTick (s : State) : State := ((s.latchCols.stks.map (·.1)).foldl State.passTick s.latchCols).codeDue.rebuildTick

/-- One nanosecond passes, once what it brought has been decided. -/
def State.tick (s : State) : State :=
  let s := s.cycleEnd
  let s := s.noteIdle
  let s := if s.intc.wet.isEmpty then s else s.setIntc { s.intc with wet := [] }
  ({ s with now := s.now + 1 } : State).slewTick.throttleTick.stackTick.holdSnoops.noteRoutes.settleLooms.prepStep.advance.deepTick

end Sys2Proof.Machine
end

