-- ==== Sys2Proof/Machine/MifelCode.lean ====
section
/-!
DEFINITION. The words of Mifel instructions: which command an instruction word is, and the word a command stands for (R203, Tables 8-2 to 8-15).
-/
namespace Sys2Proof.Machine
open Sys2Proof

/-- The command of the word at a site's pc, from its CLASS and OP (Table 8-2); `pver` is five commands by IMM20[6:4], of which 5 to 7 are no
operation and go with the last; the user trap and every word whose CLASS or OP is reserved are TRAP's (R204, R232). -/
def mifelInstr (x : SiteId) (word : BitVec 64) : Instr :=
  let w := word.extractLsb' 0 54
  match (word.extractLsb' 60 4).toNat, (word.extractLsb' 54 6).toNat with
  | 0, 0 => .add x w
  | 0, 1 => .sub x w
  | 0, 2 => .and x w
  | 0, 3 => .or x w
  | 0, 4 => .xor x w
  | 0, 5 => .shl x w
  | 0, 6 => .shr x w
  | 0, 7 => .sra x w
  | 0, 8 => .mul x w
  | 0, 9 => .mulhu x w
  | 0, 10 => .min x w
  | 0, 11 => .max x w
  | 0, 12 => .minu x w
  | 0, 13 => .maxu x w
  | 0, 16 => .addi x w
  | 0, 17 => .andi x w
  | 0, 18 => .ori x w
  | 0, 19 => .xori x w
  | 0, 20 => .shli x w
  | 0, 21 => .shri x w
  | 0, 22 => .srai x w
  | 0, 23 => .movi x w
  | 0, 24 => .movhi x w
  | 0, 32 => .cmp x w
  | 0, 33 => .cmpi x w
  | 0, 40 => .pand x w
  | 0, 41 => .por x w
  | 0, 42 => .pxor x w
  | 0, 43 => .pnot x w
  | 0, 44 => .movPs x w
  | 0, 45 => .movSp x w
  | 1, 0 => .br x w
  | 1, 1 => .jal x w
  | 1, 2 => .jr x w
  | 2, 0 => .lds x w
  | 2, 1 => .ldw x w
  | 2, 2 => .sts x w
  | 2, 3 => .stw x w
  | 2, 4 => .ldv x w
  | 2, 5 => .stv x w
  | 2, 6 => .ldvH x w
  | 2, 7 => .stvH x w
  | 3, 0 => .vadd x w
  | 3, 1 => .vsub x w
  | 3, 2 => .vmul x w
  | 3, 3 => .vfma x w
  | 3, 4 => .vmax x w
  | 3, 5 => .vmin x w
  | 3, 6 => .vabs x w
  | 3, 7 => .vneg x w
  | 3, 8 => .vrcp x w
  | 3, 9 => .vrsqrt x w
  | 3, 10 => .vexp2 x w
  | 3, 11 => .vcmp x w
  | 3, 12 => .vsel x w
  | 3, 13 => .vbcast x w
  | 3, 14 => .vext x w
  | 3, 15 => .vlane x w
  | 3, 16 => .vredsum x w
  | 3, 17 => .vredmax x w
  | 3, 18 => .vand x w
  | 3, 19 => .vor x w
  | 3, 20 => .vxor x w
  | 3, 21 => .vshl x w
  | 3, 22 => .vshr x w
  | 3, 23 => .vcvt x w
  | 4, 0 => .mma x w
  | 4, 1 => .mmaz x w
  | 4, 2 => .acczero x w
  | 4, 3 => .accst x w
  | 4, 4 => .vacc x w
  | 4, 5 => .vaccw x w
  | 5, 0 => .wsend x w
  | 5, 1 => .wrecv x w
  | 5, 2 => .wsendS x w
  | 5, 3 => .wrecvS x w
  | 6, 0 => .pget x w
  | 6, 1 => .pput x w
  | 6, 2 => .pgetV x w
  | 6, 3 => .pputV x w
  | 6, 4 =>
    match (word.extractLsb' 4 3).toNat with
    | 0 => .pverOpen x w
    | 1 => .pverClose x w
    | 2 => .pverBegin x w
    | 3 => .pverPublish x w
    | _ => .pverDiscard x w
  | 6, 5 => .pabort x w
  | 6, 6 => .phint x w
  | 6, 8 => .cvtHdl x w
  | 6, 9 => .cvtHva x w
  | 7, 0 => .nop x w
  | 7, 1 => .pwait x w
  | 7, 2 => .pwaitCh x w
  | 7, 3 => .pres x w
  | 7, 4 => .pinfo x w
  | 7, 5 => .wait x w
  | 7, 6 => .beat x w
  | 7, 7 => .cmpl x w
  | 7, 8 => .halt x w
  | 7, 9 => .sysr x w
  | 8, 0 => .osmInit x w
  | 8, 1 => .osmUpd x w
  | 8, 2 => .osmScale x w
  | 8, 3 => .osmFin x w
  | 8, 4 => .tmask x w
  | 8, 5 => .vtopk x w
  | 8, 6 => .sample x w
  | 8, 7 => .rng x w
  | 8, 8 => .rngs x w
  | _, _ => .trap x word

/-- The site and the word of a Mifel command; none for the commands of the other units. -/
def mifelCode : Instr → Option (SiteId × BitVec 64)
  | .add x w => some (x, mifelWord 0 0 w)
  | .sub x w => some (x, mifelWord 0 1 w)
  | .and x w => some (x, mifelWord 0 2 w)
  | .or x w => some (x, mifelWord 0 3 w)
  | .xor x w => some (x, mifelWord 0 4 w)
  | .shl x w => some (x, mifelWord 0 5 w)
  | .shr x w => some (x, mifelWord 0 6 w)
  | .sra x w => some (x, mifelWord 0 7 w)
  | .mul x w => some (x, mifelWord 0 8 w)
  | .mulhu x w => some (x, mifelWord 0 9 w)
  | .min x w => some (x, mifelWord 0 10 w)
  | .max x w => some (x, mifelWord 0 11 w)
  | .minu x w => some (x, mifelWord 0 12 w)
  | .maxu x w => some (x, mifelWord 0 13 w)
  | .addi x w => some (x, mifelWord 0 16 w)
  | .andi x w => some (x, mifelWord 0 17 w)
  | .ori x w => some (x, mifelWord 0 18 w)
  | .xori x w => some (x, mifelWord 0 19 w)
  | .shli x w => some (x, mifelWord 0 20 w)
  | .shri x w => some (x, mifelWord 0 21 w)
  | .srai x w => some (x, mifelWord 0 22 w)
  | .movi x w => some (x, mifelWord 0 23 w)
  | .movhi x w => some (x, mifelWord 0 24 w)
  | .cmp x w => some (x, mifelWord 0 32 w)
  | .cmpi x w => some (x, mifelWord 0 33 w)
  | .pand x w => some (x, mifelWord 0 40 w)
  | .por x w => some (x, mifelWord 0 41 w)
  | .pxor x w => some (x, mifelWord 0 42 w)
  | .pnot x w => some (x, mifelWord 0 43 w)
  | .movPs x w => some (x, mifelWord 0 44 w)
  | .movSp x w => some (x, mifelWord 0 45 w)
  | .br x w => some (x, mifelWord 1 0 w)
  | .jal x w => some (x, mifelWord 1 1 w)
  | .jr x w => some (x, mifelWord 1 2 w)
  | .lds x w => some (x, mifelWord 2 0 w)
  | .ldw x w => some (x, mifelWord 2 1 w)
  | .sts x w => some (x, mifelWord 2 2 w)
  | .stw x w => some (x, mifelWord 2 3 w)
  | .ldv x w => some (x, mifelWord 2 4 w)
  | .stv x w => some (x, mifelWord 2 5 w)
  | .ldvH x w => some (x, mifelWord 2 6 w)
  | .stvH x w => some (x, mifelWord 2 7 w)
  | .vadd x w => some (x, mifelWord 3 0 w)
  | .vsub x w => some (x, mifelWord 3 1 w)
  | .vmul x w => some (x, mifelWord 3 2 w)
  | .vfma x w => some (x, mifelWord 3 3 w)
  | .vmax x w => some (x, mifelWord 3 4 w)
  | .vmin x w => some (x, mifelWord 3 5 w)
  | .vabs x w => some (x, mifelWord 3 6 w)
  | .vneg x w => some (x, mifelWord 3 7 w)
  | .vrcp x w => some (x, mifelWord 3 8 w)
  | .vrsqrt x w => some (x, mifelWord 3 9 w)
  | .vexp2 x w => some (x, mifelWord 3 10 w)
  | .vcmp x w => some (x, mifelWord 3 11 w)
  | .vsel x w => some (x, mifelWord 3 12 w)
  | .vbcast x w => some (x, mifelWord 3 13 w)
  | .vext x w => some (x, mifelWord 3 14 w)
  | .vlane x w => some (x, mifelWord 3 15 w)
  | .vredsum x w => some (x, mifelWord 3 16 w)
  | .vredmax x w => some (x, mifelWord 3 17 w)
  | .vand x w => some (x, mifelWord 3 18 w)
  | .vor x w => some (x, mifelWord 3 19 w)
  | .vxor x w => some (x, mifelWord 3 20 w)
  | .vshl x w => some (x, mifelWord 3 21 w)
  | .vshr x w => some (x, mifelWord 3 22 w)
  | .vcvt x w => some (x, mifelWord 3 23 w)
  | .mma x w => some (x, mifelWord 4 0 w)
  | .mmaz x w => some (x, mifelWord 4 1 w)
  | .acczero x w => some (x, mifelWord 4 2 w)
  | .accst x w => some (x, mifelWord 4 3 w)
  | .vacc x w => some (x, mifelWord 4 4 w)
  | .vaccw x w => some (x, mifelWord 4 5 w)
  | .wsend x w => some (x, mifelWord 5 0 w)
  | .wrecv x w => some (x, mifelWord 5 1 w)
  | .wsendS x w => some (x, mifelWord 5 2 w)
  | .wrecvS x w => some (x, mifelWord 5 3 w)
  | .pget x w => some (x, mifelWord 6 0 w)
  | .pput x w => some (x, mifelWord 6 1 w)
  | .pgetV x w => some (x, mifelWord 6 2 w)
  | .pputV x w => some (x, mifelWord 6 3 w)
  | .pverOpen x w => some (x, mifelWord 6 4 w)
  | .pverClose x w => some (x, mifelWord 6 4 w)
  | .pverBegin x w => some (x, mifelWord 6 4 w)
  | .pverPublish x w => some (x, mifelWord 6 4 w)
  | .pverDiscard x w => some (x, mifelWord 6 4 w)
  | .pabort x w => some (x, mifelWord 6 5 w)
  | .phint x w => some (x, mifelWord 6 6 w)
  | .cvtHdl x w => some (x, mifelWord 6 8 w)
  | .cvtHva x w => some (x, mifelWord 6 9 w)
  | .nop x w => some (x, mifelWord 7 0 w)
  | .pwait x w => some (x, mifelWord 7 1 w)
  | .pwaitCh x w => some (x, mifelWord 7 2 w)
  | .pres x w => some (x, mifelWord 7 3 w)
  | .pinfo x w => some (x, mifelWord 7 4 w)
  | .wait x w => some (x, mifelWord 7 5 w)
  | .beat x w => some (x, mifelWord 7 6 w)
  | .cmpl x w => some (x, mifelWord 7 7 w)
  | .halt x w => some (x, mifelWord 7 8 w)
  | .sysr x w => some (x, mifelWord 7 9 w)
  | .osmInit x w => some (x, mifelWord 8 0 w)
  | .osmUpd x w => some (x, mifelWord 8 1 w)
  | .osmScale x w => some (x, mifelWord 8 2 w)
  | .osmFin x w => some (x, mifelWord 8 3 w)
  | .tmask x w => some (x, mifelWord 8 4 w)
  | .vtopk x w => some (x, mifelWord 8 5 w)
  | .sample x w => some (x, mifelWord 8 6 w)
  | .rng x w => some (x, mifelWord 8 7 w)
  | .rngs x w => some (x, mifelWord 8 8 w)
  | .trap x word => some (x, word)
  | _ => none

/-- A command is the one its word stands for: a `pver` command names its own operation, TRAP no word of another command. -/
def mifelOwn (i : Instr) : Bool :=
  match i with
  | .pverOpen _ w => (w.extractLsb' 4 3).toNat == 0
  | .pverClose _ w => (w.extractLsb' 4 3).toNat == 1
  | .pverBegin _ w => (w.extractLsb' 4 3).toNat == 2
  | .pverPublish _ w => (w.extractLsb' 4 3).toNat == 3
  | .pverDiscard _ w => 4 ≤ (w.extractLsb' 4 3).toNat
  | .trap _ word =>
    let c := (word.extractLsb' 60 4).toNat
    !opExists c (word.extractLsb' 54 6).toNat || c == 9
  | _ => true

end Sys2Proof.Machine
end

