-- ==== Sys2Proof/Safety.lean ====
section
/-!
DEFINITION. The terms the statements use: which parts of the state two states share, what a station's instruction leaves in its machine state,
when an instruction issues, and when a register access is let through.
-/
namespace Sys2Proof.Machine
open Sys2Proof

/-! ### Registers -/

/-- Every configuration register but those at the offsets `l` holds the same value. -/
def State.regsBut (s t : State) (l : List Nat) : Prop := ∀ d a, a ∉ l → smGet d t.regs a = smGet d s.regs a

/-- `t` is `s` after a plain store of `v` in a register: its RW and RWS fields hold what `v` has there, its other fields and every other
register are kept, and the access answered OK (R4). -/
def State.stored (s t : State) (r : RegName) (inst i j v : Nat) : Prop :=
  t = { s with regs := t.regs, rsp := (.ok, 0) } ∧
  (∀ f a, (f, a) ∈ r.fields → t.fld f inst i j = if accRW a = true then f.of v else s.fld f inst i j) ∧ s.regsBut t [r.addr inst i j]

/-- A write by `w` of a register of block `r`, instance `inst`, is let through: the device is not held in reset, the block's quarter is not
under reset, and the writer may write. The device is taken as the access has woken it (R31, R311, R388, R391). -/
def State.admits (s : State) (w : Writer) (r : RegName) (inst : Nat) : Prop :=
  (s.wakeFor w).heldReset = false ∧ (s.wakeFor w).blockOpen r inst = true ∧ (s.wakeFor w).barred w = false

/-! ### Stations -/

/-- Only station `k`'s own state differs. -/
def State.onlyStn (s t : State) (k : Nat) : Prop := t = { s with stns := t.stns } ∧ ∀ j, j ≠ k → t.stn j = s.stn j

/-- The pc has moved to the next instruction, and nothing else of the station but what `f` sets again from the station after. -/
def Stn.movedOn (t u : Stn) (f : Stn → Stn) : Prop := u = f { t with pc := t.pc + 1, blocked := false }

/-- Scalar register `d` holds `v` (s0 stays 0); every other register and the rest of the station are kept, and the pc moves on. -/
def Stn.wroteS (t u : Stn) (d : Nat) (v : BitVec 64) : Prop :=
  t.movedOn u (fun x => { x with s := u.s }) ∧ ∀ n, u.sreg n = if n = d ∧ n ≠ 0 then v else t.sreg n

/-- Predicate `d` holds `v` (p0 stays all ones); the rest is kept, and the pc moves on. -/
def Stn.wroteP (t u : Stn) (d : Nat) (v : BitVec 64) : Prop :=
  t.movedOn u (fun x => { x with p := u.p }) ∧ ∀ n, u.preg n = if n = d ∧ n ≠ 0 then v else t.preg n

/-- The lanes of v`d` that `g` lets through hold `f`; every other lane and the rest are kept, and the pc moves on. -/
def Stn.wroteV (t u : Stn) (d : Nat) (g : BitVec 64) (f : Nat → BitVec 32) : Prop :=
  t.movedOn u (fun x => { x with v := u.v }) ∧
    ∀ r k, k < 64 → u.lane r k = if r = d ∧ g.getLsbD k = true then f k else t.lane r k

/-- The elements of acc`d` that `p` names hold `f`, a subnormal as the zero of its sign (R190); every other element and the rest are kept, and the pc moves on. -/
def Stn.wroteAcc (t u : Stn) (d : Nat) (p : Nat → Bool) (f : Nat → Nat → BitVec 32) : Prop :=
  t.movedOn u (fun x => { x with acc := u.acc }) ∧
    ∀ a i j, i < 16 → j < 64 → u.cell a i j = if a = d ∧ p i = true then flushCell (f i j) else t.cell a i j

/-- A byte of the local store. -/
def Stn.lsByte (t : Stn) (b : Nat) : BitVec 8 := smGet 0 t.ls b

/-- The local store holds `bs` at the bytes from `a` that `p` lets through; every other byte and the rest are kept, and the pc moves on. -/
def Stn.wroteLs (t u : Stn) (a : Nat) (bs : List (BitVec 8)) (p : Nat → Bool) : Prop :=
  t.movedOn u (fun x => { x with ls := u.ls, written := u.written }) ∧
    ∀ b, u.lsByte b = if a ≤ b ∧ b < a + bs.length ∧ p (b - a) = true then bs.getD (b - a) 0 else t.lsByte b

/-- The word at the pc of the site is issued and acts: it is legal, its guard lets it act, and no register it uses is awaited (R203 to R206). -/
def State.ready (s : State) (x : SiteId) (word : BitVec 64) (h : Shape) : Bool :=
  let t := s.stn (siteKey x)
  s.canIssue (siteKey x) word && !h.illegal (insnOf word) && (h.lanes || (t.guard (insnOf word)).getLsbD 0) && !t.awaits (h.scalars (insnOf word))

/-- How the command `c` of the word at a site's pc issues. A word that is not at the pc, or whose station cannot issue, does nothing; an illegal
one traps with cause 1; one whose scalar guard is 0 only moves the pc; one that uses a register a receive is to write waits; one that
acts leaves a next state of which `p` holds. -/
def State.issues (s : State) (c : Instr) (x : SiteId) (word : BitVec 64) (h : Shape) (bad : Bool) (p : State → Prop) : Prop :=
  let k := siteKey x
  let t := s.stn k
  (s.canIssue k word = false → exec c s = .next s) ∧
  (s.canIssue k word = true → h.illegal (insnOf word) || bad → exec c s = .next (s.trapStn k 1 0 0 0 word t.pc)) ∧
  (s.canIssue k word = true → (h.illegal (insnOf word) || bad) = false → h.lanes = false → (t.guard (insnOf word)).getLsbD 0 = false →
    ∃ u, exec c s = .next u ∧ s.onlyStn u k ∧ t.movedOn (u.stn k) id) ∧
  (s.canIssue k word = true → (h.illegal (insnOf word) || bad) = false → h.lanes || (t.guard (insnOf word)).getLsbD 0 →
    t.awaits (h.scalars (insnOf word)) = true → exec c s = .next (s.blockStn k)) ∧
  (s.ready x word h = true → bad = false → ∃ u, exec c s = .next u ∧ p u)

/-- The instruction acts on its own station alone, which afterwards stands to the station before as `q` says. -/
def State.issuesReg (s : State) (c : Instr) (x : SiteId) (word : BitVec 64) (h : Shape) (bad : Bool) (q : Stn → Insn → Stn → Prop) : Prop :=
  s.issues c x word h bad (fun u => s.onlyStn u (siteKey x) ∧ q (s.stn (siteKey x)) (insnOf word) (u.stn (siteKey x)))

/-! ### Links -/

/-- Every port but `p` keeps its link. -/
def State.linksBut (s t : State) (p : Nat) : Prop := ∀ j, j ≠ p → t.link j = s.link j

/-- An interrupt source of a quarter that is not under reset becomes pending, and no other pending bit changes (R352). -/
def State.raised (s t : State) (n : Nat) : Prop :=
  t.intc = { s.intc with pend := s.intc.pend ||| BitVec.ofNat 1024 (2 ^ n), wet := t.intc.wet } ∧
    (smGet 0 t.intc.wet (RegName.INTC_SRC_PEND.addr 0 (n / 64) 0)).testBit (n % 64) = true

/-- Port `p` has left UP for a retrain with a cause: STATE, RT_CAUSE and the RETRAIN count, the start of the retrain, the interrupt; its SEQ
state, replay buffer and credits are kept (R279). -/
def State.retrained (s t : State) (p cause : Nat) : Prop :=
  t.portState p = 4 ∧ t.fld F.PORT_LNK_STAT_RT_CAUSE p = cause ∧
  t.fld F.PORT_CNT_RETRAIN p = min (s.fld F.PORT_CNT_RETRAIN p + 1) (2 ^ F.PORT_CNT_RETRAIN.width - 1) ∧
  t.link p = { s.link p with retrainAt := s.now, capSeen := none, replays := 0, sleepReq := false } ∧ s.linksBut t p ∧ s.raised t (0x141 + 8 * p) ∧
  t = { s with regs := t.regs, links := t.links, intc := t.intc, evr := t.evr } ∧
  s.regsBut t [RegName.PORT_LNK_STAT.addr p 0 0, RegName.PORT_CNT.addr p 0 0]

end Sys2Proof.Machine
end

