-- ==== Sys2Proof/Certificates/Slice0/Obligations.lean ====
section
/-!
DEFINITION. The statements about the model, each an `Obligations.<Name>`: what every command does to the state, what it leaves alone, and
what holds of the whole block.
-/
open Sys2Proof Sys2Proof.Machine

/-- Every Mifel word is one command and every Mifel command one word, laid out in the fields of Table 8-2 (R203, R204, R232). -/
def Obligations.MifelWordsAndCommandsAgree : Prop :=
  (∀ (x : SiteId) (word : BitVec 64), mifelCode (mifelInstr x word) = some (x, word) ∧ mifelOwn (mifelInstr x word) = true) ∧
  (∀ (c : Instr) (x : SiteId) (word : BitVec 64), mifelCode c = some (x, word) → mifelOwn c = true → mifelInstr x word = c) ∧
  (∀ word : BitVec 64, insnWord (insnOf word) = word) ∧
  (∀ x : SiteId, mifelInstr x 0x4041BC0059700002#64 = .mmaz x (BitVec.ofNat 54 0x1BC0059700002)) ∧
  (insnOf 0x4041BC0059700002#64 = { cls := 4, op := 1, pn := 0, pg := 0, mod := 0x1B, rd := 48, ra := 0, rb := 22, rc := 23, imm := 2 }) ∧
  ∀ (x : SiteId) (w : BitVec 54),
    mifelInstr x (0x0#4 ++ 0x00#6 ++ w) = .add x w ∧ mifelInstr x (0x1#4 ++ 0x00#6 ++ w) = .br x w ∧
    mifelInstr x (0x2#4 ++ 0x04#6 ++ w) = .ldv x w ∧ mifelInstr x (0x3#4 ++ 0x03#6 ++ w) = .vfma x w ∧
    mifelInstr x (0x5#4 ++ 0x00#6 ++ w) = .wsend x w ∧ mifelInstr x (0x6#4 ++ 0x00#6 ++ w) = .pget x w ∧
    mifelInstr x (0x7#4 ++ 0x01#6 ++ w) = .pwait x w ∧ mifelInstr x (0x8#4 ++ 0x07#6 ++ w) = .rng x w

/-- A Mifel command whose word is not the one its station can issue changes nothing (R206, R201). -/
def Obligations.MifelOnlyTheWordAtThePcActs : Prop :=
  ∀ (c : Instr) (x : SiteId) (word : BitVec 64) (s : State),
    mifelCode c = some (x, word) → s.canIssue (siteKey x) word = false → exec c s = .next s

/-- The fourteen three-register scalar instructions write A op B into D and touch nothing else (R202, R204, R205, R208). -/
def Obligations.ScalarRegisterInstructions : Prop :=
  ∀ e ∈ ([(.add, 0x00, fun a b => a + b), (.sub, 0x01, fun a b => a - b), (.and, 0x02, fun a b => a &&& b), (.or, 0x03, fun a b => a ||| b),
      (.xor, 0x04, fun a b => a ^^^ b), (.shl, 0x05, fun a b => a <<< (b.toNat % 64)), (.shr, 0x06, fun a b => a >>> (b.toNat % 64)),
      (.sra, 0x07, fun a b => a.sshiftRight (b.toNat % 64)), (.mul, 0x08, fun a b => BitVec.ofNat 64 (a.toNat * b.toNat)),
      (.mulhu, 0x09, fun a b => BitVec.ofNat 64 (a.toNat * b.toNat / 2 ^ 64)), (.min, 0x0A, fun a b => if a.toInt ≤ b.toInt then a else b),
      (.max, 0x0B, fun a b => if a.toInt ≤ b.toInt then b else a), (.minu, 0x0C, fun a b => if a.toNat ≤ b.toNat then a else b),
      (.maxu, 0x0D, fun a b => if a.toNat ≤ b.toNat then b else a)] :
      List ((SiteId → BitVec 54 → Instr) × BitVec 6 × (BitVec 64 → BitVec 64 → BitVec 64))),
  ∀ (x : SiteId) (w : BitVec 54) (s : State),
    s.issuesReg (e.1 x w) x (mifelWord 0 e.2.1 w) { rd := some .s, ra := some .s, rb := some .s, formT := true } false
      (fun t i u => t.wroteS u i.rd.toNat (e.2.2 (t.sreg i.ra.toNat) (t.sreg i.rb.toNat)))

/-- The scalar immediate instructions, movi, movhi and mov.sp write D and touch nothing else (R203, R204, R205, R208). -/
def Obligations.ScalarImmediateInstructions : Prop :=
  (∀ e ∈ ([(.addi, 0x10, fun a m => a + m), (.andi, 0x11, fun a m => a &&& m), (.ori, 0x12, fun a m => a ||| m), (.xori, 0x13, fun a m => a ^^^ m),
      (.shli, 0x14, fun a m => a <<< (m.toNat % 64)), (.shri, 0x15, fun a m => a >>> (m.toNat % 64)),
      (.srai, 0x16, fun a m => a.sshiftRight (m.toNat % 64))] :
      List ((SiteId → BitVec 54 → Instr) × BitVec 6 × (BitVec 64 → BitVec 64 → BitVec 64))),
    ∀ (x : SiteId) (w : BitVec 54) (s : State),
      s.issuesReg (e.1 x w) x (mifelWord 0 e.2.1 w) { rd := some .s, ra := some .s, formI := true } false
        (fun t i u => t.wroteS u i.rd.toNat (e.2.2 (t.sreg i.ra.toNat) ((w.extractLsb' 0 32).signExtend 64)))) ∧
  ∀ (x : SiteId) (w : BitVec 54) (s : State),
    s.issuesReg (.movi x w) x (mifelWord 0 0x17 w) { rd := some .s, formI := true } false
      (fun t i u => t.wroteS u i.rd.toNat ((w.extractLsb' 0 32).signExtend 64)) ∧
    s.issuesReg (.movhi x w) x (mifelWord 0 0x18 w) { rd := some .s, formI := true } false
      (fun t i u => t.wroteS u i.rd.toNat (w.extractLsb' 0 32 ++ (t.sreg i.rd.toNat).extractLsb' 0 32)) ∧
    s.issuesReg (.movSp x w) x (mifelWord 0 0x2D w) { rd := some .s, ra := some .p, formT := true } false
      (fun t i u => t.wroteS u i.rd.toNat (t.preg (i.ra.toNat - 52)))

/-- Scalar comparisons and predicate instructions write one predicate and touch nothing else (R202, R204, R205, R208). -/
def Obligations.PredicateInstructions : Prop :=
  let cc (n : Nat) (a b : BitVec 64) : BitVec 64 :=
    if [decide (a = b), decide (a ≠ b), decide (a.toInt < b.toInt), decide (a.toNat < b.toNat), decide (a.toInt ≤ b.toInt),
        decide (a.toNat ≤ b.toNat)].getD n false then BitVec.allOnes 64 else 0
  (∀ e ∈ ([(.pand, 0x28, fun a b => a &&& b), (.por, 0x29, fun a b => a ||| b), (.pxor, 0x2A, fun a b => a ^^^ b)] :
      List ((SiteId → BitVec 54 → Instr) × BitVec 6 × (BitVec 64 → BitVec 64 → BitVec 64))),
    ∀ (x : SiteId) (w : BitVec 54) (s : State),
      s.issuesReg (e.1 x w) x (mifelWord 0 e.2.1 w) { rd := some .p, ra := some .p, rb := some .p, formT := true } false
        (fun t i u => t.wroteP u (i.rd.toNat - 52) (e.2.2 (t.preg (i.ra.toNat - 52)) (t.preg (i.rb.toNat - 52))))) ∧
  ∀ (x : SiteId) (w : BitVec 54) (s : State),
    s.issuesReg (.pnot x w) x (mifelWord 0 0x2B w) { rd := some .p, ra := some .p, formT := true } false
      (fun t i u => t.wroteP u (i.rd.toNat - 52) (~~~ t.preg (i.ra.toNat - 52))) ∧
    s.issuesReg (.movPs x w) x (mifelWord 0 0x2C w) { rd := some .p, ra := some .s, formT := true } false
      (fun t i u => t.wroteP u (i.rd.toNat - 52) (t.sreg i.ra.toNat)) ∧
    s.issuesReg (.cmp x w) x (mifelWord 0 0x20 w) { rd := some .p, ra := some .s, rb := some .s, mods := 7, formT := true }
      (6 ≤ (insnOf (mifelWord 0 0x20 w)).modBits 0 3)
      (fun t i u => t.wroteP u (i.rd.toNat - 52) (cc (i.modBits 0 3) (t.sreg i.ra.toNat) (t.sreg i.rb.toNat))) ∧
    s.issuesReg (.cmpi x w) x (mifelWord 0 0x21 w) { rd := some .p, ra := some .s, mods := 7, formI := true } (6 ≤ (insnOf (mifelWord 0 0x21 w)).modBits 0 3)
      (fun t i u => t.wroteP u (i.rd.toNat - 52) (cc (i.modBits 0 3) (t.sreg i.ra.toNat) ((w.extractLsb' 0 32).signExtend 64)))

/-- br, jal and jr set the pc to their target, or trap with cause 6 with the pc at the branch (R205, R209). -/
def Obligations.BranchInstructions : Prop :=
  ∀ (x : SiteId) (w : BitVec 54) (s : State),
    let k := siteKey x
    let t := s.stn k
    let rel : Nat := (BitVec.ofNat 32 t.pc + w.extractLsb' 0 32).toNat
    let ra : Nat := (t.sreg (insnOf (mifelWord 1 2 w)).ra.toNat).toNat % 2 ^ 32
    let d : Nat := (insnOf (mifelWord 1 1 w)).rd.toNat
    s.issues (.br x w) x (mifelWord 1 0 w) { formI := true } false (fun u =>
      if rel < t.code.length then s.onlyStn u k ∧ u.stn k = { t with pc := rel, blocked := false }
      else u = s.trapStn k 6 rel 0 0 (mifelWord 1 0 w) t.pc) ∧
    s.issues (.jal x w) x (mifelWord 1 1 w) { rd := some .s, formI := true } false (fun u =>
      if rel < t.code.length then
        s.onlyStn u k ∧ u.stn k = { t with s := (u.stn k).s, pc := rel, blocked := false } ∧
        ∀ n, (u.stn k).sreg n = if n = d ∧ n ≠ 0 then BitVec.ofNat 64 (t.pc + 1) else t.sreg n
      else u = s.trapStn k 6 rel 0 0 (mifelWord 1 1 w) t.pc) ∧
    s.issues (.jr x w) x (mifelWord 1 2 w) { ra := some .s, formT := true } false (fun u =>
      if ra < t.code.length then s.onlyStn u k ∧ u.stn k = { t with pc := ra, blocked := false }
      else u = s.trapStn k 6 ra 0 0 (mifelWord 1 2 w) t.pc)

/-- lds, ldw, ldv and ldv.h read the bytes at s[RA] + IMM20 into their destination (R205, R207, R210). -/
def Obligations.LocalStoreLoads : Prop :=
  ∀ (x : SiteId) (w : BitVec 54) (s : State),
    let k := siteKey x
    let t := s.stn k
    let loads (c : Instr) (op : BitVec 6) (kind : RegKind) (n al : Nat) (q : Insn → Nat → Stn → Prop) : Prop :=
      let i := insnOf (mifelWord 2 op w)
      let a := (t.sreg i.ra.toNat + (w.extractLsb' 0 20).signExtend 64).toNat
      s.issues c x (mifelWord 2 op w) { rd := some kind, ra := some .s, lanes := kind == .v } false (fun u =>
        if 2097152 < a + n ∨ a % al ≠ 0 then u = s.trapStn k 2 a 0 0 (mifelWord 2 op w) t.pc
        else if t.readStalls a n = true then u = s
        else s.onlyStn u k ∧ q i a (u.stn k))
    let number (a n : Nat) : Nat := ofBytes ((List.range n).map (fun j => t.lsByte (a + j)))
    loads (.lds x w) 0 .s 8 8 (fun i a u => t.wroteS u i.rd.toNat (BitVec.ofNat 64 (number a 8))) ∧
    loads (.ldw x w) 1 .s 4 4 (fun i a u => t.wroteS u i.rd.toNat (BitVec.ofNat 64 (number a 4))) ∧
    loads (.ldv x w) 4 .v 256 64 (fun i a u =>
      t.wroteV u (i.rd.toNat - 32) (t.guard i) (fun j => BitVec.ofNat 32 (number (a + 4 * j) 4))) ∧
    loads (.ldvH x w) 6 .v 128 64 (fun i a u =>
      t.wroteV u (i.rd.toNat - 32) (t.guard i) (fun j => ofBf16 (BitVec.ofNat 16 (number (a + 2 * j) 2))))

/-- sts, stw, stv and stv.h write exactly their bytes at s[RA] + IMM20 (R205, R207, R210). -/
def Obligations.LocalStoreStores : Prop :=
  ∀ (x : SiteId) (w : BitVec 54) (s : State),
    let k := siteKey x
    let t := s.stn k
    let stores (c : Instr) (op : BitVec 6) (kind : RegKind) (n al : Nat) (bytes : Insn → List (BitVec 8)) (on : Insn → Nat → Bool) : Prop :=
      let i := insnOf (mifelWord 2 op w)
      let a := (t.sreg i.ra.toNat + (w.extractLsb' 0 20).signExtend 64).toNat
      s.issues c x (mifelWord 2 op w) { ra := some .s, rb := some kind, lanes := kind == .v } false (fun u =>
        if 2097152 < a + n ∨ a % al ≠ 0 then u = s.trapStn k 2 a 0 0 (mifelWord 2 op w) t.pc
        else if t.writeStalls a n = true then u = s
        else s.onlyStn u k ∧ (bytes i).length = n ∧ t.wroteLs (u.stn k) a (bytes i) (on i))
    let lanes (i : Insn) (n : Nat) (f : BitVec 32 → Nat) : List (BitVec 8) :=
      (List.range 64).flatMap (fun j => toBytes n (f (t.lane (i.rb.toNat - 32) j)))
    stores (.sts x w) 2 .s 8 8 (fun i => toBytes 8 (t.sreg i.rb.toNat).toNat) (fun _ _ => true) ∧
    stores (.stw x w) 3 .s 4 4 (fun i => toBytes 4 (t.sreg i.rb.toNat).toNat) (fun _ _ => true) ∧
    stores (.stv x w) 5 .v 256 64 (fun i => lanes i 4 (fun v => v.toNat)) (fun i b => (t.guard i).getLsbD (b / 4)) ∧
    stores (.stvH x w) 7 .v 128 64 (fun i => lanes i 2 (fun v => (toBf16 false v).toNat)) (fun i b => (t.guard i).getLsbD (b / 2))

/-- The lane-wise vector instructions write the guarded lanes of D and touch nothing else (R188, R204, R205, R211, R213). -/
def Obligations.VectorLaneInstructions : Prop :=
  (∀ e ∈ ([(.vadd, 0x00, fAdd), (.vsub, 0x01, fSub), (.vmul, 0x02, fMul), (.vmax, 0x04, fMax), (.vmin, 0x05, fMin),
      (.vand, 0x12, fun a b => a &&& b), (.vor, 0x13, fun a b => a ||| b), (.vxor, 0x14, fun a b => a ^^^ b),
      (.vshl, 0x15, fun a b => a <<< (b.toNat % 32)), (.vshr, 0x16, fun a b => a >>> (b.toNat % 32))] :
      List ((SiteId → BitVec 54 → Instr) × BitVec 6 × (BitVec 32 → BitVec 32 → BitVec 32))),
    ∀ (x : SiteId) (w : BitVec 54) (s : State),
      s.issuesReg (e.1 x w) x (mifelWord 3 e.2.1 w) { rd := some .v, ra := some .v, rb := some .v, formT := true, lanes := true } false
        (fun t i u => t.wroteV u (i.rd.toNat - 32) (t.guard i)
          (fun k => e.2.2 (t.lane (i.ra.toNat - 32) k) (t.lane (i.rb.toNat - 32) k)))) ∧
  (∀ e ∈ ([(.vabs, 0x06, fun a => BitVec.ofNat 32 (a.toNat % 2 ^ 31)), (.vneg, 0x07, fun a => a ^^^ 0x80000000#32), (.vrcp, 0x08, fRcp),
      (.vrsqrt, 0x09, fRsqrt), (.vexp2, 0x0A, fExp2)] :
      List ((SiteId → BitVec 54 → Instr) × BitVec 6 × (BitVec 32 → BitVec 32))),
    ∀ (x : SiteId) (w : BitVec 54) (s : State),
      s.issuesReg (e.1 x w) x (mifelWord 3 e.2.1 w) { rd := some .v, ra := some .v, formT := true, lanes := true } false
        (fun t i u => t.wroteV u (i.rd.toNat - 32) (t.guard i) (fun k => e.2.2 (t.lane (i.ra.toNat - 32) k)))) ∧
  ∀ (x : SiteId) (w : BitVec 54) (s : State),
    s.issuesReg (.vfma x w) x (mifelWord 3 0x03 w)
      { rd := some .v, ra := some .v, rb := some .v, rc := some .v, formT := true, lanes := true } false
      (fun t i u => t.wroteV u (i.rd.toNat - 32) (t.guard i)
        (fun k => fFma (t.lane (i.ra.toNat - 32) k) (t.lane (i.rb.toNat - 32) k) (t.lane (i.rc.toNat - 32) k))) ∧
    s.issuesReg (.vsel x w) x (mifelWord 3 0x0C w)
      { rd := some .v, ra := some .v, rb := some .v, rc := some .p, formT := true, lanes := true } false
      (fun t i u => t.wroteV u (i.rd.toNat - 32) (t.guard i)
        (fun k => if (t.preg (i.rc.toNat - 52)).getLsbD k then t.lane (i.ra.toNat - 32) k else t.lane (i.rb.toNat - 32) k)) ∧
    s.issuesReg (.vbcast x w) x (mifelWord 3 0x0D w) { rd := some .v, ra := some .s, formT := true, lanes := true } false
      (fun t i u => t.wroteV u (i.rd.toNat - 32) (t.guard i) (fun _ => (t.sreg i.ra.toNat).extractLsb' 0 32)) ∧
    s.issuesReg (.vlane x w) x (mifelWord 3 0x0F w) { rd := some .v, formT := true, lanes := true } false
      (fun t i u => t.wroteV u (i.rd.toNat - 32) (t.guard i) (fun k => BitVec.ofNat 32 k)) ∧
    s.issuesReg (.vcvt x w) x (mifelWord 3 0x17 w) { rd := some .v, ra := some .v, mods := 7, formT := true, lanes := true }
      (5 ≤ (insnOf (mifelWord 3 0x17 w)).modBits 0 3)
      (fun t i u => t.wroteV u (i.rd.toNat - 32) (t.guard i) (fun k => vcvtMode (i.modBits 0 3) (t.lane (i.ra.toNat - 32) k)))

/-- vext, vredsum and vredmax write one scalar, vcmp the guarded bits of one predicate, and nothing else (R204, R205, R211, R212). -/
def Obligations.VectorReductionsAndTests : Prop :=
  ∀ (x : SiteId) (w : BitVec 54) (s : State),
    let pairs (f : BitVec 32 → BitVec 32 → BitVec 32) (n : Nat) (v : Nat → BitVec 32) : Nat → BitVec 32 :=
      n.rec v (fun _ g j => f (g (2 * j)) (g (2 * j + 1)))
    let red (t : Stn) (i : Insn) (z : BitVec 32) (f : BitVec 32 → BitVec 32 → BitVec 32) : BitVec 64 :=
      (pairs f 6 (fun k => if (t.guard i).getLsbD k then t.lane (i.ra.toNat - 32) k else z) 0).zeroExtend 64
    s.issuesReg (.vext x w) x (mifelWord 3 0x0E w) { rd := some .s, ra := some .v } false
      (fun t i u => t.wroteS u i.rd.toNat ((t.lane (i.ra.toNat - 32) (i.imm.toNat % 64)).zeroExtend 64)) ∧
    s.issuesReg (.vredsum x w) x (mifelWord 3 0x10 w) { rd := some .s, ra := some .v, formT := true, lanes := true } false
      (fun t i u => t.wroteS u i.rd.toNat (red t i 0 fAdd)) ∧
    s.issuesReg (.vredmax x w) x (mifelWord 3 0x11 w) { rd := some .s, ra := some .v, formT := true, lanes := true } false
      (fun t i u => t.wroteS u i.rd.toNat (red t i 0xFF800000#32 fMax)) ∧
    s.issuesReg (.vcmp x w) x (mifelWord 3 0x0B w) { rd := some .p, ra := some .v, rb := some .v, mods := 7, formT := true, lanes := true }
      (4 ≤ (insnOf (mifelWord 3 0x0B w)).modBits 0 3)
      (fun t i u => t.movedOn u (fun y => { y with p := u.p }) ∧ (∀ n, n ≠ i.rd.toNat - 52 → u.preg n = t.preg n) ∧
        (i.rd.toNat - 52 ≠ 0 → ∀ k, k < 64 → (u.preg (i.rd.toNat - 52)).getLsbD k =
          if (t.guard i).getLsbD k then laneCc (i.modBits 0 3) (t.lane (i.ra.toNat - 32) k) (t.lane (i.rb.toNat - 32) k)
          else (t.preg (i.rd.toNat - 52)).getLsbD k))

/-- mma and mmaz queue a product and MMA_END leaves it in the accumulator (R207, R214, R215, R216, R217). -/
def Obligations.ArrayQueueInstructions : Prop :=
  (∀ (x : SiteId) (w : BitVec 54) (s : State),
    let k := siteKey x
    let t := s.stn k
    let queues (c : Instr) (op : BitVec 6) (zero : Bool) : Prop :=
      let word := mifelWord 4 op w
      let m := t.mmaOf (insnOf word) zero
      s.issues c x word { rd := some .acc, ra := some .s, rb := some .s, rc := some .s, mods := 63, rsvd := 0xF8 } false (fun u =>
        if m.formsOk = false then u = s.trapStn k 3 (insnOf word).mod.toNat 0 0 word t.pc
        else if ¬(m.len % 32 = 0 ∧ 32 ≤ m.len ∧ m.len ≤ 16384) then u = s.trapStn k 3 m.len 0 0 word t.pc
        else if 2097152 < m.a + m.aLen ∨ m.a % 64 ≠ 0 then u = s.trapStn k 2 m.a 0 0 word t.pc
        else if 2097152 < m.w + m.wLen ∨ m.w % 64 ≠ 0 then u = s.trapStn k 2 m.w 0 0 word t.pc
        else if 4 ≤ t.queue.length ∨ t.readStalls m.a m.aLen = true ∨ t.readStalls m.w m.wLen = true ∨ 30 < t.ranges.length then u = s
        else s.onlyStn u k ∧ u.stn k = { t with
          queue := t.queue ++ [m], serial := t.serial + 1, pc := t.pc + 1, blocked := false
          ranges := t.ranges ++ [⟨m.a / 64 * 64, (m.a + m.aLen + 63) / 64 * 64, false, .mma t.serial⟩,
            ⟨m.w / 64 * 64, (m.w + m.wLen + 63) / 64 * 64, false, .mma t.serial⟩] })
    queues (.mma x w) 0 false ∧ queues (.mmaz x w) 1 true) ∧
  ∀ (x : SiteId) (s : State) (m : MmaOp) (rest : List MmaOp), (s.stn (siteKey x)).queue = m :: rest →
    let k := siteKey x
    let t := s.stn k
    let nb := m.len / 32
    let row (r : Nat) := (List.range nb).map (fun b => blockOf (t.lsRead m.a m.aLen) m.fa m.au (16 * nb) (r * nb + b))
    let col (j : Nat) := (List.range nb).map (fun b =>
      if m.wt then wtBlock (t.lsRead m.w m.wLen) m.fw m.stride b j else blockOf (t.lsRead m.w m.wLen) m.fw m.wu (64 * nb) (j * nb + b))
    ∃ u, exec (.mmaEnd x) s = .next u ∧ s.onlyStn u k ∧
      u.stn k = { t with acc := (u.stn k).acc, queue := rest, ranges := t.ranges.filter (fun r => r.of ≠ .mma m.serial) } ∧
      ∀ a r j, r < 16 → j < 64 → (u.stn k).cell a r j =
        if a = m.acc then flushCell (mmaCell (sliceK m.fa m.fw) (row r) (col j) (if m.zero then 0 else t.cell a r j)) else t.cell a r j

/-- acczero, vacc, vaccw and accst move accumulators as Table 8-9 says, and wait for a queued mma (R205, R207, R217, R218). -/
def Obligations.AccumulatorInstructions : Prop :=
  ∀ (x : SiteId) (w : BitVec 54) (s : State),
    let k := siteKey x
    let t := s.stn k
    let busy (n : Nat) : Prop := ∃ m ∈ t.queue, m.acc = n
    let i (op : BitVec 6) := insnOf (mifelWord 4 op w)
    let acts (c : Instr) (op : BitVec 6) (h : Shape) (acc : Nat) (q : Stn → Prop) : Prop :=
      s.issues c x (mifelWord 4 op w) h false (fun u => (busy acc → u = s) ∧ (¬busy acc → s.onlyStn u k ∧ q (u.stn k)))
    acts (.acczero x w) 2 { rd := some .acc } ((i 2).rd.toNat - 48)
      (fun u => t.wroteAcc u ((i 2).rd.toNat - 48) (fun _ => true) (fun _ _ => 0)) ∧
    acts (.vacc x w) 4 { rd := some .v, ra := some .acc } ((i 4).ra.toNat - 48)
      (fun u => t.wroteV u ((i 4).rd.toNat - 32) (BitVec.allOnes 64) (fun j => t.cell ((i 4).ra.toNat - 48) ((i 4).imm.toNat % 16) j)) ∧
    acts (.vaccw x w) 5 { rd := some .acc, ra := some .v } ((i 5).rd.toNat - 48)
      (fun u => t.wroteAcc u ((i 5).rd.toNat - 48) (fun r => r == (i 5).imm.toNat % 16) (fun _ j => t.lane ((i 5).ra.toNat - 32) j)) ∧
    s.issues (.accst x w) x (mifelWord 4 3 w) { ra := some .s, rb := some .acc, mods := 15 } false (fun u =>
      let a := (t.sreg (i 3).ra.toNat).toNat
      let n := accBytes ((i 3).modBits 0 3)
      (2097152 < a + n ∨ a % 64 ≠ 0 → u = s.trapStn k 2 a 0 0 (mifelWord 4 3 w) t.pc) ∧
      (¬(2097152 < a + n ∨ a % 64 ≠ 0) → busy ((i 3).rb.toNat - 48) ∨ t.writeStalls a n = true → u = s) ∧
      (¬(2097152 < a + n ∨ a % 64 ≠ 0) → ¬(busy ((i 3).rb.toNat - 48) ∨ t.writeStalls a n = true) →
        s.onlyStn u k ∧
        t.wroteLs (u.stn k) a (t.tileOf ((i 3).rb.toNat - 48) ((i 3).modBits 0 3) ((i 3).modBits 3 1 == 1)) (fun _ => true)))

/-- wsend and wsend.s queue a send on a loaded TX route (R207, R219, R241). -/
def Obligations.WeftSends : Prop :=
  ∀ (x : SiteId) (w : BitVec 54) (s : State),
    let k := siteKey x
    let t := s.stn k
    let i (op : BitVec 6) := insnOf (mifelWord 5 op w)
    let r : Nat := (i 0).imm.toNat % 16
    let tx : Prop := (t.route r).testBit 63 = true ∧ (t.route r).testBit 62 = false
    s.issues (.wsend x w) x (mifelWord 5 0 w) { ra := some .s, rb := some .s } false (fun u =>
      let a := (t.sreg (i 0).ra.toNat).toNat
      let n := (t.sreg (i 0).rb.toNat).toNat
      (¬tx → u = s.trapStn k 3 r 0 0 (mifelWord 5 0 w) t.pc) ∧
      (tx → n % 32 ≠ 0 ∨ n < 32 ∨ 65536 < n → u = s.trapStn k 3 n 0 0 (mifelWord 5 0 w) t.pc) ∧
      (tx → n % 32 = 0 → 32 ≤ n → n ≤ 65536 →
        (a % 32 ≠ 0 → u = s.trapStn k 3 a 0 0 (mifelWord 5 0 w) t.pc) ∧
        (a % 32 = 0 → 2097152 < a + n → u = s.trapStn k 2 a 0 0 (mifelWord 5 0 w) t.pc) ∧
        (a % 32 = 0 → a + n ≤ 2097152 →
          if 8 ≤ t.sends.length ∨ t.readStalls a n = true ∨ 32 ≤ t.ranges.length then u = s
          else s.onlyStn u k ∧ u.stn k = { t with
            sends := t.sends ++ [⟨t.serial, r, false, (List.range n).map (fun j => t.lsByte (a + j))⟩], serial := t.serial + 1
            ranges := t.ranges ++ [⟨a / 64 * 64, (a + n + 63) / 64 * 64, false, .send t.serial⟩], pc := t.pc + 1, blocked := false }))) ∧
    s.issues (.wsendS x w) x (mifelWord 5 2 w) { ra := some .s } false (fun u =>
      (¬tx → u = s.trapStn k 3 r 0 0 (mifelWord 5 2 w) t.pc) ∧
      (tx → if 8 ≤ t.sends.length then u = s
        else s.onlyStn u k ∧ u.stn k = { t with
          sends := t.sends ++ [⟨t.serial, r, true, toBytes 8 (t.sreg (i 2).ra.toNat).toNat ++ List.replicate 24 0⟩]
          serial := t.serial + 1, pc := t.pc + 1, blocked := false }))

/-- wrecv and wrecv.s post a receive on a loaded RX route (R206, R207, R219, R220, R241). -/
def Obligations.WeftReceives : Prop :=
  ∀ (x : SiteId) (w : BitVec 54) (s : State),
    let k := siteKey x
    let t := s.stn k
    let i (op : BitVec 6) := insnOf (mifelWord 5 op w)
    let r : Nat := (i 1).imm.toNat % 16
    let rx : Prop := (t.route r).testBit 63 = true ∧ (t.route r).testBit 62 = true
    (∀ p, p < 5 → smGet [] t.sw p = []) →
    s.issues (.wrecv x w) x (mifelWord 5 1 w) { ra := some .s, rb := some .s } false (fun u =>
      let a := (t.sreg (i 1).ra.toNat).toNat
      let n := (t.sreg (i 1).rb.toNat).toNat
      (¬rx → u = s.trapStn k 3 r 0 0 (mifelWord 5 1 w) t.pc) ∧
      (rx → n % 32 ≠ 0 ∨ n < 32 ∨ 65536 < n → u = s.trapStn k 3 n 0 0 (mifelWord 5 1 w) t.pc) ∧
      (rx → n % 32 = 0 → 32 ≤ n → n ≤ 65536 →
        (a % 32 ≠ 0 → u = s.trapStn k 3 a 0 0 (mifelWord 5 1 w) t.pc) ∧
        (a % 32 = 0 → 2097152 < a + n → u = s.trapStn k 2 a 0 0 (mifelWord 5 1 w) t.pc) ∧
        (a % 32 = 0 → a + n ≤ 2097152 →
          if 8 ≤ t.recvs.length ∨ t.writeStalls a n = true ∨ 32 ≤ t.ranges.length then u = s
          else s.onlyStn u k ∧ u.stn k = { t with
            recvs := t.recvs ++ [{ serial := t.serial, route := r, scalar := false, addr := a, len := n, pc := t.pc, insn := mifelWord 5 1 w }]
            ranges := t.ranges ++ [⟨a / 64 * 64, (a + n + 63) / 64 * 64, true, .recv t.serial⟩]
            serial := t.serial + 1, pc := t.pc + 1, blocked := false }))) ∧
    s.issues (.wrecvS x w) x (mifelWord 5 3 w) { rd := some .s } false (fun u =>
      (¬rx → u = s.trapStn k 3 r 0 0 (mifelWord 5 3 w) t.pc) ∧
      (rx → s.onlyStn u k ∧ u.stn k = { t with
        recvs := t.recvs ++ [{ serial := t.serial, route := r, scalar := true, reg := (i 3).rd.toNat, pc := t.pc, insn := mifelWord 5 3 w }]
        serial := t.serial + 1, pc := t.pc + 1, blocked := false }))

/-- The pool instructions put their operation into the pool path with its ticket, channel, range and operands (R205, R207, R221, R222, R138). -/
def Obligations.PoolInstructionsIssue : Prop :=
  ∀ (x : SiteId) (w : BitVec 54) (s : State),
    let k := siteKey x
    let t := s.stn k
    let i (op : BitVec 6) := insnOf (mifelWord 6 op w)
    let ch : Nat := (i 0).mod.toNat % 8
    let ticket : Nat := (i 0).imm.toNat % 16
    let rd : Nat := (t.sreg (i 0).rd.toNat).toNat
    let ra : Nat := (t.sreg (i 0).ra.toNat).toNat
    let rb : Nat := (t.sreg (i 0).rb.toNat).toNat
    let rc : Nat := (t.sreg (i 0).rc.toNat).toNat
    let full (ranged : Bool) : Prop :=
      (ticket ≠ 15 ∧ (t.ticket ticket).op.isSome = true) ∨ 256 ≤ (t.ops.filter (fun o => o.ch == ch)).length ∨
        (ranged = true ∧ 32 ≤ t.ranges.length)
    let issued (o : PoolOp) (ranges : List Range) : State :=
      let t' : Stn := { t with
        ops := t.ops ++ [o], serial := t.serial + 1, ranges := t.ranges ++ ranges
        tickets := if ticket = 15 then t.tickets else smSet {} t.tickets ticket { op := some t.serial, ch := ch } }
      (if t.ops.any (fun o => o.ch == ch && o.req.isNone) then s.setStn k t' else ((s.setStn k t').sendOp k o).settle).updStn k Stn.advance
    let base : PoolOp := { serial := t.serial, ticket := ticket, ch := ch, kind := .read }
    let bytes : List (BitVec 8) := (List.range rb).map (fun j => t.lsByte (rd + j))
    let moves (c : Instr) (op : BitVec 6) (h : Shape) (bad : Bool) (read : Bool) (o : PoolOp) : Prop :=
      s.issues c x (mifelWord 6 op w) h bad (fun u =>
        if rb % 8 ≠ 0 ∨ rb < 8 ∨ 262144 < rb then u = s.trapStn k 3 rb 0 0 (mifelWord 6 op w) t.pc
        else if 2097152 < rd + rb ∨ rd % 8 ≠ 0 then u = s.trapStn k 2 rd 0 0 (mifelWord 6 op w) t.pc
        else if ra % 8 ≠ 0 then u = s.trapStn k 3 ra 0 0 (mifelWord 6 op w) t.pc
        else if (if read then t.writeStalls rd rb else t.readStalls rd rb) = true ∨ full true then u = s
        else u = issued o [⟨rd / 64 * 64, (rd + rb + 63) / 64 * 64, read, .op t.serial⟩])
    let ver (c : Instr) (sub : Nat) (o : PoolOp) : Prop :=
      (i 4).imm.toNat / 16 % 8 = sub → s.issues c x (mifelWord 6 4 w) { ra := some .s, rb := some .s, mods := 7 } false (fun u =>
        if full false then u = s else u = issued o [])
    let plain : Shape := { rd := some .s, ra := some .s, rb := some .s, mods := 7 }
    let m : Nat := (i 1).mod.toNat / 8 % 4
    moves (.pget x w) 0 plain false true { base with ls := rd, addr := ra, len := rb } ∧
    moves (.pgetV x w) 2 { plain with rc := some .s } false true { base with kind := .vread, ls := rd, addr := ra, len := rb, vh := rc } ∧
    moves (.pput x w) 1 { plain with rc := if 2 ≤ m then some .s else none, mods := 31 } (m == 3) false
      { base with kind := .write, ls := rd, addr := ra, len := rb, data := bytes, fold := m % 2 == 1
                  stash := if m / 2 % 2 = 1 then some (rc % 512) else none } ∧
    moves (.pputV x w) 3 { plain with rc := some .s } false false { base with kind := .vwrite, ls := rd, addr := ra, len := rb, vh := rc, data := bytes } ∧
    ver (.pverOpen x w) 0 { base with kind := .vopen, addr := ra } ∧ ver (.pverClose x w) 1 { base with kind := .vclose, vh := ra } ∧
    ver (.pverBegin x w) 2 { base with kind := .vbegin, addr := ra, vh := rb } ∧ ver (.pverPublish x w) 3 { base with kind := .vpublish, vh := ra } ∧
    ver (.pverDiscard x w) 4 { base with kind := .vdiscard, vh := ra } ∧
    (5 ≤ (i 4).imm.toNat / 16 % 8 → s.canIssue k (mifelWord 6 4 w) = true →
      exec (.pverDiscard x w) s = .next (s.trapStn k 1 0 0 0 (mifelWord 6 4 w) t.pc)) ∧
    s.issues (.phint x w) x (mifelWord 6 6 w) { ra := some .s, rb := some .s, mods := 7 } false (fun u =>
      if rb % 8 ≠ 0 ∨ rb < 8 ∨ 262144 < rb then u = s.trapStn k 3 rb 0 0 (mifelWord 6 6 w) t.pc
      else if ra % 8 ≠ 0 then u = s.trapStn k 3 ra 0 0 (mifelWord 6 6 w) t.pc
      else if full false then u = s
      else u = issued { base with kind := .hint, addr := ra, len := rb, hint := (i 6).imm.toNat / 16 % 4 } [])

/-- pabort answers on its own ticket with OK when it wins and ALREADY_COMPLETE when the target has nothing to abort (R75, R77, R205, R224). -/
def Obligations.AbortInstruction : Prop :=
  (∀ (x : SiteId) (w : BitVec 54) (s : State),
    let k := siteKey x
    let t := s.stn k
    let own : Nat := (insnOf (mifelWord 6 5 w)).imm.toNat % 16
    let target : Nat := (insnOf (mifelWord 6 5 w)).imm.toNat / 16 % 16
    let op : Option PoolOp := (t.ticket target).op.bind (fun m => t.ops.find? (fun o => o.serial == m))
    let gone : State := ((s.setStn k (t.setTicket own { status := .alreadyComplete })).settle).updStn k Stn.advance
    s.issues (.pabort x w) x (mifelWord 6 5 w) {} false (fun u =>
      (target = 15 → u = s.trapStn k 3 15 0 0 (mifelWord 6 5 w) t.pc) ∧
      (target ≠ 15 → t.ticketBusy own = true → u = s) ∧
      (target ≠ 15 → t.ticketBusy own = false →
        (op = none → u = gone) ∧
        (∀ o, op = some o → o.req = none →
          (busyOutcome o true).status = .busy ∧ (busyOutcome o true).abt = true ∧
          u = ((((s.count F.XLT_ORD_CNT_ABORT_WON 1 (siteQ k)).setStn k
            ((t.opOver o (busyOutcome o true) []).setTicket own { status := .ok })).settle).updStn k Stn.advance)) ∧
        (∀ o id r, op = some o → o.req = some id → s.req id = some r →
          u = ((s.setStn k (({ t with serial := t.serial + 1 } : Stn).setTicket own { op := some t.serial })).decideLate
            (.abort r.chan r.tag (.ticket k own t.serial))).updStn k Stn.advance) ∧
        (∀ o id, op = some o → o.req = some id → s.req id = none → u = gone)))) ∧
  ∀ (s : State) (c : Chan) (tag key n serial : Nat),
    let v := (s.abort c tag).2
    (smGet {} (v.stn key).tickets n).op = some serial →
      s.lateNow (.abort c tag (.ticket key n serial)) = v.updStn key (fun t => { t with
        tickets := smSet {} t.tickets n { status := if (s.abort c tag).1 = true then .ok else .alreadyComplete } })

/-- TICKET_COMPLETE lands an outcome, REFUSAL_RESEND sends held operations again, ICACHE_REFILL refetches a line (R177, R207, R223). -/
def Obligations.StationPoolCompletions : Prop :=
  (∀ (x : SiteId) (s : State) (before rest : List Done) (d : Done) (n : Nat) (o : PoolOp),
    let k := siteKey x
    s.ord.done = before ++ d :: rest → (∀ e ∈ before, ∀ m, e.dest ≠ .station k m) → d.dest = .station k n → d ∉ before →
    (s.stn k).ops.find? (fun o => o.serial == n) = some o →
    (s.isRefusal k o d.out = false → exec (.ticketComplete x) s =
      .next (((s.setOrd { s.ord with done := before ++ rest }).updStn k (fun t => t.opOver o d.out d.data)).settleLooms)) ∧
    (s.isRefusal k o d.out = true → o.tries < 15 → ∃ u, exec (.ticketComplete x) s = .next u ∧
      u = { s with ord := { s.ord with done := before ++ rest }, stns := u.stns } ∧ (∀ j, j ≠ k → u.stn j = s.stn j) ∧
      u.stn k = { s.stn k with ops := (s.stn k).ops.map (fun (y : PoolOp) =>
        if y.serial = n then { y with req := none, tries := y.tries + 1, at_ := s.now } else y) })) ∧
  (∀ (x : SiteId) (ch : Fin 8) (s : State),
    let ops := (s.stn (siteKey x)).ops.filter (fun o => o.ch == ch.val)
    let held := ops.filter (fun o => o.req.isNone)
    ∀ o rest, held = o :: rest → (∀ y ∈ held, y.at_ + 1000 ≤ s.now ∨ y.tries = 0) → (∀ y ∈ ops, y.req = none ∨ y.serial < o.serial) →
      exec (.refusalResend x ch) s = .next (held.foldl (fun s o => s.sendOp (siteKey x) o) s).settle) ∧
  ∀ (x : SiteId) (s : State),
    let k := siteKey x
    let t := s.stn k
    (t.refill = none → s.siteState k = 3 → t.run = true → t.pc < t.code.length →
      let a := t.prog + 256 * (t.pc / 32)
      let n := min 256 (8 * (t.code.length - 32 * (t.pc / 32)))
      let v := (s.setStn k { t with refill := some (t.pc / 32) }).count F.STN_CNT_IC_PE 1 (siteQ k)
      exec (.icacheRefill x) s = .next (v.addReq
        { id := 0, chan := v.siteChan k 8, tag := s.ord.nextId % 65536, kind := .fetch, seg := a / 2 ^ 56 % 8, addr := a, len := n
          data := List.replicate n 0, have_ := n, pieces := v.plainPieces (v.siteCtx k) a n true, ep := v.stnEp k, dest := .refill k }).settle) ∧
    ∀ line d, t.refill = some line → s.ord.done.find? (fun d => d.dest == .refill k) = some d → d.out.status = .ok →
      32 * line ≤ t.code.length →
      ∃ u, exec (.icacheRefill x) s = .next u ∧ u = { s with ord := { s.ord with done := s.ord.done.erase d }, stns := u.stns } ∧
        (∀ j, j ≠ k → u.stn j = s.stn j) ∧ u.stn k = { t with refill := none, code := (u.stn k).code } ∧
        ∀ j, (u.stn k).code[j]? = if 32 * line ≤ j ∧ j < 32 * line + d.data.length / 8
          then some (BitVec.ofNat 64 (wordAt d.data (8 * (j - 32 * line)))) else t.code[j]?

/-- cvt.hdl, cvt.hva and sysr read the station's context and registers into D (R45, R204, R205, R225, R226). -/
def Obligations.HandleAndSystemReads : Prop :=
  ∀ (x : SiteId) (w : BitVec 54) (s : State),
    let k := siteKey x
    let t := s.stn k
    let i (cls : BitVec 4) (op : BitVec 6) := insnOf (mifelWord cls op w)
    let converts (c : Instr) (op : BitVec 6) (f : State → Nat → Nat → Nat) : Prop :=
      s.issues c x (mifelWord 6 op w) { rd := some .s, ra := some .s, rb := some .p } false (fun u =>
        let v := f s (s.siteCtx k) (t.sreg (i 6 op).ra.toNat).toNat
        s.onlyStn u k ∧ t.movedOn (u.stn k) (fun y => { y with s := (u.stn k).s, p := (u.stn k).p }) ∧
        (∀ n, (u.stn k).sreg n = if n = (i 6 op).rd.toNat ∧ n ≠ 0 then BitVec.ofNat 64 v else t.sreg n) ∧
        ∀ n, (u.stn k).preg n = if n = (i 6 op).rb.toNat - 52 ∧ n ≠ 0 then (if v ≠ 0 then BitVec.allOnes 64 else 0) else t.preg n)
    converts (.cvtHdl x w) 8 State.cvtHdl ∧ converts (.cvtHva x w) 9 State.cvtHva ∧
    s.issues (.sysr x w) x (mifelWord 7 9 w) { rd := some .s } (8 ≤ (i 7 9).imm.toNat % 16) (fun u =>
      s.onlyStn u k ∧ t.wroteS (u.stn k) (i 7 9).rd.toNat (BitVec.ofNat 64 ([x.i.val + x.q.val * 512, s.siteCtx k, (s.now - t.loadAt) * 8 / 5,
        t.beats, if s.locked then s.netNow else s.now, t.entry, t.arg.toNat, t.rctr.toNat].getD ((i 7 9).imm.toNat % 16) 0)))

/-- nop, pwait, pwait.ch, pres, pinfo and wait block until their unit is done, then read its outcome (R205, R226, R227). -/
def Obligations.WaitInstructions : Prop :=
  ∀ (x : SiteId) (w : BitVec 54) (s : State),
    let k := siteKey x
    let t := s.stn k
    let i (op : BitVec 6) := insnOf (mifelWord 7 op w)
    let n : Nat := (i 0).imm.toNat % 16
    let chk : Prop := (i 0).mod.toNat % 2 = 1
    let y := t.ticket n
    let ticket (c : Instr) (op : BitVec 6) (mods : Nat) (traps : Prop) (v : Nat) : Prop :=
      s.issues c x (mifelWord 7 op w) { rd := some .s, mods := mods } false (fun u =>
        (n = 15 → u = s.trapStn k 3 15 0 0 (mifelWord 7 op w) t.pc) ∧
        (n ≠ 15 → y.op.isSome = true → u = s.blockStn k) ∧
        (n ≠ 15 → y.op.isSome = false → traps → u = s.trapStn k 4 0 y.status.code (n + y.ch % 8 * 16) (mifelWord 7 op w) t.pc) ∧
        (n ≠ 15 → y.op.isSome = false → ¬traps → s.onlyStn u k ∧ t.wroteS (u.stn k) (i op).rd.toNat (BitVec.ofNat 64 v)))
    s.issues (.nop x w) x (mifelWord 7 0 w) {} false (fun u => s.onlyStn u k ∧ t.movedOn (u.stn k) id) ∧
    ticket (.pwait x w) 1 1 (chk ∧ y.status ≠ .ok)
      (y.status.code + y.worst.code * 2 ^ 4 + (if y.abt then 2 ^ 8 else 0) + (if y.maskv then 2 ^ 9 else 0)) ∧
    ticket (.pres x w) 3 0 False y.word1 ∧ ticket (.pinfo x w) 4 0 False y.info ∧
    s.issues (.pwaitCh x w) x (mifelWord 7 2 w) { rd := some .s, mods := 1 } false (fun u =>
      let c := (i 2).imm.toNat % 8
      let st := smGet .ok t.chst c
      let busy : Prop := ∃ o ∈ t.ops, o.ch = c ∧ o.ticket = 15
      (busy → u = s.blockStn k) ∧
      (¬busy → chk ∧ st ≠ .ok → u = s.trapStn k 4 0 st.code (15 + c * 16) (mifelWord 7 2 w) t.pc) ∧
      (¬busy → ¬(chk ∧ st ≠ .ok) → s.onlyStn u k ∧ t.movedOn (u.stn k) (fun y => { y with s := (u.stn k).s, chst := (u.stn k).chst }) ∧
        (∀ r, (u.stn k).sreg r = if r = (i 2).rd.toNat ∧ r ≠ 0 then BitVec.ofNat 64 st.code else t.sreg r) ∧
        ∀ j, smGet .ok (u.stn k).chst j = if j = c then .ok else smGet .ok t.chst j)) ∧
    s.issues (.wait x w) x (mifelWord 7 5 w) {} false (fun u =>
      let m := (i 5).imm.toNat
      let busy : Prop := (m.testBit 0 = true ∧ t.queue ≠ []) ∨ (m.testBit 1 = true ∧ t.ops ≠ []) ∨
        (m.testBit 2 = true ∧ t.sends ≠ []) ∨ (m.testBit 3 = true ∧ t.recvs ≠ [])
      (busy → u = s.blockStn k) ∧ (¬busy → s.onlyStn u k ∧ t.movedOn (u.stn k) id))

/-- beat counts and yields to a pause, cmpl records the call's result once, halt ends the call on the station (R205, R226, R227, R247). -/
def Obligations.BeatCompletionAndHalt : Prop :=
  ∀ (x : SiteId) (w : BitVec 54) (s : State),
    let k := siteKey x
    let t := s.stn k
    let quiet : Prop := t.queue = [] ∧ t.ops = [] ∧ t.sends = []
    s.issues (.beat x w) x (mifelWord 7 6 w) {} false (fun u =>
      (¬quiet → u = s) ∧
      (quiet → t.pausing = false → s.onlyStn u k ∧ u.stn k = { t with beats := t.beats + 1, pc := t.pc + 1, blocked := false }) ∧
      (quiet → t.pausing = true → ∀ n, t.loom = some n →
        u = (((s.setStn k { t with beats := t.beats + 1 }).setSiteState k 4).checkPaused n).updStn k Stn.advance)) ∧
    s.issues (.cmpl x w) x (mifelWord 7 7 w) { ra := some .s, rb := some .s } false (fun u =>
      let a := (t.sreg (insnOf (mifelWord 7 7 w)).ra.toNat).toNat
      let b := (t.sreg (insnOf (mifelWord 7 7 w)).rb.toNat).toNat
      ∀ n d c, s.callOf k = some (n, d, c) →
        (c.cmpl ≠ none → u = s.trapStn k 3 a 0 0 (mifelWord 7 7 w) t.pc) ∧
        (c.cmpl = none → u = { s with lm := u.lm, stns := u.stns } ∧ (∀ j, j ≠ k → u.stn j = s.stn j) ∧ t.movedOn (u.stn k) id ∧
          (∀ j, j ≠ n → u.loom j = s.loom j) ∧ u.loom n = { s.loom n with drafts := (u.loom n).drafts } ∧
          ∀ j, (u.loom n).drafts[j]? = ((s.loom n).drafts[j]?).map (fun y => if j = d then { y with run := some { c with cmpl := some (a, b) } } else y))) ∧
    s.issues (.halt x w) x (mifelWord 7 8 w) {} false (fun u =>
      (¬quiet → u = s) ∧
      (quiet → ∀ n d c, s.callOf k = some (n, d, c) →
        let v := ((s.awaitCall k).checkPaused n).updDraft n d (fun y => { y with run := some { c with wait := c.wait.filter (· ≠ k) } })
        u = (if (∀ j ∈ c.wait, j = k) ∧ c.ending = none then v.endOk n d { c with wait := c.wait.filter (· ≠ k) } else v).updStn k Stn.advance)) ∧
    ∀ n d c, s.joint c = false → s.endOk n d c = s.endCall n d .ok

/-- A trap records its word, cause and pc, stops the station in STATE 5, and raises its event and interrupt (R204, R205, R232, R233, R249). -/
def Obligations.TrapRecordsAndStops : Prop :=
  ∀ (x : SiteId) (word : BitVec 64) (s : State),
    let k := siteKey x
    let t := s.stn k
    let user : Prop := (insnOf word).cls = 9 ∧ (insnOf word).op = 0 ∧ (insnOf word).mod = 0 ∧ (insnOf word).rd.toNat < 60 ∧ (insnOf word).ra.toNat < 60
    let cause : Nat := if user then 7 else 1
    let code : Nat := if user then word.toNat % 256 else 0
    s.canIssue k word = true → mifelInstr x word = .trap x word → (user → (t.guard (insnOf word)).getLsbD 0 = true) →
    ∃ v, exec (.trap x word) s = .next (match t.loom with
        | some n => ((v.stopCall n t.draft .accessDenied false).checkPaused n).settleLooms
        | none => v) ∧
      v.regVal .STN_TRAP0 x.q.val x.i.val = cause + code * 2 ^ 8 + t.pc % 2 ^ 32 * 2 ^ 16 ∧
      v.regVal .STN_TRAP1 x.q.val x.i.val = word.toNat ∧ v.regVal .STN_TRAP2 x.q.val x.i.val = 0 ∧
      v.fld F.STN_TRAP3_COUNT x.q.val x.i.val =
        min (s.fld F.STN_TRAP3_COUNT x.q.val x.i.val + 1) (2 ^ F.STN_TRAP3_COUNT.width - 1) ∧
      v.siteState k = 5 ∧ v.stn k = { t with run := false, blocked := false } ∧ (∀ j, j ≠ k → v.stn j = s.stn j) ∧
      v = { s with regs := v.regs, stns := v.stns, tl := v.tl, intc := v.intc } ∧
      s.regsBut v [RegName.STN_TRAP0.addr x.q.val x.i.val 0, RegName.STN_TRAP1.addr x.q.val x.i.val 0, RegName.STN_TRAP2.addr x.q.val x.i.val 0,
        RegName.STN_TRAP3.addr x.q.val x.i.val 0, RegName.STN_SITE.addr x.q.val x.i.val 0, RegName.TL_EVT_STAT.addr 0 0 0]

/-- The generation helpers write their vector, accumulator or counter as R228 to R231 say (R205, R217, R228, R230, R231). -/
def Obligations.GenerationInstructions : Prop :=
  ∀ (x : SiteId) (w : BitVec 54) (s : State),
    let k := siteKey x
    let t := s.stn k
    let i (op : BitVec 6) := insnOf (mifelWord 8 op w)
    let all := BitVec.allOnes 64
    let draw (j : Nat) : BitVec 32 :=
      let z := t.key + (t.rctr * 64 + BitVec.ofNat 64 (j + 1)) * 0x9E3779B97F4A7C15#64
      let z := (z ^^^ (z >>> 30)) * 0xBF58476D1CE4E5B9#64
      let z := (z ^^^ (z >>> 27)) * 0x94D049BB133111EB#64
      (z ^^^ (z >>> 31)).extractLsb' 32 32
    let busy (a : Nat) : Prop := ∃ m ∈ t.queue, m.acc = a
    let rows (c : Instr) (op : BitVec 6) (f : Nat → BitVec 32 → BitVec 32) : Prop :=
      s.issues c x (mifelWord 8 op w) { rd := some .acc, ra := some .v } false (fun u =>
        let a := (i op).rd.toNat - 48
        (busy a → u = s) ∧ (¬busy a → s.onlyStn u k ∧ t.wroteAcc (u.stn k) a (fun _ => true) (fun r j => f r (t.cell a r j))))
    let b32 (op : BitVec 6) : BitVec 32 := (t.sreg (i op).rb.toNat).extractLsb' 0 32
    let c32 : BitVec 32 := (t.sreg (i 6).rc.toNat).extractLsb' 0 32
    s.issuesReg (.osmInit x w) x (mifelWord 8 0 w) { rd := some .v } false (fun t i u =>
      t.wroteV u (i.rd.toNat - 32) all (fun j => if j < 16 then 0xFF800000#32 else if 32 ≤ j ∧ j < 48 then 0x3F800000#32 else 0)) ∧
    rows (.osmScale x w) 2 (fun r a => fMul a (t.lane ((i 2).ra.toNat - 32) (32 + r))) ∧
    rows (.osmFin x w) 3 (fun r a =>
      if (f32 (t.lane ((i 3).ra.toNat - 32) (16 + r))).isZero then 0 else fMul a (fRcp (t.lane ((i 3).ra.toNat - 32) (16 + r)))) ∧
    s.issues (.rng x w) x (mifelWord 8 7 w) { rd := some .v } false (fun u =>
      s.onlyStn u k ∧ t.movedOn (u.stn k) (fun y => { y with v := (u.stn k).v, rctr := t.rctr + 1 }) ∧
      ∀ r j, j < 64 → (u.stn k).lane r j = if r = (i 7).rd.toNat - 32 then draw j else t.lane r j) ∧
    s.issuesReg (.rngs x w) x (mifelWord 8 8 w) { ra := some .s } false (fun t i u =>
      u = { t with rctr := t.sreg i.ra.toNat, pc := t.pc + 1, blocked := false }) ∧
    s.issues (.vtopk x w) x (mifelWord 8 5 w) { rd := some .v, ra := some .v, rb := some .s } false (fun u =>
      let d := (i 5).rd.toNat - 32
      let best := (((List.range 64).map (fun j => (t.lane ((i 5).ra.toNat - 32) j, b32 5 + BitVec.ofNat 32 j))).filter
        (fun p => !(f32 p.1).isNan)).foldl (fun l p => insertPair p l) ((List.range 32).map (fun j => (t.lane d j, t.lane d (32 + j))))
      s.onlyStn u k ∧ t.wroteV (u.stn k) d all (fun j => if j < 32 then (best.getD j (0, 0)).1 else (best.getD (j - 32) (0, 0)).2)) ∧
    s.issues (.sample x w) x (mifelWord 8 6 w) { rd := some .v, ra := some .v, rb := some .s, rc := some .s } false (fun u =>
      let d := (i 6).rd.toNat - 32
      let score (j : Nat) : BitVec 32 :=
        if c32 = 0 then t.lane ((i 6).ra.toNat - 32) j else fAdd (fMul (t.lane ((i 6).ra.toNat - 32) j) c32) (gumbel (draw j))
      let best := (List.range 64).foldl (fun b j =>
        if pairBefore (score j, b32 6 + BitVec.ofNat 32 j) b then (score j, b32 6 + BitVec.ofNat 32 j) else b) (t.lane d 0, t.lane d 1)
      s.onlyStn u k ∧ t.movedOn (u.stn k) (fun y => { y with v := (u.stn k).v, rctr := if c32 = 0 then t.rctr else t.rctr + 1 }) ∧
      ∀ r j, j < 64 → (u.stn k).lane r j = if r = d ∧ j = 0 then best.1 else if r = d ∧ j = 1 then best.2 else t.lane r j)

/-- osm.upd replaces a tile by its probabilities and updates m, l and c; tmask builds the row masks of a draft tree (R205, R207, R217, R228, R229). -/
def Obligations.SoftmaxUpdateAndTreeMasks : Prop :=
  ∀ (x : SiteId) (w : BitVec 54) (s : State),
    let k := siteKey x
    let t := s.stn k
    let i (op : BitVec 6) := insnOf (mifelWord 8 op w)
    s.issues (.osmUpd x w) x (mifelWord 8 1 w) { rd := some .v, ra := some .acc, rb := some .v, rc := some .s } false (fun u =>
      let a := (i 1).ra.toNat - 48
      let d := (i 1).rd.toNat - 32
      let elem (r j : Nat) : BitVec 32 :=
        if (i 1).imm.toNat % 2 = 1 ∧ (t.lane ((i 1).rb.toNat - 32) (2 * r + j / 32)).getLsbD (j % 32) = false then 0xFF800000#32
        else fMul (t.cell a r j) ((t.sreg (i 1).rc.toNat).extractLsb' 0 32)
      let m (r : Nat) : BitVec 32 := (List.range 64).foldl (fun y j => fMax y (elem r j)) (t.lane d r)
      let void (r : Nat) : Prop := m r = 0xFF800000#32
      let c (r : Nat) : BitVec 32 := if void r then 0x3F800000#32 else fExp2 (fSub (t.lane d r) (m r))
      let p (r j : Nat) : BitVec 32 := if void r then 0 else fExp2 (fSub (elem r j) (m r))
      let l (r : Nat) : BitVec 32 :=
        if void r then t.lane d (16 + r) else fAdd (fMul (t.lane d (16 + r)) (c r)) (tree fAdd 6 ((List.range 64).map (p r)))
      let busy : Prop := ∃ q ∈ t.queue, q.acc = a
      (busy → u = s) ∧
      (¬busy → s.onlyStn u k ∧ t.movedOn (u.stn k) (fun y => { y with v := (u.stn k).v, acc := (u.stn k).acc }) ∧
        (∀ b r j, r < 16 → j < 64 → (u.stn k).cell b r j = if b = a then flushCell (p r j) else t.cell b r j) ∧
        ∀ v j, j < 64 → (u.stn k).lane v j =
          if v = d ∧ j < 16 then (if void j then t.lane d j else m j) else if v = d ∧ j < 32 then l (j - 16)
          else if v = d ∧ j < 48 then c (j - 32) else t.lane v j)) ∧
    s.issues (.tmask x w) x (mifelWord 8 4 w) { rd := some .v, ra := some .s, rb := some .s, rc := some .s } false (fun u =>
      let a := (t.sreg (i 4).ra.toNat).toNat
      let desc := (List.range 24).map (fun j => t.lsByte (a + j))
      let rep := (i 4).imm.toNat % 32
      let q0 := (i 4).imm.toNat / 32 % 32
      if 2097152 < a + 24 ∨ a % 8 ≠ 0 then u = s.trapStn k 2 a 0 0 (mifelWord 8 4 w) t.pc
      else if t.readStalls a 24 = true then u = s
      else if treeOk desc = false ∨ rep ∉ [1, 2, 4, 8, 16] ∨ 16 < q0 then u = s.trapStn k 3 a 0 0 (mifelWord 8 4 w) t.pc
      else s.onlyStn u k ∧ t.movedOn (u.stn k) (fun y => { y with v := (u.stn k).v }) ∧
        (∀ v j, j < 64 → v ≠ (i 4).rd.toNat - 32 → (u.stn k).lane v j = t.lane v j) ∧
        (∀ j, 32 ≤ j → j < 64 → (u.stn k).lane ((i 4).rd.toNat - 32) j = 0) ∧
        ∀ r key, r < 16 → key < 64 → ((u.stn k).lane ((i 4).rd.toNat - 32) (2 * r + key / 32)).getLsbD (key % 32) =
          treeSees desc (t.sreg (i 4).rc.toNat).toNat (q0 + r / rep) ((t.sreg (i 4).rb.toNat).toNat + key))

/-- PORT_CTL and PORT_CRD_CFG writes store their fields or are refused, and clearing EN takes a live link down (R277, R280, R309, R4). -/
def Obligations.PortConfigurationWritesStore : Prop :=
  (∀ (w : Writer) (p : Port) (v : BitVec 64) (s : State), s.admits w .PORT_CTL p.val → w ≠ .image →
    let s1 := s.wakeFor w
    let st := s1.portState p.val
    let role := F.PORT_CTL_ROLE.of v.toNat
    let bad : Prop := 4 ≤ role ∨ (12 ≤ p.val ∧ role ≠ 0) ∨ (role ≠ s1.role p.val ∧ st ∉ [0, 1, 7])
    (bad → exec (.portCtlWrite w p v) s = .next (s1.respond .accessDenied)) ∧
    (¬bad → (st = 3 → F.PORT_CTL_EN.of v.toNat = 1) → st ∈ [3, 7] →
      ∃ t, exec (.portCtlWrite w p v) s = .next t ∧ t.rsp = (.ok, 0) ∧
        t.fld F.PORT_CTL_EN p.val = F.PORT_CTL_EN.of v.toNat ∧ t.fld F.PORT_CTL_ROLE p.val = role ∧
        t.fld F.PORT_CTL_BEACON p.val = F.PORT_CTL_BEACON.of v.toNat ∧ t.fld F.PORT_CTL_RETRAIN_PCT p.val = F.PORT_CTL_RETRAIN_PCT.of v.toNat ∧
        t.fld F.PORT_CTL_REPLAY_MAX p.val = F.PORT_CTL_REPLAY_MAX.of v.toNat ∧ t.fld F.PORT_CTL_LOSS_MS p.val = F.PORT_CTL_LOSS_MS.of v.toNat ∧
        t.fld F.PORT_CTL_RTRN_TMO p.val = F.PORT_CTL_RTRN_TMO.of v.toNat ∧ s1.regsBut t [RegName.PORT_CTL.addr p.val 0 0] ∧
        t = { s1 with regs := t.regs, rsp := t.rsp }) ∧
    (¬bad → F.PORT_CTL_EN.of v.toNat = 0 → st ∈ [2, 3, 4, 5, 6] →
      exec (.portCtlWrite w p v) s = .next (((s1.plainWrite .PORT_CTL p.val 0 0 v.toNat).portDown p.val 6 true).respond .ok))) ∧
  ∀ (w : Writer) (p : Port) (v : BitVec 64) (s : State), s.admits w .PORT_CRD_CFG p.val →
    let s1 := s.wakeFor w
    let units := (v.toNat % 256) + (v.toNat / 2 ^ 8 % 256) + (v.toNat / 2 ^ 16 % 256) + (v.toNat / 2 ^ 24 % 256) + (v.toNat / 2 ^ 32 % 256) +
      (v.toNat / 2 ^ 40 % 256) + (v.toNat / 2 ^ 48 % 256) + v.toNat / 2 ^ 56
    (256 < units → exec (.portCrdCfgWrite w p v) s = .next (s1.respond .accessDenied)) ∧
    (units ≤ 256 → ∃ t, exec (.portCrdCfgWrite w p v) s = .next t ∧ t.rsp = (.ok, 0) ∧ t.regVal .PORT_CRD_CFG p.val = v.toNat ∧
      s1.regsBut t [RegName.PORT_CRD_CFG.addr p.val 0 0] ∧ t = { s1 with regs := t.regs, rsp := t.rsp })

/-- Every start of a retrain takes an UP port to RETRAIN with its cause, and leaves a port that is not UP alone (R278, R279, R280). -/
def Obligations.RetrainsLeaveUpWithTheirCause : Prop :=
  (∀ (p : Port) (s : State), s.portUp p.val = true → s.quarterDown (portQuarter p.val) = false →
    (∃ t, exec (.retrainReq p) s = .next t ∧ (s.clockLost p.val).retrained t p.val 0) ∧
    ((s.link p.val).goodAt + 1000 ≤ s.now → ∃ t, exec (.lossRetrain p) s = .next t ∧ (s.clockLost p.val).retrained t p.val 1) ∧
    (s.flag F.PORT_CRD_STAT_PEND p.val = true → (s.link p.val).queues = [] → (s.link p.val).unacked = [] → (s.link p.val).busyAt + 1000 ≤ s.now →
      ∃ t, exec (.leakRetrain p) s = .next t ∧ ((s.sendLctl p.val 4 0).clockLost p.val).retrained t p.val 3) ∧
    (s.flag F.PORT_CRD_STAT_PEND p.val = true → (s.link p.val).leakAt + 100000000 ≤ s.now →
      ∃ t, exec (.leakRetrainForce p) s = .next t ∧ ((s.sendLctl p.val 4 0).clockLost p.val).retrained t p.val 3)) ∧
  (∀ (p : Nat) (s : State), (¬(s.fld F.HUB_TIME_CTL_SRC = 2 ∧ s.fld F.HUB_TIME_CTL_SRC_PORT = p) → s.clockLost p = s) ∧
    (s.fld F.HUB_TIME_CTL_SRC = 2 → s.fld F.HUB_TIME_CTL_SRC_PORT = p → (s.clockLost p).locked = false ∧ (s.clockLost p).time.good = 0)) ∧
  (∀ (p : Port) (s : State), s.portUp p.val = false →
    exec (.retrainReq p) s = .next s ∧ exec (.lossRetrain p) s = .next s ∧ exec (.leakRetrain p) s = .next s ∧ exec (.leakRetrainForce p) s = .next s) ∧
  (∀ (p : Port) (s : State),
    (s.now < (s.link p.val).goodAt + 1000 → exec (.lossRetrain p) s = .next s) ∧
    (s.flag F.PORT_CRD_STAT_PEND p.val = false → exec (.leakRetrain p) s = .next s ∧ exec (.leakRetrainForce p) s = .next s)) ∧
  ∀ (w : Writer) (p : Port) (s : State), s.admits w .PORT_TRN_CMD p.val → (s.wakeFor w).quarterDown (portQuarter p.val) = false →
    ((s.wakeFor w).portUp p.val = true →
      ∃ t, exec (.portRetrainCmd w p) s = .next (t.respond .ok) ∧ (((s.wakeFor w).sendLctl p.val 4 0).clockLost p.val).retrained t p.val 0) ∧
    ((s.wakeFor w).portUp p.val = false → exec (.portRetrainCmd w p) s = .next ((s.wakeFor w).respond .ok))

/-- A full training starts from DARK, BEACON or DOWN, raises INCARN and forgets the last training (R265, R266). -/
def Obligations.FullTrainingsStart : Prop :=
  let starts (s t : State) (p : Nat) : Prop :=
    t.portState p = 2 ∧ t.fld F.PORT_LNK_STAT_INCARN p = (s.fld F.PORT_LNK_STAT_INCARN p + 1) % 2 ^ F.PORT_LNK_STAT_INCARN.width ∧
    t.fld F.PORT_LNK_STAT_CAUSE p = s.fld F.PORT_LNK_STAT_CAUSE p ∧
    t.link p = { s.link p with trainAt := s.now, capSeen := none, echoes := [] } ∧ s.linksBut t p ∧
    t = { s with regs := t.regs, links := t.links } ∧ s.regsBut t [RegName.PORT_LNK_STAT.addr p 0 0]
  (∀ (p : Port) (s : State), s.flag F.PORT_CTL_EN p.val = true → s.quarterDown (portQuarter p.val) = false →
    (s.portState p.val = 0 ∨ s.portState p.val = 1 ∨ (s.portState p.val = 7 ∧ (s.link p.val).downAt + 10000000 ≤ s.now)) →
    ∃ t, exec (.trainingStart p) s = .next t ∧ starts s t p.val) ∧
  (∀ (p : Port) (s : State),
    (s.flag F.PORT_CTL_EN p.val = false ∨ s.portState p.val ∈ [2, 3, 4, 5, 6] ∨
      (s.portState p.val = 7 ∧ s.now < (s.link p.val).downAt + 10000000)) →
    exec (.trainingStart p) s = .next s) ∧
  ∀ (w : Writer) (p : Port) (s : State), s.admits w .PORT_TRN_CMD p.val →
    let s1 := s.wakeFor w
    (s1.portState p.val = 7 → s1.flag F.PORT_CTL_EN p.val = true →
      ∃ t, exec (.portTrainCmd w p) s = .next (t.respond .ok) ∧ starts s1 t p.val) ∧
    (s1.portState p.val ≠ 7 → exec (.portTrainCmd w p) s = .next (s1.respond .ok))

/-- TRAINING_END brings the port UP with the partner's block, width and length, or DOWN with the cause of Table 10-3 (R264, R266, R267, R268, R277). -/
def Obligations.TrainingsEndUpOrDown : Prop :=
  (∀ (p : Port) (r : TrainResult) (s : State), s.portState p.val ≠ 2 → exec (.trainingEnd p r) s = .next s) ∧
  (∀ (p : Port) (r : TrainResult) (s : State), s.portState p.val = 2 → r.lanes ≠ 255 →
    (s.flag F.PORT_CTL_W4_EN p.val = false ∨ (r.lanes.toNat % 16 ≠ 15 ∧ r.lanes.toNat / 16 ≠ 15)) →
    exec (.trainingEnd p r) s = .next ((s.setReg .PORT_MARGIN (laneMargins r.lanes.toNat r.margins.toNat) p.val).portDown p.val 5 false)) ∧
  (∀ (p : Port) (m : BitVec 64) (s : State), s.portState p.val = 2 → (s.link p.val).capSeen = none →
    exec (.trainingEnd p ⟨255, m, none⟩) s = .next ((s.setReg .PORT_MARGIN (laneMargins 255 m.toNat) p.val).portDown p.val 5 false)) ∧
  (∀ (p : Port) (m : BitVec 64) (c : CapBlock) (s : State), s.portState p.val = 2 → c.ver ≠ 1 →
    exec (.trainingEnd p ⟨255, m, some c⟩) s = .next ((s.setReg .PORT_MARGIN (laneMargins 255 m.toNat) p.val).portDown p.val 5 false)) ∧
  ∀ (p : Port) (m : BitVec 64) (c : CapBlock) (s : State), s.portState p.val = 2 → p.val < 12 → c.ver = 1 → (s.link p.val).echoes.length = 16 →
    s.quarterDown (portQuarter p.val) = false →
    let sum := (s.link p.val).echoes.foldl (· + ·) 0
    let len := fibreUnits sum
    len ≤ 200 →
    ∃ t, exec (.trainingEnd p ⟨255, m, some c⟩) s = .next t ∧ t.portState p.val = 3 ∧ t.fld F.PORT_LNK_STAT_WIDTH4 p.val = 0 ∧
      t.fld F.PORT_LNK_STAT_LONG p.val = 0 ∧ t.fld F.PORT_LNK_STAT_RT_FAILS p.val = 0 ∧
      t.fld F.PORT_LNK_STAT_INCARN p.val = s.fld F.PORT_LNK_STAT_INCARN p.val ∧ t.regVal .PORT_PARTNER_ID p.val = c.deviceId.toNat ∧
      t.fld F.PORT_FIBRE_LEN p.val = len ∧ t.fld F.PORT_TIMERS_REPLAY_TMO p.val = min 65535 (sum / 16 + 256) ∧
      (∀ v, v < 8 → vcGet (t.link p.val).cred v = max 2 (c.alloc.toNat / 2 ^ (8 * v) % 256) * 8) ∧
      (t.link p.val).unacked = [] ∧ (t.link p.val).sendSeq = 0 ∧ (t.link p.val).expect = 0 ∧ (t.link p.val).pincarn = c.incarn ∧
      s.linksBut t p.val ∧ s.raised t (0x140 + 8 * p.val) ∧ t = { s with regs := t.regs, links := t.links, tl := t.tl, intc := t.intc }

/-- CAP and ECHO are answered as the state of the port asks, a beacon repeats every 100 ms, a retrain ends UP (R265, R267, R268, R269, R279, R280). -/
def Obligations.LinkControlBlocksAndEchoes : Prop :=
  (∀ (p : Port) (c : CapBlock) (s : State),
    let l := s.link p.val
    let st := s.portState p.val
    (st = 2 → ∃ t, exec (.cap p c) s = .next t ∧ t.link p.val = { l with capSeen := some c } ∧ s.linksBut t p.val ∧
      t.wire = s.wire ++ [.capFlit p.val (s.ownCap p.val false), .echo p.val (BitVec.ofNat 64 s.now) none] ∧
      t = { s with links := t.links, wire := t.wire }) ∧
    (st ∈ [4, 6] → c.deviceId.toNat ≠ s.regVal .PORT_PARTNER_ID p.val ∨ c.incarn ≠ l.pincarn →
      exec (.cap p c) s = .next (s.portDown p.val 3 false)) ∧
    (st ∈ [4, 6] → c.deviceId.toNat = s.regVal .PORT_PARTNER_ID p.val → c.incarn = l.pincarn →
      ∃ t, exec (.cap p c) s = .next t ∧ t.link p.val = { l with capSeen := some c, goodAt := s.now } ∧ s.linksBut t p.val ∧
        t.wire = s.wire ++ [.capFlit p.val (s.ownCap p.val true)] ∧ t = { s with links := t.links, wire := t.wire }) ∧
    (st ∉ [2, 4, 6] → ∃ t, exec (.cap p c) s = .next t ∧ t.link p.val = { l with capSeen := some c } ∧ s.linksBut t p.val ∧
      t = { s with links := t.links })) ∧
  (∀ (p : Port) (t1 d : BitVec 64) (s : State),
    exec (.echo p t1 none) s =
      .next { s with free := s.free + 1, wire := s.wire ++ [.echo p.val t1 (some (Config.freeValue s.free))] } ∧
    (s.portState p.val = 2 → (s.link p.val).echoes.length < 16 →
      ∃ t, exec (.echo p t1 (some d)) s = .next t ∧
        t.link p.val = { s.link p.val with echoes := (s.link p.val).echoes ++ [s.now - t1.toNat - d.toNat] } ∧ s.linksBut t p.val ∧
        t.wire = s.wire ++ (if (s.link p.val).echoes.length < 15 then [.echo p.val (BitVec.ofNat 64 s.now) none] else []) ∧
        t = { s with links := t.links, wire := t.wire }) ∧
    (s.portState p.val ≠ 2 → exec (.echo p t1 (some d)) s = .next s)) ∧
  (∀ (p : Port) (s : State),
    (s.flag F.PORT_CTL_BEACON p.val = true → s.portState p.val ∈ [1, 7] →
      (s.link p.val).beaconAt = 0 ∨ (s.link p.val).beaconAt + 100000000 ≤ s.now →
      ∃ t, exec (.beaconBurst p) s = .next t ∧ t.link p.val = { s.link p.val with beaconAt := max 1 s.now } ∧ s.linksBut t p.val ∧
        t.wire = s.wire ++ [.beacon p.val (s.ownCap p.val false)] ∧ t = { s with links := t.links, wire := t.wire }) ∧
    (s.flag F.PORT_CTL_BEACON p.val = false → exec (.beaconBurst p) s = .next s)) ∧
  (∀ (p : Port) (c : CapBlock) (s : State), s.portState p.val ∈ [4, 6] → c.rsync = true →
    (c.deviceId.toNat ≠ s.regVal .PORT_PARTNER_ID p.val ∨ c.incarn ≠ (s.link p.val).pincarn →
      exec (.retrainEnd p c) s = .next (s.portDown p.val 3 false)) ∧
    (c.deviceId.toNat = s.regVal .PORT_PARTNER_ID p.val → c.incarn = (s.link p.val).pincarn → (s.link p.val).unacked = [] →
      s.quarterDown (portQuarter p.val) = false →
      ∃ t, exec (.retrainEnd p c) s = .next t ∧ t.portState p.val = 3 ∧ t.fld F.PORT_LNK_STAT_RT_FAILS p.val = 0 ∧
        t.fld F.PORT_CRD_STAT_PEND p.val = 0 ∧ (t.link p.val).unacked = [] ∧ (t.link p.val).expect = (s.link p.val).expect ∧
        (∀ v, v < 8 → vcGet (t.link p.val).cred v =
          if v < 4 then c.free0.toNat / 2 ^ (16 * v) % 65536 else c.free1.toNat / 2 ^ (16 * (v - 4)) % 65536) ∧
        t.wire = s.wire ++ [.capFlit p.val ((s.setReg .PORT_PARTNER_CAP c.word1 p.val).ownCap p.val true)] ∧ s.linksBut t p.val ∧
        s.raised t (0x140 + 8 * p.val) ∧ t = { s with regs := t.regs, links := t.links, intc := t.intc, tl := t.tl, wire := t.wire })) ∧
  ∀ (p : Port) (s : State), s.portState p.val = 4 → (s.link p.val).retrainAt + s.fld1 F.PORT_CTL_RTRN_TMO p.val * 10000 ≤ s.now →
    (s.fld F.PORT_LNK_STAT_RT_FAILS p.val < 2 → s.quarterDown (portQuarter p.val) = false →
      ∃ t, exec (.retrainTimeout p) s = .next t ∧ t.fld F.PORT_LNK_STAT_RT_FAILS p.val = s.fld F.PORT_LNK_STAT_RT_FAILS p.val + 1 ∧
        t.portState p.val = 4 ∧ t.link p.val = { s.link p.val with retrainAt := s.now, capSeen := none } ∧ s.linksBut t p.val ∧
        s.raised t (0x141 + 8 * p.val)) ∧
    (2 ≤ s.fld F.PORT_LNK_STAT_RT_FAILS p.val →
      exec (.retrainTimeout p) s = .next ((s.setFld F.PORT_LNK_STAT_RT_FAILS 3 p.val).portDown p.val 2 false))

/-- PORT_DOWN_CMD, LOSS_DOWN and DOWN_NOTICE take one port DOWN with causes 6, 1 and 7; AUDIT finds the lost credits of each VC exactly (R265, R278, R280, R284). -/
def Obligations.LinksGoDownAndAuditsFindLostCredits : Prop :=
  (∀ (w : Writer) (p : Port) (s : State), s.admits w .PORT_TRN_CMD p.val →
    let s1 := s.wakeFor w
    (s1.portState p.val ∈ [2, 3, 4, 5, 6] → exec (.portDownCmd w p) s = .next ((s1.portDown p.val 6 true).respond .ok)) ∧
    (s1.portState p.val ∈ [0, 1, 7] → exec (.portDownCmd w p) s = .next (s1.respond .ok))) ∧
  (∀ (p : Port) (s : State),
    let ms := max 1 (s.fld F.PORT_CTL_LOSS_MS p.val) * 1000000
    let lost : Prop := (s.portState p.val ∈ [3, 4] ∧ (s.link p.val).goodAt + ms ≤ s.now) ∨ (s.portState p.val = 6 ∧ (s.link p.val).wakeAt + ms ≤ s.now)
    (lost → exec (.lossDown p) s = .next (s.portDown p.val 1 false)) ∧ (¬lost → exec (.lossDown p) s = .next s)) ∧
  (∀ (p : Port) (s : State),
    (s.portState p.val ∈ [3, 4, 5, 6] → exec (.downNotice p) s = .next (s.portDown p.val 7 false)) ∧
    (s.portState p.val ∈ [0, 1, 2, 7] → exec (.downNotice p) s = .next s)) ∧
  (∀ (w : Writer) (p : Port) (s : State), s.admits w .PORT_TRN_CMD p.val → p.val < 12 →
    let s1 := s.wakeFor w
    s1.portState p.val = 2 → s1.quarterDown (portQuarter p.val) = false →
    ∃ t u, exec (.portDownCmd w p) s = .next (u.respond .ok) ∧ u = t.settle ∧ t.portState p.val = 7 ∧ t.fld F.PORT_LNK_STAT_CAUSE p.val = 6 ∧
      t.fld F.PORT_CRD_STAT_PEND p.val = 0 ∧ (t.link p.val).unacked = [] ∧ (t.link p.val).queues = [] ∧ (t.link p.val).ingress = [] ∧
      (t.link p.val).downAt = s1.now ∧ s1.linksBut t p.val ∧ s1.raised t (0x140 + 8 * p.val) ∧
      t = { s1 with regs := t.regs, links := t.links, tl := t.tl, intc := t.intc, evr := t.evr }) ∧
  (∀ (p : Port) (s : State),
    let l := s.link p.val
    let n := s.fld F.PORT_TIMERS_AUDIT p.val
    let counts := (List.range 8).map (vcGet l.ret)
    (s.portUp p.val = true → n ≠ 0 → l.auditAt + n * 10000 ≤ s.now → l.unacked.length < 2048 → l.unitsUsed < 4096 →
      ∃ t, exec (.auditSend p) s = .next t ∧ (t.link p.val).auditAt = s.now ∧ (t.link p.val).sendSeq = (l.sendSeq + 1) % 4096 ∧
        (∃ f, (t.link p.val).unacked = l.unacked ++ [f] ∧ f.seq = BitVec.ofNat 12 l.sendSeq ∧ f.body = .audit counts ∧
          t.wire = s.wire ++ [.flits p.val [f], .audit p.val counts]) ∧
        s.linksBut t p.val ∧ t = { s with links := t.links, wire := t.wire }) ∧
    (s.portUp p.val = false ∨ n = 0 ∨ s.now < l.auditAt + n * 10000 → exec (.auditSend p) s = .next s)) ∧
  ∀ (p : Port) (counts : List Nat) (s : State),
    let l := s.link p.val
    let leak (v : Nat) : Nat := (counts.getD v 0 + 65536 - vcGet l.got v % 65536) % 65536
    let alloc (v : Nat) : Nat := max 2 (l.palloc.toNat / 2 ^ (8 * v) % 256) * 8
    let left (v : Nat) : Nat := alloc v - leak v
    (s.portState p.val ∉ [3, 4] → exec (.audit p counts) s = .next s) ∧
    (s.portState p.val ∈ [3, 4] →
      ∃ t v, exec (.audit p counts) s = .next t ∧ v < 8 ∧ (∀ u, u < 8 → left v * alloc u ≤ left u * alloc v) ∧
        t.fld F.PORT_CRD_STAT_WIN_VC p.val = v ∧ t.fld F.PORT_CRD_STAT_WIN_PCT p.val = left v * 100 / alloc v ∧
        t.fld F.PORT_CRD_STAT_LEAKED p.val = min 65535 (leak 0 + leak 1 + leak 2 + leak 3 + leak 4 + leak 5 + leak 6 + leak 7) ∧
        t.fld F.PORT_CRD_STAT_PEND p.val = (if min 100 (s.fld F.PORT_CTL_RETRAIN_PCT p.val) ≠ 0 ∧
            (∃ u ∈ List.range 8, left u * 100 < min 100 (s.fld F.PORT_CTL_RETRAIN_PCT p.val) * alloc u)
          then 1 else s.fld F.PORT_CRD_STAT_PEND p.val) ∧
        (∃ x, t.link p.val = { l with leakAt := x }) ∧ s.linksBut t p.val ∧ t = { s with regs := t.regs, links := t.links } ∧
        s.regsBut t [RegName.PORT_CRD_STAT.addr p.val 0 0])

/-- Ports sleep by SLEEP_REQ and SLEEP_ACK, stay UP by SLEEP_NAK, and wake by bursts (R283, R284, R31). -/
def Obligations.PortsSleepAndWake : Prop :=
  (∀ (p : Port) (s : State),
    (s.portUp p.val = false →
      exec (.sleepReq p) s = .next s ∧ exec (.sleepAck p) s = .next s ∧ exec (.sleepNak p) s = .next s) ∧
    (s.portUp p.val = true → (s.link p.val).sleepReq = true → s.power.deep = 0 →
      let u := (s.setLink p.val { s.link p.val with sleepReq := false }).clockLost p.val
      ∃ t, exec (.sleepAck p) s = .next t ∧ t.portState p.val = 6 ∧ t.link p.val = { u.link p.val with
          wakeAt := s.now, retrainAt := s.now, capSeen := none } ∧
        u.linksBut t p.val ∧ t = { u with regs := t.regs, links := t.links } ∧ u.regsBut t [RegName.PORT_LNK_STAT.addr p.val 0 0]) ∧
    (s.portUp p.val = true → s.power.deep ≠ 1 →
      ((s.link p.val).queues = [] → (s.link p.val).unacked = [] →
        let u := (s.sendLctl p.val 2 0).clockLost p.val
        ∃ t, exec (.sleepReq p) s = .next t ∧ t.portState p.val = 5 ∧
          t = { u with regs := t.regs } ∧ u.regsBut t [RegName.PORT_LNK_STAT.addr p.val 0 0]) ∧
      ((s.link p.val).queues ≠ [] → exec (.sleepReq p) s = .next (s.sendLctl p.val 3 0)) ∧
      ((s.link p.val).sleepReq = true →
        (s.power.deep ≠ 0 →
          let u := (s.setLink p.val { s.link p.val with sleepReq := false }).clockLost p.val
          ∃ t, exec (.sleepAck p) s = .next t ∧ t.portState p.val = 5 ∧
          t = { u with regs := t.regs } ∧ u.regsBut t [RegName.PORT_LNK_STAT.addr p.val 0 0]) ∧
        ∃ t, exec (.sleepNak p) s = .next t ∧ t.link p.val = { s.link p.val with sleepReq := false } ∧ s.linksBut t p.val ∧
          t = { s with links := t.links }) ∧
      ((s.link p.val).sleepReq = false → exec (.sleepAck p) s = .next s ∧ exec (.sleepNak p) s = .next s))) ∧
  ∀ (p : Port) (s : State),
    (s.portState p.val = 5 → (s.link p.val).queues ≠ [] →
      ∃ t, exec (.wakeBurst p) s = .next t ∧ t.portState p.val = 6 ∧
        t.link p.val = { s.link p.val with wakeAt := s.now, retrainAt := s.now, capSeen := none } ∧ s.linksBut t p.val ∧
        t.wire = s.wire ++ [.wakeBurst p.val] ∧ t = { s with regs := t.regs, links := t.links, wire := t.wire } ∧
        s.regsBut t [RegName.PORT_LNK_STAT.addr p.val 0 0]) ∧
    (s.portState p.val = 6 → exec (.wakeBurst p) s = .next { s with wire := s.wire ++ [.wakeBurst p.val] }) ∧
    (s.portState p.val ≠ 6 → s.portState p.val ≠ 5 ∨ (s.link p.val).queues = [] → exec (.wakeBurst p) s = .next s) ∧
    (s.portState p.val = 5 → exec (.wakeBurstDetect p) s = .next (s.wakeDevice.wakePort p.val)) ∧
    (s.portUp p.val = true → (s.link p.val).sleepReq = true → exec (.wakeBurstDetect p) s = .next s.wakeDevice) ∧
    (s.portState p.val ≠ 5 → s.portUp p.val = false ∨ (s.link p.val).sleepReq = false → exec (.wakeBurstDetect p) s = .next s) ∧
    (s.portState p.val = 5 → s.power.deep = 0 → ∃ t, exec (.wakeBurstDetect p) s = .next t ∧ t.portState p.val = 6 ∧
      (t.link p.val).wakeAt = s.now ∧ s.linksBut t p.val ∧ t = { s with regs := t.regs, links := t.links })

/-- FLIT_RECEIVE accepts exactly the expected SEQ, counts duplicates and errors, and frees what an ACK names; a timeout replays all (R263, R270, R271, R272, R273, R275, R277). -/
def Obligations.FlitsAreAcceptedInSequence : Prop :=
  (∀ (p : Port) (f : Flit) (r : RxCheck) (s : State), s.portState p.val = 3 → r.uncorr = false → r.crcOk = false →
    ∃ t, exec (.flitReceive p f r) s = .next t ∧ t.links = s.links ∧ t.wire = s.wire ∧
      t.fld F.PORT_CNT_CRC_ERR p.val = min (s.fld F.PORT_CNT_CRC_ERR p.val + 1) (2 ^ F.PORT_CNT_CRC_ERR.width - 1) ∧
      t.fld F.PORT_FEC_CNT_CORR p.val = min (s.fld F.PORT_FEC_CNT_CORR p.val + r.corr) (2 ^ F.PORT_FEC_CNT_CORR.width - 1) ∧
      t = { s with regs := t.regs, evr := t.evr } ∧
      s.regsBut t [RegName.PORT_CNT.addr p.val 0 0, RegName.PORT_FEC_CNT.addr p.val 0 0]) ∧
  (∀ (p : Port) (f : Flit) (r : RxCheck) (s : State) (c : BitVec 8), s.portState p.val = 3 → r.uncorr = false → r.crcOk = true →
    f.body = .lctl 0 c →
    let l := s.link p.val
    let l' := if f.ackv then l.applyAck f.ack.toNat s.now else l
    let d := (l.expect + 4096 - f.seq.toNat) % 4096
    ∃ t, exec (.flitReceive p f r) s = .next t ∧ s.linksBut t p.val ∧ t = { s with regs := t.regs, evr := t.evr, links := t.links } ∧
      (f.seq.toNat = l.expect →
        (t.link p.val).expect = (l.expect + 1) % 4096 ∧ (t.link p.val).ackv = true ∧ (t.link p.val).unacked = l'.unacked ∧
        (∀ v, vcGet (t.link p.val).cred v = vcGet l.cred v + if v = f.crvc.toNat then f.crcnt.toNat else 0) ∧
        t.fld F.PORT_CNT_DUP p.val = s.fld F.PORT_CNT_DUP p.val) ∧
      (f.seq.toNat ≠ l.expect →
        t.link p.val = { l' with goodAt := s.now } ∧
        t.fld F.PORT_CNT_DUP p.val = if 1 ≤ d ∧ d ≤ 2048 then min (s.fld F.PORT_CNT_DUP p.val + 1) (2 ^ F.PORT_CNT_DUP.width - 1)
          else s.fld F.PORT_CNT_DUP p.val)) ∧
  (∀ (l : Link) (ack now : Nat) (f : Flit) (rest : List Flit), l.unacked = f :: rest →
    let d := (ack + 4096 - f.seq.toNat) % 4096
    (l.applyAck ack now).unacked = if d < l.unacked.length then l.unacked.drop (d + 1) else l.unacked) ∧
  ∀ (p : Port) (s : State),
    let l := s.link p.val
    let un := l.unacked.map (fun (f : Flit) => { f with ack := BitVec.ofNat 12 (l.expect + 4095), ackv := l.ackv })
    (s.portUp p.val = true → l.unacked ≠ [] → l.replayAt + max 1 (s.fld F.PORT_TIMERS_REPLAY_TMO p.val) ≤ s.now →
      l.replays + 1 < max 1 (s.fld F.PORT_CTL_REPLAY_MAX p.val) →
      exec (.replayTimeout p) s = .next (s.decideLate (.replay p.val)) ∧
      ∃ t, s.lateNow (.replay p.val) = t ∧ t.link p.val = { l with unacked := un, replayAt := s.now, replays := l.replays + 1 } ∧
        s.linksBut t p.val ∧ t.wire = s.wire ++ [.flits p.val un] ∧
        t.fld F.PORT_CNT_REPLAY p.val = min (s.fld F.PORT_CNT_REPLAY p.val + 1) (2 ^ F.PORT_CNT_REPLAY.width - 1) ∧
        t = { s with regs := t.regs, links := t.links, wire := t.wire, evr := t.evr } ∧ s.regsBut t [RegName.PORT_CNT.addr p.val 0 0]) ∧
    (l.unacked = [] ∨ s.now < l.replayAt + max 1 (s.fld F.PORT_TIMERS_REPLAY_TMO p.val) → exec (.replayTimeout p) s = .next s ∧ s.lateNow (.replay p.val) = s)

/-- Route and group commands read both versions, write only the inactive one while it is unlocked, and are BUSY during a COPY or CLEAR (R290, R292, R296). -/
def Obligations.RoutingVersionsAreEditedWhileIdle : Prop :=
  (∀ (w : Writer) (s : State), s.admits w .HUB_RT_OP 0 →
    let s1 := s.wakeFor w
    let v := s1.fld F.HUB_RT_INDEX_VER
    let i := s1.fld F.HUB_RT_INDEX_INDEX
    let e := s1.regVal .HUB_RT_DATA
    let n := s1.idleVer
    (s1.flag F.HUB_RT_STAT_BUSY = true →
      exec (.routeRead w) s = .next (s1.respond .busy) ∧ exec (.routeWrite w) s = .next (s1.respond .busy) ∧
      exec (.routeClear w) s = .next (s1.respond .busy) ∧ exec (.routeCopy w) s = .next (s1.respond .busy)) ∧
    (s1.flag F.HUB_RT_STAT_BUSY = false →
      (∃ t, exec (.routeRead w) s = .next t ∧ t.regVal .HUB_RT_DATA = (s1.rtEntry v i).toNat ∧ t = { s1 with regs := t.regs, rsp := (.ok, 0) } ∧
        s1.regsBut t [RegName.HUB_RT_DATA.addr 0 0 0]) ∧
      (v = s1.epoch.toNat ∨ s1.flag F.HUB_RT_STAT_LOCK = true ∨ s1.rtOk v i e = false → exec (.routeWrite w) s = .next (s1.respond .accessDenied)) ∧
      (v ≠ s1.epoch.toNat → s1.flag F.HUB_RT_STAT_LOCK = false → s1.rtOk v i e = true →
        ∃ t, exec (.routeWrite w) s = .next t ∧ (∀ u j, j < 16384 → t.rtEntry u j = if u = v ∧ j = i then BitVec.ofNat 64 e else s1.rtEntry u j) ∧
          (smWf 0 s1.hub.rt = true → smWf 0 t.hub.rt = true) ∧ t = { s1 with hub := { s1.hub with rt := t.hub.rt }, rsp := (.ok, 0) }) ∧
      (s1.flag F.HUB_RT_STAT_LOCK = true →
        exec (.routeClear w) s = .next (s1.respond .accessDenied) ∧ exec (.routeCopy w) s = .next (s1.respond .accessDenied)) ∧
      (s1.flag F.HUB_RT_STAT_LOCK = false →
        let edited (t : State) : Prop := t.flag F.HUB_RT_STAT_BUSY = true ∧ t.epoch = s1.epoch ∧ t.hub.opEnd = some (s1.now + 17409) ∧
          (∀ j, j < 16384 → t.rtEntry (1 - n) j = s1.rtEntry (1 - n) j) ∧ (∀ g, g < 1024 → t.mcEntry (1 - n) g = s1.mcEntry (1 - n) g) ∧
          t.regVal .HUB_RT_DEF 0 (1 - n) = s1.regVal .HUB_RT_DEF 0 (1 - n) ∧
          t = { s1 with hub := { s1.hub with rt := t.hub.rt, mc := t.hub.mc, opEnd := t.hub.opEnd }, regs := t.regs, rsp := (.ok, 0) } ∧
          s1.regsBut t [RegName.HUB_RT_DEF.addr 0 n 0, RegName.HUB_RT_STAT.addr 0 0 0]
        (∃ t, exec (.routeClear w) s = .next t ∧ edited t ∧ (∀ j, j < 16384 → t.rtEntry n j = 0) ∧ (∀ g, g < 1024 → t.mcEntry n g = 0) ∧
          t.regVal .HUB_RT_DEF 0 n = 0) ∧
        ∃ t, exec (.routeCopy w) s = .next t ∧ edited t ∧ (∀ j, j < 16384 → t.rtEntry n j = s1.rtEntry (1 - n) j) ∧
          (∀ g, g < 1024 → t.mcEntry n g = s1.mcEntry (1 - n) g) ∧ t.regVal .HUB_RT_DEF 0 n = s1.regVal .HUB_RT_DEF 0 (1 - n)))) ∧
  (∀ (w : Writer) (s : State), s.admits w .HUB_MC_OP 0 →
    let s1 := s.wakeFor w
    let v := s1.fld F.HUB_MC_INDEX_VER
    let g := s1.fld F.HUB_MC_INDEX_GROUP
    (s1.flag F.HUB_RT_STAT_BUSY = true → exec (.groupRead w) s = .next (s1.respond .busy) ∧ exec (.groupWrite w) s = .next (s1.respond .busy)) ∧
    (s1.flag F.HUB_RT_STAT_BUSY = false →
      (∃ t, exec (.groupRead w) s = .next t ∧ t.regVal .HUB_MC_DATA = (s1.mcEntry v g).toNat ∧ t = { s1 with regs := t.regs, rsp := (.ok, 0) } ∧
        s1.regsBut t [RegName.HUB_MC_DATA.addr 0 0 0]) ∧
      (v = s1.epoch.toNat ∨ s1.flag F.HUB_RT_STAT_LOCK = true → exec (.groupWrite w) s = .next (s1.respond .accessDenied)) ∧
      (v ≠ s1.epoch.toNat → s1.flag F.HUB_RT_STAT_LOCK = false →
        ∃ t, exec (.groupWrite w) s = .next t ∧
          (∀ u j, j < 1024 → t.mcEntry u j = if u = v ∧ j = g then BitVec.ofNat 64 (s1.regVal .HUB_MC_DATA) else s1.mcEntry u j) ∧
          (smWf 0 s1.hub.mc = true → smWf 0 t.hub.mc = true) ∧ t = { s1 with hub := { s1.hub with mc := t.hub.mc }, rsp := (.ok, 0) }))) ∧
  ∀ (s : State),
    (∀ e, s.hub.opEnd = some e → e ≤ s.now → ∃ t, exec .routeOpEnd s = .next t ∧ t.flag F.HUB_RT_STAT_BUSY = false ∧ t.epoch = s.epoch ∧
      t.flag F.HUB_RT_STAT_LOCK = s.flag F.HUB_RT_STAT_LOCK ∧ t = { s with regs := t.regs, hub := { s.hub with opEnd := none } } ∧
      s.regsBut t [RegName.HUB_RT_STAT.addr 0 0 0]) ∧
    (∀ e, s.hub.opEnd = some e → s.now < e → exec .routeOpEnd s = .next s) ∧ (s.hub.opEnd = none → exec .routeOpEnd s = .next s)

/-- FLIP changes the ingress epoch and locks the old version; DRAINED and the drain timeout end it; failover moves routes to their alternates (R292, R293, R294, R295). -/
def Obligations.FlipsChangeTheEpochAndDrain : Prop :=
  (∀ (w : Writer) (s : State), s.admits w .HUB_RT_CMD 0 →
    let s1 := s.wakeFor w
    (s1.flag F.HUB_RT_STAT_LOCK = true → exec (.flip w) s = .next (s1.respond .accessDenied) ∧
      ∃ t, exec (.recheck w) s = .next t ∧ t.flag F.HUB_RT_STAT_TMO = false ∧ t.flag F.HUB_RT_STAT_LOCK = true ∧ t.epoch = s1.epoch ∧
        t = { s1 with regs := t.regs, hub := { s1.hub with flipAt := s1.now }, rsp := (.ok, 0) } ∧ s1.regsBut t [RegName.HUB_RT_STAT.addr 0 0 0]) ∧
    (s1.flag F.HUB_RT_STAT_LOCK = false → exec (.recheck w) s = .next (s1.respond .ok) ∧
      ∃ t, exec (.flip w) s = .next t ∧ t.epoch = !s1.epoch ∧ t.flag F.HUB_RT_STAT_LOCK = true ∧ t.flag F.HUB_RT_STAT_DRAINED = false ∧
        t.flag F.HUB_RT_STAT_TMO = false ∧ t.fld F.HUB_RT_STAT_FLIPS = (s1.fld F.HUB_RT_STAT_FLIPS + 1) % 2 ^ 32 ∧
        t.flag F.HUB_RT_STAT_BUSY = s1.flag F.HUB_RT_STAT_BUSY ∧
        t = { s1 with regs := t.regs, hub := { s1.hub with flipAt := s1.now, oldAt := s1.now }, rsp := (.ok, 0) } ∧
        s1.regsBut t [RegName.HUB_RT_STAT.addr 0 0 0])) ∧
  (∀ (s : State),
    let drains : Prop := s.flag F.HUB_RT_STAT_LOCK = true ∧ s.flag F.HUB_RT_STAT_TMO = false ∧ s.heldOld = 0 ∧
      s.hub.oldAt + max 1 (s.fld F.HUB_CTL_DRAIN_QUIET) * 1000 ≤ s.now
    let late : Prop := s.flag F.HUB_RT_STAT_LOCK = true ∧ s.flag F.HUB_RT_STAT_TMO = false ∧
      s.hub.flipAt + max 1 (s.fld F.HUB_CTL_DRAIN_TMO) * 1000 ≤ s.now
    (drains → ∃ t, exec .drainDetect s = .next t ∧ t.flag F.HUB_RT_STAT_DRAINED = true ∧ t.flag F.HUB_RT_STAT_LOCK = false ∧ t.epoch = s.epoch ∧
      t.hub.heldCoh = [] ∧ t = { s with regs := t.regs, hub := t.hub, links := t.links } ∧
      (∀ n, s.portLive n = true → ∀ q i k, s.hub.heldCoh = [(n, q, k)] → n < 14 →
        smGet [] (t.link n).queues i = smGet [] (s.link n).queues i ++ if i = q then [⟨{ k with epoch := s.epoch }, s.now⟩] else []) ∧
      (s.hub.heldCoh = [] → t.hub = s.hub ∧ t.links = s.links ∧ s.regsBut t [RegName.HUB_RT_STAT.addr 0 0 0])) ∧
    (¬drains → exec .drainDetect s = .next s) ∧
    (late → ∃ t, exec .drainTimeout s = .next t ∧ t.flag F.HUB_RT_STAT_TMO = true ∧ t.fld F.HUB_RT_STAT_HELD = min 65535 s.heldOld ∧
      t.flag F.HUB_RT_STAT_LOCK = true ∧ s.raised t 0x1B4 ∧ t = { s with regs := t.regs, tl := t.tl, intc := t.intc } ∧
      s.regsBut t [RegName.HUB_RT_STAT.addr 0 0 0, RegName.TL_EVT_STAT.addr 0 0 0]) ∧
    (¬late → exec .drainTimeout s = .next s)) ∧
  ∀ (p : Port) (s : State),
    let may : Prop := s.flag F.HUB_CTL_AUTO_ALT = true ∧ s.fld F.TDM_ROLE_MODE ≠ 2 ∧ s.flag F.HUB_RT_STAT_LOCK = false ∧
      s.flag F.HUB_RT_STAT_BUSY = false ∧ p.val < 12
    (¬may → exec (.autoAltFailover p) s = .next s) ∧
    (may → s.hub.copyDue = true → s.flag F.HUB_RT_STAT_DRAINED = false → exec (.autoAltFailover p) s = .next s) ∧
    (may → s.hub.copyDue = true → s.flag F.HUB_RT_STAT_DRAINED = true →
      ∃ t, exec (.autoAltFailover p) s = .next t ∧ t.hub.copyDue = false ∧ t.flag F.HUB_RT_STAT_BUSY = true ∧ t.hub.opEnd = some (s.now + 17409) ∧
        t.epoch = s.epoch ∧ ∀ v i, v < 2 → i < 16384 → t.rtEntry v i = s.rtEntry s.epoch.toNat i) ∧
    (may → s.hub.copyDue = false → s.portState p.val = 7 → s.altHits p.val ≠ [] →
      ∃ t, exec (.autoAltFailover p) s = .next t ∧ t.hub.copyDue = true ∧ t.epoch = !s.epoch ∧ t.flag F.HUB_RT_STAT_LOCK = true ∧
        (∀ i, i < 16384 → t.rtEntry s.epoch.toNat i = s.rtEntry s.epoch.toNat i) ∧
        ∀ i, i < 16384 → t.rtEntry t.epoch.toNat i =
          let e := s.rtEntry s.epoch.toNat i
          if rtV e.toNat && rtPort e.toNat == p.val && rtAltV e.toNat then BitVec.ofNat 64 (setBits e.toNat 21 4 (rtAlt e.toNat)) else e) ∧
    (may → s.hub.copyDue = false → s.portState p.val = 7 → s.altHits p.val = [] → exec (.autoAltFailover p) s = .next s) ∧
    (may → s.hub.copyDue = false → s.portState p.val ∉ [3, 7] → exec (.autoAltFailover p) s = .next s)

/-- HUB_FORWARD authenticates, limits hops and routes one packet of a VC; EGRESS_START sends one; gate entries follow in turn (R277, R287, R288, R289, R290, R291, R302, R303, R313). -/
def Obligations.PacketsAreForwardedAndSent : Prop :=
  (∀ (p : Port) (vc : Fin 8) (s : State), s.nextIngress p.val vc.val = none → exec (.hubForward p vc) s = .next s) ∧
  (∀ (p : Port) (vc : Fin 8) (k : Packet) (s : State), s.nextIngress p.val vc.val = some k →
    let s1 := (s.setLink p.val { s.link p.val with ingress := (s.link p.val).ingress.erase k }).freeBuffers p.val vc.val k.flitCount
    let s2 := s1.chkPacket p.val k (s1.ctxOf p.val k.srcN)
    let k1 := s.stampIn p.val k
    k ∈ (s.link p.val).ingress ∧ k.vc.toNat = vc.val ∧
    (s.authOk p.val k = false → k.isRequest = true → exec (.hubForward p vc) s = .next (s1.refuseOnce p.val k1 .accessDenied (fun u =>
      (u.count F.PORT_AUTH_CNT_DENIED 1 p.val).raise (0x144 + 8 * p.val)))) ∧
    (s.authOk p.val k = false → k.isRequest = false → exec (.hubForward p vc) s =
      .next ((s1.count F.PORT_AUTH_CNT_DISCARD 1 p.val).raise (0x144 + 8 * p.val))) ∧
    (s.authOk p.val k = true → max 1 (s.fld F.HUB_CTL_HOP_MAX) ≤ k.hops.toNat →
      exec (.hubForward p vc) s = .next (if k.isMulticast then s2.count F.HUB_CNT_HOPS else (s2.count F.HUB_CNT_HOPS).refuseOnce p.val k1 .noRoute)) ∧
    (s.authOk p.val k = true → k.hops.toNat < max 1 (s.fld F.HUB_CTL_HOP_MAX) → exec (.hubForward p vc) s = .next (s2.route p.val k1)) ∧
    (s.authOk p.val k = true → k.hops.toNat < max 1 (s.fld F.HUB_CTL_HOP_MAX) → k.oneHop = false → k.isMulticast = false →
      k.typN ∉ [0x10, 0x11] → s.role p.val ∈ [1, 2] → s.flag F.GLB_STAT_WAIT_IMG = false →
      ∀ n, s.lookup (s.routeVer k.epoch).1 k.dstN = some n → n < 14 → n ≠ p.val → s.portLive n = true →
        ∃ t, exec (.hubForward p vc) s = .next t ∧
          smGet [] (t.link n).queues (496 + vc.val) = smGet [] (s.link n).queues (496 + vc.val) ++ [⟨{ k with hops := k.hops + 1 }, s.now⟩])) ∧
  (∀ (p : Port) (s : State),
    (s.portUp p.val = false ∨ s.schedule p.val = none → exec (.egressStart p) s = .next s) ∧
    (∀ q h rest, s.portUp p.val = true → s.schedule p.val = some (q, h :: rest) → h.pkt.vc ≠ 1 →
      ∃ t, exec (.egressStart p) s = .next t ∧ (∀ i, smGet [] (t.link p.val).queues i = if i = q then rest else smGet [] (s.link p.val).queues i) ∧
        (∀ v, vcGet (t.link p.val).cred v = vcGet (s.link p.val).cred v - if v = h.pkt.vc.toNat then h.pkt.flitCount else 0) ∧
        t.wire.getLast? = some (.packet p.val h.pkt) ∧ s.linksBut t p.val ∧ t = { s with links := t.links, wire := t.wire })) ∧
  ∀ (p : Port) (s : State), s.flag F.PORT_GATE_CTL_PEND p.val = false →
    let l := s.link p.val
    let es := s.gateEntries p.val (s.fld F.PORT_GATE_CTL_ACT p.val)
    let next := es.find? (fun e => decide (s.fld F.PORT_GATE_STAT_ENTRY p.val < e.1))
    let runs (t : State) (e : Nat × Nat × Nat) : Prop := t.fld F.PORT_GATE_STAT_ENTRY p.val = e.1 ∧ t.fld F.PORT_GATE_STAT_OPEN p.val = e.2.1 ∧
      t.link p.val = { l with gateEnd := l.gateEnd + e.2.2, gateHold := false } ∧ s.linksBut t p.val ∧
      t = { s with regs := t.regs, links := t.links } ∧ s.regsBut t [RegName.PORT_GATE_STAT.addr p.val 0 0]
    (l.gateEnd = 0 ∨ s.gateTime < l.gateEnd → exec (.gateEntryEnd p) s = .next s) ∧
    (l.gateEnd ≠ 0 → l.gateEnd ≤ s.gateTime → l.gateHold = false → ∀ e, next = some e →
      ∃ t, exec (.gateEntryEnd p) s = .next t ∧ runs t e ∧ t.fld F.PORT_GATE_STAT_CYCLES p.val = s.fld F.PORT_GATE_STAT_CYCLES p.val) ∧
    (l.gateEnd ≠ 0 → l.gateEnd ≤ s.gateTime → l.gateHold = true ∨ next = none → ∀ e rest, es = e :: rest →
      ∃ t, exec (.gateEntryEnd p) s = .next t ∧ runs t e ∧
        t.fld F.PORT_GATE_STAT_CYCLES p.val = (s.fld F.PORT_GATE_STAT_CYCLES p.val + 1) % 2 ^ 32)

/-- MWR and MCALL are refused or copied per group entry, reports are added up, and a complete report leaves (R296, R297, R298). -/
def Obligations.MulticastRequestsAndReports : Prop :=
  (∀ (p : Port) (k : Packet) (s : State), (p.val, k) ∈ s.hub.delivered →
    let s1 : State := { s with hub := { s.hub with delivered := s.hub.delivered.erase (p.val, k) } }
    let e := (s.mcEntry (s.routeVer k.epoch).1 k.dstN).toNat
    let isGroup : Prop := k.dstN < 1024 ∧ e.testBit 15 = true
    let r0 : Report := ⟨0, k.dstN % 1024, p.val, k, some (bits k.w4.toNat 0 16), [], 0, 0, 0, 0, 0, s.now⟩
    ∀ c, (c = Instr.mwr p k ∧ k.typN = 0x60) ∨ (c = Instr.mcall p k ∧ k.typN = 0x61) →
      (k.hops = 0 → 2048 < k.lenN ∨ ¬isGroup → exec c s = .next (s1.refuse p.val k .accessDenied)) ∧
      (k.hops ≠ 0 → ¬isGroup → exec c s = .next (s1.sendReport { r0 with lost := 1 })) ∧
      (k.hops ≠ 0 → isGroup → ∀ q rid, s.freeRid = some rid → q < 14 → q ≠ p.val → (∀ b, b < 15 → e.testBit b = decide (b = q)) →
        (s.regVal .HUB_MC_FMASK 0 k.dstN).testBit q = false → s.portUp q = true →
        Config.vc5Room (smGet [] (s.link q).queues 501).length = true →
        ∃ t, exec c s = .next t.settle ∧ t.hub.reports = s.hub.reports ++ [{ r0 with rid := rid, wait := [q] }] ∧
          smGet [] (t.link q).queues 501 =
            smGet [] (s.link q).queues 501 ++ [⟨{ k with hops := k.hops + 1, w4 := BitVec.ofNat 64 rid }, s.now⟩] ∧
          s.linksBut t q ∧ t = { s1 with hub := { s1.hub with reports := t.hub.reports }, links := t.links })) ∧
  (∀ (p : Port) (k : Packet) (s : State), (k.typN ≠ 0x60 → exec (.mwr p k) s = .next s) ∧ (k.typN ≠ 0x61 → exec (.mcall p k) s = .next s) ∧
    (k.typN ≠ 0x62 → exec (.mrep p k) s = .next s)) ∧
  (∀ (p : Port) (k : Packet) (s : State), (p.val, k) ∈ s.hub.delivered → k.typN = 0x62 →
    let w1 := wordAt k.payload 8
    let w2 := wordAt k.payload 16
    let rid := wordAt k.payload 24 % 2 ^ 16
    ∃ t, exec (.mrep p k) s = .next t ∧ t = { s with hub := { s.hub with delivered := s.hub.delivered.erase (p.val, k), reports := t.hub.reports } } ∧
      t.hub.reports = s.hub.reports.map (fun r => if r.rid = rid ∧ p.val ∈ r.wait then
        { r with wait := r.wait.erase p.val, delivered := r.delivered + w1 % 2 ^ 32, fenced := r.fenced + w1 / 2 ^ 32,
                 lost := r.lost + w2 % 2 ^ 32, refused := r.refused + w2 / 2 ^ 32 } else r)) ∧
  (∀ (rid : Fin 1024) (s : State),
    (∀ r, s.hub.reports.find? (fun r => r.rid == rid.val) = some r → r.wait = [] → r.locals = 0 →
      exec (.multicastReportSend rid) s = .next (State.sendReport { s with hub := { s.hub with reports := s.hub.reports.erase r } } r)) ∧
    (∀ r, s.hub.reports.find? (fun r => r.rid == rid.val) = some r → r.wait ≠ [] ∨ r.locals ≠ 0 → exec (.multicastReportSend rid) s = .next s) ∧
    (s.hub.reports.find? (fun r => r.rid == rid.val) = Option.none → exec (.multicastReportSend rid) s = .next s)) ∧
  ∀ (rid : Fin 1024) (p : Port) (s : State),
    ∃ t, exec (.mcBranchTimeout rid p) s = .next t ∧ t = { s with hub := { s.hub with reports := t.hub.reports } } ∧
      t.hub.reports = s.hub.reports.map (fun r =>
        if r.rid = rid.val ∧ p.val ∈ r.wait ∧ r.since + max 1 (s.fld F.HUB_CTL_MC_TMO) * 10000 ≤ s.now then
          { r with wait := r.wait.erase p.val, lost := r.lost + 1 } else r)

/-- Network time is set or followed by SYNC and FOLLOW_UP; shapers, policers and queue selections store; queues are sampled (R299, R300, R304, R305, R306). -/
def Obligations.NetworkTimeAndQueueSettings : Prop :=
  (∀ (w : Writer) (v : BitVec 64) (s : State), s.admits w .HUB_TIME_SET 0 →
    let s1 := s.wakeFor w
    (s1.fld F.HUB_TIME_CTL_SRC ≠ 1 → exec (.timeSet w v) s = .next (s1.respond .accessDenied)) ∧
    (s1.fld F.HUB_TIME_CTL_SRC = 1 → ∃ t, exec (.timeSet w v) s = .next t ∧ t.netNow = v.toNat ∧ t.locked = true ∧
      t.rsp = (.ok, 0) ∧ t = { s1 with regs := t.regs, time := t.time, links := t.links, rsp := t.rsp })) ∧
  (∀ (p : Port) (k : Packet) (s : State), (p.val, k) ∈ s.hub.delivered →
    let s1 : State := { s with hub := { s.hub with delivered := s.hub.delivered.erase (p.val, k) } }
    let src : Prop := s.fld F.HUB_TIME_CTL_SRC = 2 ∧ s.fld F.HUB_TIME_CTL_SRC_PORT = p.val
    (k.typN = 0x68 → src → k.w3.toNat % 256 = s.fld F.HUB_TIME_CTL_DOMAIN → exec (.sync p k) s =
      .next { s1 with time := { s.time with sync := some (k.w3.toNat % 256, k.tagN, (s.now : Int) + s.time.off) } }) ∧
    (k.typN = 0x68 → ¬src ∨ k.w3.toNat % 256 ≠ s.fld F.HUB_TIME_CTL_DOMAIN → exec (.sync p k) s = .next s1) ∧
    (k.typN = 0x69 → ∀ t2, s.time.sync = some (k.w3.toNat % 256, k.tagN, t2) → src → exec (.followUp p k) s =
      .next (State.timeSample { s1 with time := { s.time with sync := none } } (t2 - ((k.w4.toNat : Int) + s.fld F.PORT_FIBRE_RTT_NS p.val / 2)))) ∧
    (k.typN = 0x69 → (∀ t2, s.time.sync ≠ some (k.w3.toNat % 256, k.tagN, t2)) ∨ ¬src → exec (.followUp p k) s = .next s1)) ∧
  (∀ (s : State) (d : Int), 1000 < d.natAbs → (s.timeSample d).time = { s.time with off := s.time.off - d, slew := 0, good := 0, bad := 0 } ∧
    (s.timeSample d).locked = false ∧
    (s.timeSample d).fld F.HUB_TIME_STAT_STEPS = min (s.fld F.HUB_TIME_STAT_STEPS + 1) (2 ^ F.HUB_TIME_STAT_STEPS.width - 1)) ∧
  (∀ (p : Port) (s : State),
    let us := max 1 (s.fld F.HUB_TIME_CTL_SYNC_US) * 1000
    let due : Prop := p.val < 12 ∧ s.portUp p.val = true ∧ ((s.link p.val).syncAt = 0 ∨ (s.link p.val).syncAt + us ≤ s.now)
    (¬due → exec (.syncSend p) s = .next s) ∧
    (due → ∃ t a b, exec (.syncSend p) s = .next t ∧ smGet [] (t.link p.val).queues 511 = smGet [] (s.link p.val).queues 511 ++ [⟨a, s.now⟩, ⟨b, s.now⟩] ∧
      a.typN = 0x68 ∧ b.typN = 0x69 ∧ a.tag = b.tag ∧ a.w3 = b.w3 ∧ a.w3.toNat = s.fld F.HUB_TIME_CTL_DOMAIN ∧ b.w4 = BitVec.ofNat 64 s.netNow ∧
      s.linksBut t p.val ∧ t = { s with links := t.links })) ∧
  (∀ (w : Writer) (p : Port) (q : Fin 512) (v : BitVec 64) (s : State), s.admits w .PORT_Q_CFG p.val →
    ∃ t u, exec (.portQCfgWrite w p q v) s = .next t ∧ (s.wakeFor w).stored u .PORT_Q_CFG p.val q.val 0 v.toNat ∧ t = { u with links := t.links } ∧
      u.linksBut t p.val ∧ smGet (0, 0) (t.link p.val).toks q.val =
        (if F.PORT_Q_CFG_FILL.of v.toNat = 1 then (((min 16777216 (F.PORT_Q_CFG_BURST.of v.toNat) * 1000 : Nat) : Int), u.now) else (0, u.now))) ∧
  (∀ (w : Writer) (c : Ctx) (v : BitVec 64) (s : State), s.admits w .HUB_POL_CFG 0 →
    ∃ t u, exec (.hubPolCfgWrite w c v) s = .next t ∧ (s.wakeFor w).stored u .HUB_POL_CFG 0 c.val 0 v.toNat ∧
      t = { u with hub := { u.hub with pol := t.hub.pol } } ∧ smGet (0, 0) t.hub.pol c.val =
        (if F.HUB_POL_CFG_FILL.of v.toNat = 1 then (((min 16777216 (F.HUB_POL_CFG_BURST.of v.toNat) * 1000 : Nat) : Int), u.now) else (0, u.now))) ∧
  (∀ (w : Writer) (c : Ctx) (v : BitVec 64) (s : State), s.admits w .HUB_QSEL 0 →
    let bad : Prop := 495 < v.toNat % 512 ∨ 495 < v.toNat / 2 ^ 16 % 512
    (bad → exec (.hubQselWrite w c v) s = .next ((s.wakeFor w).respond .accessDenied)) ∧
    (¬bad → ∃ t, exec (.hubQselWrite w c v) s = .next t ∧ (s.wakeFor w).stored t .HUB_QSEL 0 c.val 0 v.toNat)) ∧
  ∀ (p : Port) (s : State),
    let n := s.fld F.PORT_EGR_CTL_SAMPLE p.val
    let l := s.link p.val
    (n = 0 ∨ s.now < l.sampleAt + n * 100 → exec (.queueSample p) s = .next s) ∧
    (n ≠ 0 → l.sampleAt + n * 100 ≤ s.now → ∃ t, exec (.queueSample p) s = .next t ∧ t.link p.val = { l with sampleAt := s.now } ∧ s.linksBut t p.val ∧
      (∀ q, q < 512 →
        let qs := smGet [] l.queues q
        t.fld F.PORT_Q_STAT_MAXDEPTH p.val q = max (s.fld F.PORT_Q_STAT_MAXDEPTH p.val q) (min 16777215 (qs.foldl (fun a x => a + x.pkt.flitCount) 0)) ∧
        t.fld F.PORT_Q_STAT_MAXDELAY p.val q = max (s.fld F.PORT_Q_STAT_MAXDELAY p.val q) (min 4294967295 ((qs.map (fun h => s.now - h.since)).headD 0))) ∧
      t = { s with regs := t.regs, links := t.links, evr := t.evr })

/-- Register writes and reads meet the window, the quarter and the writer, then store, clear or answer as the fields' access types say (R4, R5, R311, R348, R388, R412). -/
def Obligations.ConfigurationAccessesReachTheirRegister : Prop :=
  (∀ (w : Writer) (off : BitVec 26) (v : BitVec 64) (s : State),
    let s1 := s.wakeFor w
    let both (t : State) : Prop := exec (.registerWrite w off v) s = .next t ∧ exec (.rwlWrite w off v) s = .next t
    let read (t : State) : Prop := exec (.counterReadClear w off) s = .next t
    (s1.heldReset = true → both s1 ∧ read s1) ∧
    (s1.heldReset = false → regAt off.toNat = .outside → both (s1.respond .accessDenied) ∧ read (s1.respond .accessDenied)) ∧
    (s1.heldReset = false → regAt off.toNat = .unimplemented → s1.windowShut off.toNat = true → both (s1.respond .busy) ∧ read (s1.respond .busy)) ∧
    (s1.heldReset = false → regAt off.toNat = .unimplemented → s1.windowShut off.toNat = false →
      both (s1.respond (if s1.barred w then .accessDenied else .ok)) ∧ read (s1.respond .ok 0)) ∧
    ∀ r, s1.heldReset = false → regAt off.toNat = .reg r →
      (s1.windowShut off.toNat = true → both (s1.respond .busy) ∧ read (s1.respond .busy)) ∧
      (s1.windowShut off.toNat = false → ¬(r.reg = .INTC_SRC_CFG ∧ srcReserved r.i = true) →
        ∃ t, read t ∧ t.rsp = (.ok, BitVec.ofNat 64 (s1.regView r)) ∧
          (∀ f a, (f, a) ∈ r.reg.fields → t.fld f r.inst r.i r.j = if a = .rc then 0 else s1.fld f r.inst r.i r.j) ∧
          t = { s1 with regs := t.regs, rsp := t.rsp } ∧ s1.regsBut t [r.reg.addr r.inst r.i r.j]) ∧
      (s1.windowShut off.toNat = false → s1.blockOpen r.reg r.inst = true → r.inst = r.reg.home r.inst →
        (r.reg ∈ [RegName.GLB_SCRATCH, .XLT_CTL, .COH_CTL, .STN_MEND_CTL, .PORT_TIMERS, .HUB_CTL, .TL_CTL, .EVR_CTL, .PWR_CTL, .STK_BKT_OVF, .STK_LAYOUT] →
          s1.barred w = true → both (s1.respond .accessDenied)) ∧
        (r.reg ∈ [RegName.GLB_SCRATCH, .XLT_CTL, .COH_CTL, .STN_MEND_CTL, .PORT_TIMERS, .HUB_CTL, .TL_CTL, .EVR_CTL, .PWR_CTL] → s1.barred w = false →
          ∃ t, both t ∧ s1.stored t r.reg r.inst r.i r.j v.toNat) ∧
        (r.reg = .STK_BKT_OVF → s1.barred w = false →
          ∃ t, both t ∧ t = { s1 with regs := t.regs, rsp := (.ok, 0) } ∧ s1.regsBut t [r.reg.addr r.inst r.i r.j] ∧
            ∀ f a b, (f, a) ∈ r.reg.fields → (t.fld f r.inst r.i r.j).testBit b = ((s1.fld f r.inst r.i r.j).testBit b && !(f.of v.toNat).testBit b)) ∧
        (r.reg = .STK_LAYOUT → s1.barred w = false →
          let new := v.toNat &&& RegName.STK_LAYOUT.mask (fun a => a == .rwl)
          (new = s1.regVal .STK_LAYOUT → both (s1.respond .ok)) ∧
          (new ≠ s1.regVal .STK_LAYOUT → s1.fld F.SEC_LEDGER_LAYOUT_LEFT = 0 → both (s1.respond .accessDenied)) ∧
          (new ≠ s1.regVal .STK_LAYOUT → s1.fld F.SEC_LEDGER_LAYOUT_LEFT ≠ 0 → ∃ t, both t ∧ t.rsp = (.ok, 0) ∧ t.regVal .STK_LAYOUT = new ∧
            t.fld F.SEC_LEDGER_LAYOUT_LEFT = s1.fld F.SEC_LEDGER_LAYOUT_LEFT - 1 ∧
            t.fld F.SEC_LEDGER_DEBUG_LEFT = s1.fld F.SEC_LEDGER_DEBUG_LEFT ∧
            (∃ x, t.sec = { s1.sec with log := s1.sec.log ++ [x] } ∧ x.setting = .layout ∧ x.old = s1.regVal .STK_LAYOUT ∧ x.new = new) ∧
            s1.raised t 0x1C4 ∧ t = { s1 with regs := t.regs, sec := t.sec, intc := t.intc, rsp := t.rsp } ∧
            s1.regsBut t [RegName.STK_LAYOUT.addr 0 0 0, RegName.SEC_LEDGER.addr 0 0 0]))))

/-- CFG_RD and CFG_WR answer one CFG_RSP of their access; sideband frames with a good PEC access a register and answer with a PEC (R311, R312, R396). -/
def Obligations.ConfigurationPacketsAndSidebandFramesAnswer : Prop :=
  (∀ (p : Port) (k : Packet) (s : State), (k.typN ≠ 0x70 → exec (.cfgRd p k) s = .next s) ∧ (k.typN ≠ 0x71 → exec (.cfgWr p k) s = .next s)) ∧
  (∀ (p : Port) (k : Packet) (s : State), (p.val, k) ∈ s.hub.delivered →
    let s1 : State := { s with hub := { s.hub with delivered := s.hub.delivered.erase (p.val, k) } }
    let w := portWriter p.val
    let rd := s1.cfgRead w k.addr.toNat
    let wr := s1.writeAt w k.addr.toNat (BitVec.ofNat 64 (wordAt k.payload 0))
    let form : Prop := k.addr.toNat < 2 ^ 26 ∧ k.addr.toNat % 8 = 0 ∧ k.lenN % 8 = 0 ∧ 8 ≤ k.lenN ∧ k.lenN ≤ 64
    let answers (u t : State) (st : Status) (done : Nat) (data : List (BitVec 8)) : Prop := t = { u with links := t.links } ∧ u.linksBut t p.val ∧
      ∃ m, smGet [] (t.link p.val).queues 511 = smGet [] (u.link p.val).queues 511 ++ [⟨m, u.now⟩] ∧ m.dst = k.src ∧ m.src = k.dst ∧ m.tag = k.tag ∧
        m.typN = 0x72 ∧ m.w3.toNat = st.code + done * 16 ∧ m.payload = data
    (k.typN = 0x70 → ¬form → s.portLive p.val = true → ∃ t, exec (.cfgRd p k) s = .next t ∧ answers s1 t .accessDenied 0 []) ∧
    (k.typN = 0x71 → ¬form → s.portLive p.val = true → ∃ t, exec (.cfgWr p k) s = .next t ∧ answers s1 t .accessDenied 0 []) ∧
    (k.typN = 0x70 → form → k.lenN = 8 → rd.portLive p.val = true → ∃ t, exec (.cfgRd p k) s = .next t ∧
      if rd.rsp.1 = .ok then answers rd t .ok 1 (toBytes 8 rd.rsp.2.toNat) else answers rd t rd.rsp.1 0 []) ∧
    (k.typN = 0x71 → form → k.lenN = 8 → wr.portLive p.val = true → ∃ t, exec (.cfgWr p k) s = .next t ∧
      answers wr t wr.rsp.1 (if wr.rsp.1 = .ok then 1 else 0) [])) ∧
  ∀ (off : BitVec 32) (v : BitVec 64) (pec : Bool) (s : State),
    (s.heldReset = true ∨ pec = false → exec (.sidebandWrite off v pec) s = .next s ∧ exec (.sidebandRead off pec) s = .next s ∧
      exec (.sidebandStatus pec) s = .next s) ∧
    (s.heldReset = false → pec = true →
      let good : Prop := off.toNat < 2 ^ 26 ∧ off.toNat % 8 = 0
      let denied := (s.wakeFor .sideband).respond .accessDenied
      let a := 2 * (0x60 + s.power.straps % 8)
      let code (u : State) : BitVec 8 := BitVec.ofNat 8 (u.rsp.1.code + 128)
      let frame (u : State) (sent answer : List (BitVec 8)) : State := { u with wire := u.wire ++ [.frame (answer ++ [Machine.pec (sent ++ answer)])] }
      let said : List (BitVec 8) := [BitVec.ofNat 8 a, 0x11] ++ toBytes 4 off.toNat ++ [BitVec.ofNat 8 (a + 1)]
      (good → let u := s.writeAt .sideband off.toNat v
        exec (.sidebandWrite off v pec) s = .next { u with power := { u.power with smb := some u.rsp.1 } }) ∧
      (¬good → exec (.sidebandWrite off v pec) s = .next { denied with power := { denied.power with smb := some .accessDenied } }) ∧
      (good → let u := s.cfgRead .sideband off.toNat
        exec (.sidebandRead off pec) s = .next (frame u said (toBytes 8 u.rsp.2.toNat ++ [code u]))) ∧
      (¬good → exec (.sidebandRead off pec) s = .next (frame denied said (toBytes 8 0 ++ [code denied]))) ∧
      exec (.sidebandStatus pec) s = .next (frame (s.wakeFor .sideband) [BitVec.ofNat 8 a, 0x12, BitVec.ofNat 8 (a + 1)]
        [match s.power.smb with | some st => BitVec.ofNat 8 (st.code + 128) | none => 0]))

/-- Power-on, PORST_N, package and warm resets start again from the reset state but for what each keeps; bridges retrain or go down (R12, R13, R161, R387, R393, R401, R406, R407, R410). -/
def Obligations.ResetsLeaveWhatSurvivesThem : Prop :=
  let blank (s t : State) : Prop := t = { State.reset with
    pending := s.pending, wire := s.wire, free := s.free, rsp := s.rsp, regs := t.regs, coh := t.coh, now := t.now, time := t.time, tl := t.tl, intc := t.intc,
    evr := t.evr, pool := t.pool, stks := t.stks, sec := t.sec, power := t.power, tdm := t.tdm, start := t.start }
  let keeps (s t : State) (l : List RegName) : Prop := ∀ off r, regAt off = .reg r → r.reg ∈ l → ∀ d, smGet d t.regs off = smGet d s.regs off
  let loses (t : State) (l : List RegName) : Prop := ∀ off r, regAt off = .reg r → r.reg ∈ l → ∀ d, smGet d t.regs off = d
  let ledger : List RegName := [.STK_LAYOUT, .SEC_DEBUG, .SEC_VER, .SEC_LEDGER]
  let always : List RegName := [.EVR_CTL, .EVR_CURSOR, .EVR_CNT, .PWR_CTL, .PWR_LIMIT, .PWR_THERM, .PWR_LP_CTL, .GLB_IMG_BASE, .GLB_IMG_LEN]
  let units : List RegName := [.XLT_CTL, .XLT_SEG_ATTR, .XLT_CTX_BIND, .MOV_CH_CTX, .COH_CTL, .STK_CTL, .STN_LOOM_STAT, .PORT_CTL, .PORT_LNK_STAT,
    .HUB_CTL, .HUB_RT_DEF, .TL_CTL, .INTC_GRP_CFG, .CHK_CTL, .GLB_IMG_STAT]
  (∀ (s : State), ∃ t, exec .porstNAssert s = .next t ∧ t.heldReset = true ∧ blank s t ∧ t.coh = {} ∧ t.pool = {} ∧ t.stks = [] ∧ t.tl = {} ∧ t.intc = {} ∧
    t.tdm = {} ∧ t.start = {} ∧ t.now = 0 ∧ t.evr.slots = s.evr.slots ∧ t.sec.owner = s.sec.owner ∧ t.sec.log = s.sec.log ∧
    t.sec.retired = s.sec.retired ∧ keeps s t ledger ∧ loses t (.GLB_SCRATCH :: .GLB_STAT :: .STK_LAYOUT_CUR :: always ++ units)) ∧
  (∀ (straps : BitVec 3) (torn : List (BitVec 14 × BitVec 2048)) (s : State),
    (s.power.porst = false → exec (.powerOnReset straps torn) s = .next s) ∧
    (s.power.porst = true → ∃ t, exec (.powerOnReset straps torn) s = .next t ∧ t.heldReset = false ∧ t.power.straps = straps.toNat ∧
      t.fld F.GLB_STAT_STEP = 1 ∧ t.fld F.PWR_STATPIN_CODE = 1 ∧ t.flag F.GLB_STAT_READY = false ∧ t.fld F.GLB_RST_STAT_PKG_CAUSE = 0 ∧
      t.fld F.TDM_ROLE_MODE = 1 ∧ t.tdm = { up := 3 } ∧ t.evr.pcyc = (s.evr.pcyc + 1) % 2 ^ 32 ∧ t.now = 0 ∧ t.pool = {} ∧ t.coh = {} ∧ blank s t ∧
      t.regVal .STK_LAYOUT_CUR = layoutActs (s.regVal .STK_LAYOUT) ∧ keeps s t ledger ∧ loses t (.GLB_SCRATCH :: units))) ∧
  (let boots (s t : State) (cause : Nat) : Prop := t.fld F.GLB_STAT_STEP = 2 ∧ t.fld F.GLB_RST_STAT_PKG_CAUSE = cause ∧
      t.fld F.GLB_RST_STAT_PKGS = min (s.fld F.GLB_RST_STAT_PKGS + 1) (2 ^ F.GLB_RST_STAT_PKGS.width - 1) ∧ t.fld F.TDM_ROLE_MODE = 1 ∧
      t.tdm = { up := 3 } ∧ t.now = s.now ∧ t.evr = s.evr ∧ t.time.off = s.time.off ∧ t.pool = {} ∧ t.coh = {} ∧ t.stks = [] ∧ t.tl = {} ∧ t.intc = {} ∧
      blank s.downNotices t ∧ t.sec.owner = s.sec.owner ∧ keeps s t (ledger ++ always) ∧ loses t (.GLB_SCRATCH :: units);
    (∀ (s : State), (s.heldReset = true → exec .packageReset s = .next s) ∧
      (s.heldReset = false → ∃ t, exec .packageReset s = .next t ∧ boots s t 4)) ∧
    ∀ (w : Writer) (q : Quarter) (confirm : BitVec 8) (s : State), s.admits w .GLB_RST_CMD 0 →
      let s1 := s.wakeFor w
      let taken (u : State) : State := { u with start := { u.start with cmdAt := some u.now }, rsp := (.ok, 0) }
      let all (u : State) : Prop := exec (.packageResetCmd w confirm) s = .next u ∧ exec (.warmResetCmd w confirm) s = .next u ∧
        exec (.quarterResetCmd w q confirm) s = .next u
      (w ∉ [.tl0, .tl1, .sideband] ∨ confirm ≠ 0xA5 → all (s1.respond .accessDenied)) ∧
      (w ∈ [.tl0, .tl1, .sideband] → confirm = 0xA5 → s1.start.cmdAt = some s1.now → all (s1.respond .busy)) ∧
      (w ∈ [.tl0, .tl1, .sideband] → confirm = 0xA5 → s1.start.cmdAt ≠ some s1.now →
        (∃ u, exec (.packageResetCmd w confirm) s = .next (taken u) ∧ boots s1 u 5) ∧
        (s1.flag F.GLB_STAT_READY = false ∨ s1.start.warm = true →
          exec (.warmResetCmd w confirm) s = .next (s1.respond .busy) ∧ exec (.quarterResetCmd w q confirm) s = .next (s1.respond .busy)) ∧
        (s1.flag F.GLB_STAT_READY = true → s1.start.warm = false →
          exec (.warmResetCmd w confirm) s = .next (taken s1.beginWarm) ∧
          exec (.quarterResetCmd w q confirm) s = .next (taken (s1.beginQuarter q.val 4 false)) ∧
          (s1.quarterDown q.val = true → exec (.quarterResetCmd w q confirm) s = .next (taken s1))))) ∧
  (∀ (kept : Bool) (s : State),
    let may : Prop := s.start.warm = true ∧ s.heldReset = false ∧ s.scopeQuiet (fun _ => true) = true
    let u := (s.parkStacks (fun _ => true)).downNotices
    (¬may → exec (.warmStart kept) s = .next s) ∧
    (may → ∃ t, exec (.warmStart kept) s = .next t ∧ t.fld F.GLB_STAT_STEP = 1 ∧ t.flag F.GLB_STAT_WARM = true ∧ t.flag F.GLB_STAT_READY = false ∧
      t.fld F.GLB_STAT_QHOLD = u.fld F.GLB_STAT_QHOLD ∧ t.start = { kept := if kept then u.start.kept else none } ∧ t.tdm = { up := 3 } ∧
      t.pool = u.pool ∧ t.coh = { lost := u.coh.lost } ∧ t.evr = u.evr ∧ t.now = u.now ∧ blank u t ∧
      keeps u t (.GLB_SCRATCH :: .SEC_CTL :: .STK_STAT :: .STK_LAYOUT_CUR :: ledger ++ always) ∧
      loses t [.XLT_CTL, .XLT_SEG_ATTR, .COH_CTL, .PORT_CTL, .PORT_LNK_STAT, .HUB_CTL, .INTC_GRP_CFG, .GLB_IMG_STAT])) ∧
  ∀ (b : Fin 4) (s : State),
    let n := smGet 0 s.power.bridgeFails b.val + 1
    (∃ t : State, exec (.bridgeRetrain b) s = .next t.settle ∧ t = { s with power := t.power } ∧ smGet 0 t.power.bridgeFails b.val = 0 ∧
      t.power.bridgeDown = s.power.bridgeDown &&& (15 - 2 ^ b.val)) ∧
    (s.heldReset = true ∨ s.power.bridgeDown.testBit b.val = true → exec (.bridgeRetrainFailure b) s = .next s) ∧
    (s.heldReset = false → s.power.bridgeDown.testBit b.val = false →
      (n < 3 → ∃ t, exec (.bridgeRetrainFailure b) s = .next t ∧ t = { s with power := t.power } ∧ smGet 0 t.power.bridgeFails b.val = n ∧
        t.power.bridgeDown = s.power.bridgeDown) ∧
      (3 ≤ n → ∃ u, exec (.bridgeRetrainFailure b) s = .next u.cutOff.settle ∧ u.power.bridgeDown.testBit b.val = true ∧
        smGet 0 u.power.bridgeFails b.val = 0 ∧ s.raised u (0x1B0 + b.val) ∧
        u = { s with power := u.power, regs := u.regs, tl := u.tl, intc := u.intc } ∧ s.regsBut u [RegName.TL_EVT_STAT.addr 0 0 0]))

/-- Start-up boots verified firmware, holds, loads or refuses an image, waits, and takes quarters back (R337, R401, R403, R404, R405, R409). -/
def Obligations.StartUpVerifiesLoadsAndReturns : Prop :=
  (∀ (c : Fin 2) (s : State),
    let up := s.tdm.up
    let ver := s.tdm.verified ||| 2 ^ c.val
    let may : Prop := s.heldReset = false ∧ s.fld F.GLB_STAT_STEP = 3 ∧ up.testBit c.val = true ∧ s.tdm.verified.testBit c.val = false
    let own : Prop := s.fwBoots (s.sec.fw.getD Config.shippedFw) = true
    let alt : Prop := s.sec.fwPrev.isSome = true ∧ s.fwBoots (s.sec.fwPrev.getD []) = true
    (¬may → exec (.firmwareVerificationEnd c) s = .next s) ∧
    (may → own ∨ alt → ∃ t, exec (.firmwareVerificationEnd c) s = .next t ∧ t.tdm = { s.tdm with verified := ver } ∧
      (own → t.fld F.GLB_STAT_FW_ALT = s.fld F.GLB_STAT_FW_ALT) ∧ (¬own → t.fld F.GLB_STAT_FW_ALT = 1) ∧
      t.fld F.GLB_STAT_STEP = (if up = ver then 4 else 3) ∧
      (up = ver → ∀ p ∈ [12, 13], s.quarterDown (portQuarter p) = false → t.fld F.PORT_CTL_EN p = 1 ∧ t.fld F.PORT_CTL_ROLE p = 0) ∧
      t = { s with tdm := t.tdm, regs := t.regs, sec := t.sec }) ∧
    (may → ¬own → ¬alt → up = 2 ^ c.val → ∃ t, exec (.firmwareVerificationEnd c) s = .next t ∧ t.tdm = { s.tdm with up := 0 } ∧
      t.fld F.PWR_STATPIN_CODE = 14 ∧ t.fld F.GLB_STAT_STEP = 3 ∧ t = { s with tdm := t.tdm, regs := t.regs } ∧
      s.regsBut t [RegName.PWR_STATPIN.addr 0 0 0])) ∧
  (∀ (w : Writer) (img : Option (List (BitVec 8))) (s : State), w ≠ .image → s.admits w .GLB_IMG_CMD 0 →
    let s1 := s.wakeFor w
    (8 ≤ s1.fld F.GLB_STAT_STEP ∨ s1.start.run ≠ none → exec (.imageLoad w img) s = .next (s1.respond .accessDenied)) ∧
    (s1.fld F.GLB_STAT_STEP < 7 → s1.start.run = none →
      exec (.imageLoad w img) s = .next { s1 with start := { s1.start with held := some img }, rsp := (.ok, 0) }) ∧
    (s1.fld F.GLB_STAT_STEP = 7 → s1.start.run = none → exec (.imageLoad w img) s = .next ((s1.hostLoad img).respond .ok) ∧
      (img = none → ∃ t, exec (.imageLoad w img) s = .next t ∧ t.flag F.GLB_STAT_WAIT_IMG = true ∧ t.fld F.GLB_STAT_IMG_CAUSE = 5 ∧
        t.fld F.PWR_STATPIN_CODE = 10 ∧ t.start.run = none ∧ t.rsp = (.ok, 0)))) ∧
  (∀ (img : Option (List (BitVec 8))) (s : State),
    let due : Prop := s.fld F.GLB_STAT_STEP = 7 ∧ s.start.run = none ∧ s.flag F.GLB_STAT_WAIT_IMG = false ∧ s.autoLoad = true
    (due → exec (.imageLoad .image img) s = .next (s.hostLoad img)) ∧ (¬due → exec (.imageLoad .image img) s = .next s)) ∧
  (∀ (s : State),
    (∀ r a t, s.start.run = some r → r.pollAt = some (a, t) →
      (t ≤ s.now → exec .imagePollRetry s = .next (State.runImage { s with start := { s.start with run := none } } r)) ∧
      (s.now < t → exec .imagePollRetry s = .next s)) ∧
    (s.start.run = none → exec .imagePollRetry s = .next s) ∧
    (s.flag F.GLB_STAT_WAIT_IMG = true → s.start.waitAt + 1000000000 ≤ s.now →
      exec .waitImageSleep s = .next ((List.range 16).foldl State.startSleep s)) ∧
    (s.flag F.GLB_STAT_WAIT_IMG = false ∨ s.now < s.start.waitAt + 1000000000 → exec .waitImageSleep s = .next s)) ∧
  (∀ (s : State) (r : ImgRun) (e n : Nat),
    let w0 := (imgEntry r.bytes e).1
    let v := (imgEntry r.bytes e).2
    let off := w0 % 2 ^ 26
    let igen := wordAt r.bytes 16 % 2 ^ 32
    (w0 / 2 ^ 26 % 4 = 0 → imgRefused off = true → s.applyImage r e (n + 1) = (s.respond .accessDenied).failImage 6 e 10 igen r.kept) ∧
    (w0 / 2 ^ 26 % 4 = 0 → imgRefused off = false → (s.imgWrite off v).rsp.1 = .ok → s.applyImage r e (n + 1) = (s.imgWrite off v).applyImage r (e + 1) n)) ∧
  ∀ (q : Quarter) (r : QuarterUp) (s : State),
    let may : Prop := s.heldReset = false ∧ s.awaited q.val = true ∧ s.start.prep.testBit q.val = false ∧ s.start.warm = false
    let n := smGet 0 s.start.fails q.val + 1
    (¬may → exec (.quarterReturn q r) s = .next s) ∧
    (may → r.ok = true → s.reaches q.val = true → exec (.quarterReturn q r) s = .next ((s.cameBack q.val r).rejoin q.val)) ∧
    ((s.cameBack q.val r).fld F.GLB_STAT_QRST).testBit q.val = false ∧ smGet 0 (s.cameBack q.val r).start.fails q.val = 0 ∧
    (∀ i, i < 4 → (s.cameBack q.val r).flag F.STK_SELFTEST_DONE (4 * q.val + i) = true) ∧
    (may → r.ok = false ∨ s.reaches q.val = false →
      ∃ t, exec (.quarterReturn q r) s = .next t ∧ t.start = { s.start with fails := smSet 0 s.start.fails q.val n } ∧
        (n < 3 → t = { s with start := t.start }) ∧
        (3 ≤ n → (t.fld F.GLB_STAT_QHOLD).testBit q.val = true ∧ ∀ i, i < 4 → (t.stk (4 * q.val + i)).missing = true))

/-- Rail faults, input faults, the cap loop, limiter, trip and clock losses read, count, raise and act as their tables say (R374, R375, R376, R377, R378, R379, R380, R384). -/
def Obligations.RailsInputTemperaturesAndClocksAct : Prop :=
  (∀ (r : Fin 48) (mv : BitVec 16) (v : BitVec 13) (watts : BitVec 12) (die temp : BitVec 8) (q : Quarter) (x : Stack) (d : Fin 60) (mean : Nat) (s : State),
    s.heldReset = true → ∀ c ∈ [Instr.railFault r mv, .inputUndervoltage v, .inputOvervoltage v, .inputBrownout v, .inputOverlimit v, .inputRecover v,
      .powerLoop watts die q, .limiterEngage mean, .limiterRelease mean, .thermalTrip die q x temp, .thermalTripLift die q x temp, .lockLoss d,
      .referenceLoss, .holdoverEnd], exec c s = .next s) ∧
  (∀ (r : Fin 48) (mv : BitVec 16) (s : State), s.heldReset = false →
    let n := railNominal r.val
    let set := max (n * 9 / 10) (min (n * 11 / 10) (s.fld F.PWR_RAIL_SET_MV 0 r.val))
    let under : Prop := mv.toNat * 20 < set * 19
    let above : Prop := set * 21 < mv.toNat * 20
    let shows (u : State) : Prop := u.fld F.PWR_RAIL_MEAS_MV 0 r.val = mv.toNat ∧ (u.fld F.PWR_RAIL_UV 0 r.val = 1 ↔ under) ∧
      (u.fld F.PWR_RAIL_OV 0 r.val = 1 ↔ above) ∧ u.fld F.PWR_RAIL_SET_MV 0 r.val = s.fld F.PWR_RAIL_SET_MV 0 r.val
    (¬under → ¬above → ∃ t, exec (.railFault r mv) s = .next t ∧ shows t ∧ t.fld F.PWR_RAIL_FAULT 0 r.val = s.fld F.PWR_RAIL_FAULT 0 r.val ∧
      t = { s with regs := t.regs } ∧ s.regsBut t [RegName.PWR_RAIL.addr 0 r.val 0]) ∧
    (under ∨ above → ∃ u t, exec (.railFault r mv) s = .next t ∧ shows u ∧ u.fld F.PWR_RAIL_FAULT 0 r.val = 1 ∧ s.raised u 0x1D5 ∧
      u = { s with regs := u.regs, tl := u.tl, intc := u.intc } ∧ s.regsBut u [RegName.PWR_RAIL.addr 0 r.val 0, RegName.TL_EVT_STAT.addr 0 0 0] ∧
      (r.val < 16 → t = u.beginQuarter (r.val % 4) 1 (decide (r.val < 4 ∨ 12 ≤ r.val))) ∧
      (16 ≤ r.val → r.val < 32 → t = (u.failStack (r.val - 16)).settle) ∧ (32 ≤ r.val → r.val < 46 → t = u.portDown (r.val - 32) 1 false) ∧
      (r.val = 46 → t = u.powerOn 3 []) ∧ (r.val = 47 → t = u.packageReset 6))) ∧
  (∀ (v : BitVec 13) (s : State), s.heldReset = false →
    let reads (t : State) : Prop := t.fld F.PWR_STAT_V_IN = v.toNat ∧ t.fld F.PWR_STAT_P_IN_W = s.fld F.PWR_STAT_P_IN_W ∧ t = { s with regs := t.regs } ∧
      s.regsBut t [RegName.PWR_STAT.addr 0 0 0]
    let uv := s.fld F.PWR_STAT_UV
    let ov := s.fld F.PWR_STAT_OV
    (∃ t, exec (.inputUndervoltage v) s = .next t ∧ reads t ∧ t.fld F.PWR_STAT_OV = ov ∧ t.fld F.PWR_STAT_UV = if v.toNat < 3000 then 1 else uv) ∧
    (∃ t, exec (.inputOvervoltage v) s = .next t ∧ reads t ∧ t.fld F.PWR_STAT_UV = uv ∧ t.fld F.PWR_STAT_OV = if 4200 < v.toNat then 1 else ov) ∧
    (∃ t, exec (.inputRecover v) s = .next t ∧ reads t ∧ t.fld F.PWR_STAT_UV = (if 3000 ≤ v.toNat ∧ v.toNat ≤ 4200 then 0 else uv) ∧
      t.fld F.PWR_STAT_OV = if 3000 ≤ v.toNat ∧ v.toNat ≤ 4200 then 0 else ov) ∧
    (v.toNat < 2700 → ∃ t, exec (.inputBrownout v) s = .next t ∧ t.heldReset = true ∧ t.power.off = true ∧ t.fld F.GLB_RST_STAT_PKG_CAUSE = 1 ∧
      t.pool = {} ∧ t.links = [] ∧ t.sec.log = s.sec.log ∧ t.evr.slots = s.evr.slots) ∧
    (2700 ≤ v.toNat → ∃ t, exec (.inputBrownout v) s = .next t ∧ reads t ∧ t.fld F.PWR_STAT_UV = uv ∧ t.fld F.PWR_STAT_OV = ov) ∧
    (4500 < v.toNat → ∃ t, exec (.inputOverlimit v) s = .next t ∧ t.heldReset = true ∧ t.power.off = true ∧ t.fld F.GLB_RST_STAT_PKG_CAUSE = 2 ∧
      t.pool = {} ∧ t.links = [] ∧ t.sec.log = s.sec.log ∧ t.evr.slots = s.evr.slots) ∧
    (v.toNat ≤ 4500 → ∃ t, exec (.inputOverlimit v) s = .next t ∧ reads t ∧ t.fld F.PWR_STAT_UV = uv ∧ t.fld F.PWR_STAT_OV = ov)) ∧
  (∀ (s : State),
    let may : Prop := s.power.off = true ∧ s.power.porst = false ∧ s.fld F.GLB_RST_STAT_PKG_CAUSE = 1
    (may → ∃ t, exec .inputRestart s = .next t ∧ t = s.powerOn 1 [] ∧ t.heldReset = false ∧ t.fld F.GLB_STAT_STEP = 1) ∧
    (¬may → exec .inputRestart s = .next s)) ∧
  (∀ (watts : BitVec 12) (die : BitVec 8) (q : Quarter) (s : State), s.heldReset = false →
    let due : Prop := s.power.loopAt + max 1 (s.fld F.PWR_CTL_PERIOD_US) * 1000 ≤ s.now
    (¬due → exec (.powerLoop watts die q) s = .next s) ∧
    (due → ∃ u, u.fld F.PWR_STAT_P_IN_W = watts.toNat ∧ u.fld F.PWR_TEMP_DIE_MAX = die.toNat ∧ u.fld F.PWR_TEMP_DIE_Q = q.val ∧
      (u.fld F.PWR_STAT_OVERCAP = 1 ↔ s.capW < watts.toNat) ∧ u.power = { s.power with loopAt := s.now } ∧
      u = { s with regs := u.regs, power := u.power } ∧ s.regsBut u [RegName.PWR_STAT.addr 0 0 0, RegName.PWR_TEMP.addr 0 0 0] ∧
      exec (.powerLoop watts die q) s = .next (if s.fld F.TDM_ROLE_MODE = 0 ∧ s.flag F.GLB_STAT_READY = true ∧ s.power.deep ≠ 2 then u.capLoop watts.toNat else u))) ∧
  (∀ (s : State) (p : Nat), s.capW < p →
    (s.capLoop p).level = min 21 (s.level + max 1 ((p - s.capW + max 1 (s.fld F.PWR_CTL_STEP_W) - 1) / max 1 (s.fld F.PWR_CTL_STEP_W)))) ∧
  (∀ (mean : Nat) (s : State), s.heldReset = false →
    let max_w := min 2100 (s.fld F.PWR_LIMIT_MAX_W)
    (∃ t, exec (.limiterEngage mean) s = .next t ∧ t.fld F.PWR_LEVEL_LIMIT = (if max_w < mean then 1 else s.fld F.PWR_LEVEL_LIMIT) ∧ t.level = s.level ∧
      t = { s with regs := t.regs } ∧ s.regsBut t [RegName.PWR_LEVEL.addr 0 0 0]) ∧
    (∃ t, exec (.limiterRelease mean) s = .next t ∧ t.fld F.PWR_LEVEL_LIMIT = (if mean + 100 < max_w then 0 else s.fld F.PWR_LEVEL_LIMIT) ∧
      t.level = s.level ∧ t = { s with regs := t.regs } ∧ s.regsBut t [RegName.PWR_LEVEL.addr 0 0 0])) ∧
  (∀ (die temp : BitVec 8) (q : Quarter) (x : Stack) (s : State), s.heldReset = false →
    let u := s.readTemps die.toNat q.val x.val temp.toNat
    let hot : Prop := min 115 (u.fld F.PWR_THERM_DIE_TRIP_C) < die.toNat ∨ min 105 (u.fld F.PWR_THERM_STK_TRIP_C) < temp.toNat
    let cool : Prop := die.toNat + 10 ≤ min 115 (u.fld F.PWR_THERM_DIE_TRIP_C) ∧ u.fld F.PWR_TEMP_STK_MAX + 10 ≤ min 105 (u.fld F.PWR_THERM_STK_TRIP_C)
    (hot → u.flag F.PWR_LEVEL_TRIP = false → ∃ t, exec (.thermalTrip die q x temp) s = .next t ∧ t.flag F.PWR_LEVEL_TRIP = true ∧ u.raised t 0x1D9 ∧
      t = { u with regs := t.regs, tl := t.tl, intc := t.intc } ∧ u.regsBut t [RegName.PWR_LEVEL.addr 0 0 0, RegName.TL_EVT_STAT.addr 0 0 0]) ∧
    (¬hot ∨ u.flag F.PWR_LEVEL_TRIP = true → exec (.thermalTrip die q x temp) s = .next u) ∧
    (cool → ∃ t, exec (.thermalTripLift die q x temp) s = .next t ∧ t.flag F.PWR_LEVEL_TRIP = false ∧ t = { u with regs := t.regs } ∧
      u.regsBut t [RegName.PWR_LEVEL.addr 0 0 0]) ∧
    (¬cool → exec (.thermalTripLift die q x temp) s = .next u)) ∧
  (∀ (d : Fin 60) (s : State), s.heldReset = false →
    (d.val = 0 → exec (.lockLoss d) s = .next s) ∧
    (d.val ≠ 0 → ∃ u t, exec (.lockLoss d) s = .next t ∧
      u.fld F.CLK_DOM_LOSSES 0 d.val = min (s.fld F.CLK_DOM_LOSSES 0 d.val + 1) (2 ^ F.CLK_DOM_LOSSES.width - 1) ∧ s.raised u 0x1D6 ∧
      u = { s with regs := u.regs, tl := u.tl, intc := u.intc } ∧ s.regsBut u [RegName.CLK_DOM.addr 0 d.val 0, RegName.TL_EVT_STAT.addr 0 0 0] ∧
      (d.val < 13 → t = u.beginQuarter ((d.val - 1) % 4) 2 (decide (9 ≤ d.val))) ∧ (13 ≤ d.val → d.val < 29 → t = (u.failStack (d.val - 13)).settle) ∧
      (29 ≤ d.val → d.val < 45 → t = (u.failStack (d.val - 29)).settle) ∧ (45 ≤ d.val → d.val < 59 → t = u.portDown (d.val - 45) 1 false) ∧
      (d.val = 59 → t = u.packageReset 7))) ∧
  ∀ (s : State), s.heldReset = false →
    (s.flag F.CLK_STAT_HOLDOVER = true → exec .referenceLoss s = .next s) ∧
    (s.flag F.CLK_STAT_HOLDOVER = false → ∃ t, exec .referenceLoss s = .next t ∧ t.flag F.CLK_STAT_REF_OK = false ∧ t.flag F.CLK_STAT_HOLDOVER = true ∧
      t.locked = false ∧ t.intc.pend.getLsbD 0x1DA = true ∧ t = { s with regs := t.regs, tl := t.tl, intc := t.intc, links := t.links }) ∧
    ∃ t, exec .holdoverEnd s = .next t ∧ t.flag F.CLK_STAT_REF_OK = true ∧ t.flag F.CLK_STAT_HOLDOVER = false ∧ t = { s with regs := t.regs } ∧
      s.regsBut t [RegName.CLK_STAT.addr 0 0 0]

/-- Freewheel gates an idle quarter, deep idle is entered or waited for, every wake trigger ends both, and the pins answer (R31, R33, R358, R385, R386, R396, R397). -/
def Obligations.LowPowerWakesAndPins : Prop :=
  (∀ (q : Quarter) (s : State),
    let may : Prop := s.flag F.PWR_LP_CTL_FW_EN = true ∧ s.closed q.val = false ∧ s.sitesIdle q.val = true ∧
      smGet 0 s.power.busyAt q.val + s.fld F.PWR_LP_CTL_FW_US * 1000 ≤ s.now ∧ s.power.deep = 0 ∧
      s.flag F.GLB_STAT_READY = true ∧ s.heldReset = false
    (¬may → exec (.freewheelEntry q) s = .next s) ∧
    (may → ∃ t, exec (.freewheelEntry q) s = .next t ∧ (∀ j, j < 4 → (t.fld F.PWR_LP_STAT_GATED).testBit j =
        (decide (j = q.val) || (s.fld F.PWR_LP_STAT_GATED).testBit j)) ∧ t.fld F.PWR_LP_STAT_WAKES = s.fld F.PWR_LP_STAT_WAKES ∧
      t = { s with regs := t.regs } ∧ s.regsBut t [RegName.PWR_LP_STAT.addr 0 0 0])) ∧
  (∀ (s : State),
    let ns := max 1 (s.fld F.PWR_LP_CTL_DEEP_MS) * 1000000
    let may : Prop := s.flag F.PWR_LP_CTL_DEEP_EN = true ∧ s.deepReady = true ∧ s.power.idleFrom + ns ≤ s.now ∧
      ∀ p, p < 14 → (s.link p).busyAt = 0 ∨ (s.link p).busyAt + ns ≤ s.now
    (may → exec .deepIdleEntry s = .next s.enterDeep) ∧ (¬may → exec .deepIdleEntry s = .next s) ∧
    ((∀ p, p < 14 → s.portUp p = false) → s.enterDeep.power.deep ∈ [1, 2])) ∧
  (∀ (w : Writer) (s : State), s.admits w .PWR_LP_CMD 0 →
    let s1 := s.wakeFor w
    (s1.deepReady = true → exec (.deepCmd w) s = .next (s1.enterDeep.respond .ok)) ∧
    (s1.deepReady = false → ∃ t, exec (.deepCmd w) s = .next t ∧ t.flag F.PWR_LP_STAT_WAITING = true ∧ t.rsp = (.ok, 0) ∧
      t = { s1 with regs := t.regs, rsp := t.rsp } ∧ s1.regsBut t [RegName.PWR_LP_STAT.addr 0 0 0]) ∧
    ∃ t, exec (.deepCancel w) s = .next t ∧ t.flag F.PWR_LP_STAT_WAITING = false ∧ t.rsp = (.ok, 0) ∧
      t = { s1 with regs := t.regs, rsp := t.rsp } ∧ s1.regsBut t [RegName.PWR_LP_STAT.addr 0 0 0]) ∧
  (∀ (c : WakeCause) (s : State), s.heldReset = true → exec (.wakeTrigger c) s = .next s) ∧
  (∀ (s : State), s.heldReset = false →
    s.wakeDevice.power.deep = 0 ∧ s.wakeDevice.fld F.PWR_LP_STAT_GATED = 0 ∧
    exec (.wakeTrigger .sideband) s = .next s.wakeDevice ∧
    (∀ p, exec (.wakeTrigger (.packet p)) s = .next (if s.flag F.PORT_CTL_LISTEN p.val = true then s.wakeDevice.wakePort p.val else s)) ∧
    (∀ p, exec (.wakeTrigger (.thrumlink p)) s =
      .next (if s.flag F.PORT_CTL_LISTEN p.val = true ∨ s.portUp p.val = true then s.wakeDevice.wakePort p.val else s)) ∧
    (∀ p, p < 14 → s.portState p = 5 → (s.wakeDevice.wakePort p).portState p = 6) ∧
    ∀ n,
      let g := s.fld F.INTC_SRC_CFG_GRP 0 n.val
      let wakes : Prop := s.flag F.INTC_SRC_CFG_EN 0 n.val = true ∧ s.srcPending n.val = true ∧ s.groupDelivers g = true
      (¬wakes → exec (.wakeTrigger (.source n)) s = .next s) ∧
      (wakes → s.fld F.INTC_GRP_CFG_TGT 0 g ≠ 2 → exec (.wakeTrigger (.source n)) s = .next s.wakeDevice) ∧
      (wakes → s.fld F.INTC_GRP_CFG_TGT 0 g = 2 → ∀ p, s.wakeDevice.streamPort = some p →
        exec (.wakeTrigger (.source n)) s = .next (s.wakeDevice.wakePort p))) ∧
  ∀ (s : State),
    (s.power.tamper = true → exec .tamper s = .next s) ∧
    (s.power.tamper = false → ∃ t, exec .tamper s = .next t ∧ t.power = { s.power with tamper := true } ∧
      t = { s with power := t.power, regs := t.regs, tl := t.tl } ∧ s.regsBut t [RegName.TL_EVT_STAT.addr 0 0 0] ∧
      (s.heldReset = true → t.tl = s.tl) ∧
      (s.heldReset = false → s.tl.events.length < 1024 → ∃ e, t.tl.events = s.tl.events ++ [e] ∧ e.src = srcPower ∧ e.cls = 5)) ∧
    exec .tamperNRelease s = .next { s with power := { s.power with tamper := false } } ∧
    (s.alertN = true →
      let b := BitVec.ofNat 8 (2 * (0x60 + s.power.straps % 8))
      exec .alertResponse s = .next { s with wire := s.wire ++ [.frame [b, pec [0x19, b]]] }) ∧
    (s.alertN = false → exec .alertResponse s = .next s) ∧
    ∀ i : TapCode, ∃ t, exec (.tapInstruction i) s = .next t ∧ t = { s with power := { s.power with tap := t.power.tap } } ∧
      (i ∈ [.bypass, .idcode, .samplePreload] → t.power.tap = i) ∧
      (i = .extest → t.power.tap = if s.flag F.SEC_STAT_CONF = true then .bypass else i) ∧
      (∀ n, i = .other n → t.power.tap = if s.flag F.SEC_STAT_CONF = false ∧ s.flag F.SEC_STAT_DEBUG_EFF = true then i else .bypass)

/-- Class A actions are applied, journalled or stale; roles move by switch-over and handover; the lease is taken, renewed and expires (R388, R389, R390, R391, R392, R393, R394, R399). -/
def Obligations.TandemActsAndMovesRoles : Prop :=
  (∀ (c : Fin 2) (v : BitVec 64) (s : State), s.heldReset = false → s.mayAct c.val = true →
    let w : Writer := if c.val = 0 then .coreQ0 else .coreQ3
    let aseq := s.fld F.TDM_ACT0_ASEQ 0 c.val
    let off := s.fld F.TDM_ACT0_OFFSET 0 c.val
    let old := s.fld F.TDM_ASEQ_APPLIED
    let classA : List RegName := [.PWR_LEVEL, .PWR_RAIL, .PWR_FAN, .PWR_STATPIN, .STN_THROT, .STK_THROT]
    (∀ x : Writer, writerCore x = some (1 - c.val) → exec (.action x c v) s = .next (s.respond .accessDenied)) ∧
    (∀ r, regAt off = .reg r → r.reg ∉ classA → r.reg ≠ .INTC_GRP_CMPL → exec (.action w c v) s = .next (s.respond .accessDenied)) ∧
    (∀ r, regAt off = .reg r → r.reg = .INTC_GRP_CMPL → 8 ≤ v.toNat % 32 → exec (.action w c v) s = .next (s.respond .accessDenied)) ∧
    (∀ r, regAt off = .reg r → r.reg ∈ classA → ¬(r.reg = .PWR_STATPIN ∧ v.toNat % 16 = 15) →
      (s.blockOpen r.reg r.inst = false → exec (.action w c v) s = .next (s.respond .busy)) ∧
      (s.blockOpen r.reg r.inst = true → (aseq + 2 ^ 32 - old) % 2 ^ 32 < 2 ^ 31 →
        ∃ t, exec (.action w c v) s = .next t ∧ t.fld F.TDM_ASEQ_APPLIED = aseq ∧ t.rsp = (.ok, 0) ∧
          (∀ f a, (f, a) ∈ r.reg.fields → accRW a = true → t.fld f r.inst r.i r.j = f.of v.toNat) ∧
          t.fld F.TDM_JRNL_A_ASEQ 0 (s.tdm.jrnl % 64) = aseq ∧ t.fld F.TDM_JRNL_A_OFFSET 0 (s.tdm.jrnl % 64) = off ∧
          t.regVal .TDM_JRNL_V 0 (s.tdm.jrnl % 64) = v.toNat ∧ t.tdm = { s.tdm with jrnl := s.tdm.jrnl + 1, actAt := s.now, newCapt := t.tdm.newCapt } ∧
          (s.fld F.TDM_ROLE_CAPT = c.val → t.tdm.newCapt = false) ∧
          t = { s with regs := t.regs, tdm := t.tdm, power := t.power, tl := t.tl, intc := t.intc, rsp := t.rsp } ∧
          s.regsBut t [r.reg.addr r.inst r.i r.j, RegName.TDM_ASEQ.addr 0 0 0, RegName.TDM_JRNL_A.addr 0 (s.tdm.jrnl % 64) 0,
            RegName.TDM_JRNL_V.addr 0 (s.tdm.jrnl % 64) 0, RegName.TL_EVT_STAT.addr 0 0 0]) ∧
      (s.blockOpen r.reg r.inst = true → 2 ^ 31 ≤ (aseq + 2 ^ 32 - old) % 2 ^ 32 →
        ∃ t, exec (.action w c v) s = .next t ∧ t.rsp = (.ok, 0) ∧ s.raised t 0x1CA ∧
          t.fld F.TDM_STAT_STALE = min (s.fld F.TDM_STAT_STALE + 1) (2 ^ F.TDM_STAT_STALE.width - 1) ∧
          t = { s with regs := t.regs, tl := t.tl, intc := t.intc, rsp := t.rsp } ∧
          s.regsBut t [RegName.TDM_STAT.addr 0 0 0, RegName.TL_EVT_STAT.addr 0 0 0]))) ∧
  (∀ (w : Writer) (s : State), s.beatLost = false → s.admits w .TDM_HB 0 →
    (writerCore w = some (s.fld F.TDM_ROLE_CAPT) → s.fld F.TDM_ROLE_MODE = 0 →
      exec (.heartbeat w) s = .next { s with tdm := { s.tdm with beatAt := s.now, missed := 0 }, rsp := (.ok, 0) }) ∧
    (writerCore w = none → exec (.heartbeat w) s = .next ((s.wakeFor w).respond .ok))) ∧
  (∀ (s : State),
    (s.beatLost = true → exec .heartbeatMiss s = .next (s.switchOver 1)) ∧ (s.beatLost = false → exec .heartbeatMiss s = .next s) ∧
    (let late : Prop := s.fld F.TDM_ROLE_MODE = 0 ∧ s.tdm.beatAt + (s.tdm.missed + 1) * (max 1 (s.fld F.TDM_HB_HB_US) * 1000) ≤ s.now;
     (¬late → exec .heartbeatMissedOnce s = .next s) ∧
     (late → s.beatLost = false → ∃ t, exec .heartbeatMissedOnce s = .next t ∧ t.tdm = { s.tdm with missed := s.tdm.missed + 1 } ∧ s.raised t 0x1CC ∧
       t = { s with regs := t.regs, tdm := t.tdm, tl := t.tl, intc := t.intc } ∧ s.regsBut t [RegName.TL_EVT_STAT.addr 0 0 0])) ∧
    (∀ c : Fin 2,
      (s.fld F.TDM_ROLE_MODE = 0 → s.fld F.TDM_ROLE_CAPT = c.val → exec (.coreFault c) s = .next (s.switchOver 2)) ∧
      (s.fld F.TDM_ROLE_MODE = 0 → s.fld F.TDM_ROLE_CAPT ≠ c.val → s.sec.fwTrans = false → ∃ t, exec (.coreFault c) s = .next t ∧
        t.flag F.TDM_ROLE_SINGLE = true ∧ t.fld F.TDM_ROLE_CAPT = s.fld F.TDM_ROLE_CAPT ∧ t.tdm = { s.tdm with up := s.tdm.up &&& (3 - 2 ^ c.val) } ∧
        t = { s with regs := t.regs, tdm := t.tdm } ∧ s.regsBut t [RegName.TDM_ROLE.addr 0 0 0]) ∧
      (s.fld F.TDM_ROLE_MODE ≠ 0 → ∃ t, exec (.coreFault c) s = .next t ∧
        t.flag F.TDM_ROLE_SINGLE = (if s.flag F.GLB_STAT_READY = true ∧ s.fld F.TDM_ROLE_CAPT = c.val then s.flag F.TDM_ROLE_SINGLE else true) ∧ t.tdm = { s.tdm with up := s.tdm.up &&& (3 - 2 ^ c.val) } ∧
        t = { s with regs := t.regs, tdm := t.tdm } ∧ s.regsBut t [RegName.TDM_ROLE.addr 0 0 0])) ∧
    (∀ cause, cause < 16 → s.fld F.TDM_ROLE_MODE = 0 → s.sec.fwTrans = false →
      (s.flag F.TDM_ROLE_SINGLE = false →
        let t := s.switchOver cause
        t.fld F.TDM_ROLE_CAPT = 1 - s.fld F.TDM_ROLE_CAPT ∧ t.flag F.TDM_ROLE_OVL = true ∧ t.flag F.TDM_ROLE_SINGLE = true ∧ t.fld F.TDM_ROLE_MODE = 0 ∧
        t.fld F.TDM_STAT_CAUSE = cause ∧ t.fld F.TDM_STAT_SWITCHES = (s.fld F.TDM_STAT_SWITCHES + 1) % 2 ^ 32 ∧
        t.tdm.up = s.tdm.up &&& (3 - 2 ^ s.fld F.TDM_ROLE_CAPT) ∧ t.tdm.former = some (s.fld F.TDM_ROLE_CAPT, s.now) ∧ t.tdm.beatAt = s.now ∧
        t.intc.pend.getLsbD 0x1C8 = true) ∧
      (s.flag F.TDM_ROLE_SINGLE = true → (s.switchOver cause).fld F.TDM_ROLE_MODE = 2 ∧ (s.switchOver cause).tdm.up = 0 ∧
        (s.switchOver cause).fld F.TDM_ROLE_CAPT = s.fld F.TDM_ROLE_CAPT)) ∧
    (∀ k a, s.tdm.former = some (k, a) → s.flag F.TDM_ROLE_OVL = true → a + 20000 ≤ s.now → ∃ t, exec .overlapClose s = .next t ∧
      t.flag F.TDM_ROLE_OVL = false ∧ t.fld F.TDM_ROLE_CAPT = s.fld F.TDM_ROLE_CAPT ∧ t.fld F.TDM_ROLE_MODE = s.fld F.TDM_ROLE_MODE ∧
      t = { s with regs := t.regs } ∧ s.regsBut t [RegName.TDM_ROLE.addr 0 0 0]) ∧
    (∀ k a, s.tdm.former = some (k, a) → s.flag F.TDM_ROLE_OVL = false ∨ s.now < a + 20000 → exec .overlapClose s = .next s) ∧
    (s.tdm.former = none → exec .overlapClose s = .next s) ∧
    (let expired : Prop := s.fld F.TDM_ROLE_MODE = 2 ∧ s.tdm.noneAt + 100000000 ≤ s.now;
     (expired → exec .noCaptainHoldEnd s = .next { s with tdm := { s.tdm with noneOver := true } }) ∧ (¬expired → exec .noCaptainHoldEnd s = .next s)) ∧
    (let ends : Prop := s.fld F.TDM_ROLE_MODE = 1 ∧ s.fld F.TDM_LEASE_HOLDER ≠ 0 ∧ s.tdm.leaseEnd ≤ s.now;
     (¬ends → exec .leaseExpiry s = .next s ∧ s.lateNow .token = s) ∧
     (ends → exec .leaseExpiry s = .next (s.decideLate .token) ∧ ∃ t, s.lateNow .token = t ∧ t = s.loseLease ∧ t.fld F.TDM_LEASE_HOLDER = 0 ∧ s.raised t 0x1C9 ∧
       t = { s with regs := t.regs, tl := t.tl, intc := t.intc } ∧ s.regsBut t [RegName.TDM_LEASE.addr 0 0 0, RegName.TL_EVT_STAT.addr 0 0 0]))) ∧
  (∀ (w : Writer) (s : State), s.admits w .TDM_CMD 0 →
    let s1 := s.wakeFor w
    let mode := s1.fld F.TDM_ROLE_MODE
    (mode ≠ 0 ∨ s1.flag F.TDM_ROLE_SINGLE = true → exec (.handover w) s = .next (s1.respond .accessDenied)) ∧
    (mode = 0 → s1.flag F.TDM_ROLE_SINGLE = false → ∃ t, exec (.handover w) s = .next t ∧ t.rsp = (.ok, 0) ∧
      t.fld F.TDM_ROLE_CAPT = 1 - s1.fld F.TDM_ROLE_CAPT ∧ t.flag F.TDM_ROLE_SINGLE = false ∧ t.flag F.TDM_ROLE_OVL = true ∧ t.tdm.up = s1.tdm.up ∧
      t.fld F.TDM_STAT_CAUSE = 4) ∧
    (mode ≠ 0 → exec (.leaseOn w) s = .next (s1.respond .accessDenied)) ∧
    (mode = 0 → ∃ t, exec (.leaseOn w) s = .next t ∧ t.fld F.TDM_ROLE_MODE = 1 ∧ t.fld F.TDM_LEASE_HOLDER = s1.fld F.TDM_ROLE_CAPT + 1 ∧
      t.tdm = { s1.tdm with leaseEnd := s1.now + 50000000, recovery := false } ∧ t.rsp = (.ok, 0) ∧
      t = { s1 with regs := t.regs, tdm := t.tdm, rsp := t.rsp } ∧ s1.regsBut t [RegName.TDM_ROLE.addr 0 0 0, RegName.TDM_LEASE.addr 0 0 0]) ∧
    (mode ≠ 1 ∨ s1.flag F.GLB_STAT_READY = false ∨ s1.tdm.recovery = true → exec (.leaseOff w) s = .next (s1.respond .accessDenied)) ∧
    (mode = 1 → s1.flag F.GLB_STAT_READY = true → s1.tdm.recovery = false → ∃ t, exec (.leaseOff w) s = .next t ∧ t.fld F.TDM_ROLE_MODE = 0 ∧
      t.fld F.TDM_LEASE_HOLDER = 0 ∧ t.fld F.TDM_ROLE_CAPT = s1.fld F.TDM_ROLE_CAPT ∧ t.tdm = { s1.tdm with beatAt := s1.now, missed := 0 } ∧
      t.rsp = (.ok, 0) ∧ t = { s1 with regs := t.regs, tdm := t.tdm, rsp := t.rsp } ∧
      s1.regsBut t [RegName.TDM_ROLE.addr 0 0 0, RegName.TDM_LEASE.addr 0 0 0])) ∧
  (∀ (w : Writer) (s : State), s.heldReset = false →
    (writerCore w = none → (s.wakeFor w).heldReset = false → exec (.leaseAcq w) s = .next ((s.wakeFor w).respond .accessDenied)) ∧
    ∀ c, writerCore w = some c →
      let run := s.tdm.up.testBit c
      let lost : Prop := run = true ∧ s.fld F.TDM_ROLE_MODE = 1 ∧ s.fld F.TDM_LEASE_HOLDER ∉ [0, c + 1] ∧ s.tdm.leaseEnd ≤ s.now
      let tie : Prop := c = 0 ∧ s.tdm.tookAt = some s.now
      let free : Prop := s.fld F.TDM_ROLE_MODE = 1 ∧ run = true ∧ (s.fld F.TDM_LEASE_HOLDER = 0 ∨ s.fld F.TDM_LEASE_HOLDER = c + 1 ∨ tie)
      let token (t : State) : Prop := ∃ x, t.tdm = { s.tdm with leaseEnd := s.now + 50000000, tookAt := x } ∧
        (x = s.tdm.tookAt ∨ (c = 1 ∧ s.fld F.TDM_LEASE_HOLDER = 0 ∧ x = some s.now))
      (lost → s.loseLease.fld F.TDM_LEASE_HOLDER = 0 ∧ exec (.leaseAcq w) s = exec (.leaseAcq w) s.loseLease) ∧
      (s.fld F.TDM_ROLE_MODE = 0 → tie → run = true → s.fld F.TDM_ROLE_CAPT = 1 → ∃ t, exec (.leaseAcq w) s = .next t ∧ t.fld F.TDM_ROLE_CAPT = 0 ∧ t.rsp = (.ok, 0)) ∧
      (¬free → ¬lost → ¬(s.fld F.TDM_ROLE_MODE = 0 ∧ tie) → exec (.leaseAcq w) s = .next (s.respond .ok)) ∧
      (free → ¬lost → s.tdm.recovery = false → 3 ≤ s.fld F.GLB_STAT_STEP → ∃ t, exec (.leaseAcq w) s = .next t ∧ t.fld F.TDM_LEASE_HOLDER = c + 1 ∧
        token t ∧ t.rsp = (.ok, 0) ∧ t = { s with regs := t.regs, tdm := t.tdm, rsp := t.rsp } ∧
        s.regsBut t [RegName.TDM_LEASE.addr 0 0 0]) ∧
      (free → ¬lost → s.tdm.recovery = false → s.fld F.GLB_STAT_STEP < 3 → ∃ t, exec (.leaseAcq w) s = .next t ∧ t.fld F.TDM_LEASE_HOLDER = c + 1 ∧
        t.fld F.GLB_STAT_STEP = 3 ∧ t.fld F.PWR_STATPIN_CODE = 3 ∧ t.rsp = (.ok, 0)) ∧
      (free → ¬lost → s.tdm.recovery = true → ∃ t, exec (.leaseAcq w) s = .next t ∧ t.fld F.TDM_ROLE_CAPT = c ∧ t.fld F.TDM_ROLE_MODE = 0 ∧
        t.fld F.TDM_LEASE_HOLDER = 0 ∧ t.tdm.recovery = false ∧ t.rsp = (.ok, 0))) ∧
  ∀ (c : Fin 2) (s : State),
    let may : Prop := s.heldReset = false ∧ s.tdm.up.testBit c.val = false ∧ s.flag F.GLB_STAT_READY = true
    let role := s.tdm.up ||| 2 ^ c.val
    (∀ ok, ¬may → exec (.coreRestartEnd c ok) s = .next s) ∧
    (may → s.sec.fwTrans = false → ∃ t, exec (.coreRestartEnd c false) s = .next t ∧ t.flag F.TDM_ROLE_SINGLE = true ∧ s.raised t 0x1CB ∧ t.tdm = s.tdm ∧
      t = { s with regs := t.regs, tl := t.tl, intc := t.intc } ∧ s.regsBut t [RegName.TDM_ROLE.addr 0 0 0, RegName.TL_EVT_STAT.addr 0 0 0]) ∧
    (may → s.fld F.TDM_ROLE_MODE = 0 → s.tdm.fw = none → ∃ t, exec (.coreRestartEnd c true) s = .next t ∧ t.flag F.TDM_ROLE_SINGLE = false ∧
      t.tdm.up = role ∧ (∀ a, s.tdm.former = some (c.val, a) → t.tdm.former = none) ∧ t = { s with regs := t.regs, tdm := t.tdm } ∧
      s.regsBut t [RegName.TDM_ROLE.addr 0 0 0]) ∧
    (may → s.fld F.TDM_ROLE_MODE = 1 → ∃ t, exec (.coreRestartEnd c true) s = .next t ∧ t.tdm = { s.tdm with up := role } ∧
      t.flag F.TDM_ROLE_SINGLE = (if role = 3 then false else s.flag F.TDM_ROLE_SINGLE) ∧ t = { s with regs := t.regs, tdm := t.tdm } ∧ s.regsBut t [RegName.TDM_ROLE.addr 0 0 0]) ∧
    (may → s.fld F.TDM_ROLE_MODE = 2 → ∃ t, exec (.coreRestartEnd c true) s = .next t ∧ t.fld F.TDM_ROLE_MODE = 1 ∧ t.fld F.TDM_LEASE_HOLDER = 0 ∧
      t.tdm = { s.tdm with up := role, recovery := true } ∧ t = { s with regs := t.regs, tdm := t.tdm } ∧
      s.regsBut t [RegName.TDM_ROLE.addr 0 0 0, RegName.TDM_LEASE.addr 0 0 0])

/-- Groups deliver a snapshot, hold off, complete and retry; sources are set and configured; check-value units compare, reset and start (R352, R353, R354, R355, R356, R357, R362, R363, R364). -/
def Obligations.InterruptGroupsAndCheckUnits : Prop :=
  (∀ (g : Group) (s : State),
    let cfg := s.regVal .INTC_GRP_CFG 0 g.val
    let tgt := s.fld F.INTC_GRP_CFG_TGT 0 g.val
    let auto := s.flag F.INTC_GRP_CFG_AUTOC 0 g.val
    let may : Prop := s.groupDelivers g.val = true ∧ (tgt = 2 → s.tl.held.length < 4096)
    (¬may → exec (.interruptDelivery g) s = .next s) ∧
    (may → ∃ t, exec (.interruptDelivery g) s = .next t ∧
      let srcs := (s.groupSrcs g.val).filter s.srcPending
      let taken (x : Intc) : Prop := (∀ n, n < 1024 → x.pend.getLsbD n = (s.intc.pend.getLsbD n && !srcs.contains n)) ∧
        smGet 0 x.deliv g.val = (smGet 0 s.intc.deliv g.val + 1) % 2 ^ 32 ∧
        smGet 0 x.holdEnd g.val = s.now + s.fld F.INTC_GRP_CFG_HOLDOFF_US 0 g.val * 1000 ∧
        smGet (0, 0) x.sent g.val = (cfg, s.regVal .INTC_GRP_ARG 0 g.val)
      (tgt < 3 → taken t.intc) ∧
      (tgt < 2 → auto = false → smGet [] t.intc.snap g.val = srcs ∧ t.intc.serv = s.intc.serv ||| bit32 g.val ∧
        t.intc.core0 = (if tgt = 0 then s.intc.core0 ||| bit32 g.val else s.intc.core0) ∧
        t.intc.core1 = (if tgt = 1 then s.intc.core1 ||| bit32 g.val else s.intc.core1) ∧ t.fld F.INTC_CORE_ASLEEP 0 tgt = 0 ∧ t.tl = s.tl) ∧
      (tgt < 2 → auto = true → t.intc.serv.getLsbD g.val = false ∧ smGet [] t.intc.snap g.val = [] ∧ t.tl = s.tl) ∧
      (tgt = 2 → t.intc.serv = s.intc.serv ||| bit32 g.val ∧
        t.tl = { s.tl with held := s.tl.held ++ [⟨0, [], some (s.fld F.INTC_GRP_CFG_VEC 0 g.val), if auto = true then .group g.val else .none⟩] }) ∧
      (tgt = 3 → ∃ u : State, taken u.intc ∧ u.intc.serv = s.intc.serv ||| bit32 g.val ∧ u.tl = s.tl ∧ u.power.deep = 0 ∧ t = u.sendGroupCall g.val))) ∧
  (∀ (g : Group) (s : State),
    let at_ := smGet 0 s.intc.retryAt g.val
    let due : Prop := at_ ≠ 0 ∧ at_ ≤ s.now ∧ s.intc.serv.getLsbD g.val = true
    (due → exec (.loomDeliveryRetry g) s = .next (s.sendGroupCall g.val)) ∧ (¬due → exec (.loomDeliveryRetry g) s = .next s)) ∧
  (∀ (w : Writer) (g : Group) (s : State), s.admits w .INTC_GRP_CMPL 0 →
    let s1 := s.wakeFor w
    let host : Prop := w ∈ [.tl0, .tl1, .sideband]
    (host → g.val < 8 → exec (.groupComplete w g) s = .next (s1.respond .accessDenied)) ∧
    (¬host → 8 ≤ g.val ∨ s1.fld F.TDM_ROLE_MODE ≠ 1 → exec (.groupComplete w g) s = .next (s1.respond .accessDenied)) ∧
    ((host ∧ 8 ≤ g.val) ∨ (¬host ∧ w ≠ .image ∧ g.val < 8 ∧ s1.fld F.TDM_ROLE_MODE = 1) →
      ∃ t, exec (.groupComplete w g) s = .next t ∧ t.rsp = (.ok, 0) ∧ t = { s1 with intc := t.intc, rsp := t.rsp } ∧ t.intc.pend = s1.intc.pend ∧
        (3 ≤ s1.sentTgt g.val ∨ s1.sentAutoc g.val = true ∨ s1.intc.serv.getLsbD g.val = false → t.intc = s1.intc) ∧
        (s1.sentTgt g.val < 3 → s1.sentAutoc g.val = false → s1.intc.serv.getLsbD g.val = true →
          (∀ j, j < 32 → t.intc.serv.getLsbD j = (s1.intc.serv.getLsbD j && j != g.val) ∧ t.intc.core0.getLsbD j = (s1.intc.core0.getLsbD j && j != g.val) ∧
            t.intc.core1.getLsbD j = (s1.intc.core1.getLsbD j && j != g.val)) ∧
          (∀ j, smGet [] t.intc.snap j = if j = g.val then [] else smGet [] s1.intc.snap j)))) ∧
  (∀ (w : Writer) (n : Fin 512) (s : State), s.admits w .INTC_SW_SET 0 →
    ∃ t, exec (.swSet w n) s = .next t ∧ (s.wakeFor w).raised t (0x200 + n.val) ∧ t.rsp = (.ok, 0) ∧
      t = { s.wakeFor w with intc := t.intc, rsp := t.rsp }) ∧
  (∀ (w : Writer) (g : Group) (v : BitVec 64) (s : State), s.admits w .INTC_GRP_CFG 0 →
    let s1 := s.wakeFor w
    let bad : Prop := w ∈ [.tl0, .tl1, .sideband] ∧ g.val < 8
    (bad → exec (.intcGrpCfgWrite w g v) s = .next (s1.respond .accessDenied)) ∧
    (¬bad → s1.intc.err.getLsbD g.val = false → ∃ t, exec (.intcGrpCfgWrite w g v) s = .next t ∧ s1.stored t .INTC_GRP_CFG 0 g.val 0 v.toNat) ∧
    (¬bad → s1.intc.err.getLsbD g.val = true → ∃ u t, exec (.intcGrpCfgWrite w g v) s = .next t ∧ s1.stored u .INTC_GRP_CFG 0 g.val 0 v.toNat ∧
      let c := { u with intc := { s1.intc with err := s1.intc.err &&& ~~~bit32 g.val } }
      t = if s1.intc.serv.getLsbD g.val = true then c.deliverGroup g.val else c)) ∧
  (∀ (w : Writer) (n : Fin 1024) (v : BitVec 64) (s : State), s.admits w .INTC_SRC_CFG 0 →
    let bad : Prop := srcReserved n.val = true ∨ (w ∈ [.tl0, .tl1, .sideband] ∧ srcFirmware n.val = true)
    (bad → exec (.intcSrcCfgWrite w n v) s = .next ((s.wakeFor w).respond .accessDenied)) ∧
    (¬bad → ∃ t, exec (.intcSrcCfgWrite w n v) s = .next t ∧ (s.wakeFor w).stored t .INTC_SRC_CFG 0 n.val 0 v.toNat)) ∧
  (∀ (w : Writer) (s : State), s.admits w .INTC_CTL 0 →
    let u := (s.wakeFor w).setFld F.INTC_CTL_GDIS 0
    exec (.gdisClear w) s = .next (((List.range 32).foldl State.tryGroup u).respond .ok) ∧ u.flag F.INTC_CTL_GDIS = false) ∧
  (∀ (w : Writer) (u : ChkUnit) (s : State), s.admits w .CHK_CMD 0 →
    let s1 := s.wakeFor w
    let n := s1.fld F.CHK_CTL_WIDTH_M1 0 u.val + 1
    let low (f : Fld) : Nat := s1.fld f 0 u.val % 2 ^ n
    let x := (if s1.flag F.CHK_CTL_REFOUT 0 u.val = true then revBits n (low F.CHK_RUN_RUN) else low F.CHK_RUN_RUN) ^^^ low F.CHK_XOROUT_VALUE
    let restarts (t : State) : Prop := t.fld F.CHK_RUN_RUN 0 u.val = low F.CHK_INIT_VALUE ∧ t.fld F.CHK_COUNT_COUNT 0 u.val = 0
    (∃ t, exec (.chkReset w u) s = .next t ∧ restarts t ∧ t.rsp = (.ok, 0) ∧ t = { s1 with regs := t.regs, rsp := t.rsp } ∧
      s1.regsBut t [RegName.CHK_RUN.addr 0 u.val 0, RegName.CHK_COUNT.addr 0 u.val 0]) ∧
    (smGet 0 s1.intc.chkAt u.val = s1.now + 1 → exec (.chkCompare w u) s = .next (s1.respond .ok)) ∧
    (smGet 0 s1.intc.chkAt u.val ≠ s1.now + 1 → ∃ t, exec (.chkCompare w u) s = .next t ∧ t.rsp = (.ok, 0) ∧ t.fld F.CHK_RESULT_RESULT 0 u.val = x ∧ t.flag F.CHK_STAT_DONE 0 u.val = true ∧
      t.fld F.CHK_STAT_POISON 0 u.val = s1.fld F.CHK_STAT_POISON 0 u.val ∧
      (s1.flag F.CHK_CTL_AUTO 0 u.val = true → restarts t ∧ t.fld F.CHK_CTL_EN 0 u.val = s1.fld F.CHK_CTL_EN 0 u.val) ∧
      (s1.flag F.CHK_CTL_AUTO 0 u.val = false → t.fld F.CHK_CTL_EN 0 u.val = 0 ∧ t.fld F.CHK_RUN_RUN 0 u.val = s1.fld F.CHK_RUN_RUN 0 u.val ∧
        t.fld F.CHK_COUNT_COUNT 0 u.val = s1.fld F.CHK_COUNT_COUNT 0 u.val) ∧
      (x = low F.CHK_EXPECT_VALUE → t.fld F.CHK_STAT_MISMATCH 0 u.val = s1.fld F.CHK_STAT_MISMATCH 0 u.val ∧
        t.fld F.CHK_STAT_MISMATCHES 0 u.val = s1.fld F.CHK_STAT_MISMATCHES 0 u.val ∧ t.intc = s1.intc) ∧
      (x ≠ low F.CHK_EXPECT_VALUE → t.fld F.CHK_STAT_MISMATCH 0 u.val = 1 ∧
        t.fld F.CHK_STAT_MISMATCHES 0 u.val = min (s1.fld F.CHK_STAT_MISMATCHES 0 u.val + 1) (2 ^ F.CHK_STAT_MISMATCHES.width - 1) ∧
        s1.raised t (0x1B8 + u.val)) ∧
      t = { s1 with regs := t.regs, tl := t.tl, intc := t.intc, rsp := t.rsp })) ∧
  ∀ (w : Writer) (u : ChkUnit) (v : BitVec 64) (s : State), s.admits w .CHK_CTL 0 →
    let s1 := s.wakeFor w
    let new := v.toNat % 2 ^ 10
    let runs := s1.flag F.CHK_CTL_EN 0 u.val
    let bad : Prop := (runs = true ∧ new / 2 ≠ s1.regVal .CHK_CTL 0 u.val / 2) ∨ (runs = false ∧ v.toNat % 2 = 1 ∧ s1.flag F.SEC_STAT_CONF = true)
    (bad → exec (.chkCtlWrite w u v) s = .next (s1.respond .accessDenied)) ∧
    (¬bad → ∃ t, exec (.chkCtlWrite w u v) s = .next t ∧ t.rsp = (.ok, 0) ∧
      (∀ f a, (f, a) ∈ RegName.CHK_CTL.fields → t.fld f 0 u.val = f.of v.toNat) ∧
      t.fld F.CHK_STAT_DONE 0 u.val = (if runs = false ∧ v.toNat % 2 = 1 then 0 else s1.fld F.CHK_STAT_DONE 0 u.val) ∧
      t = { s1 with regs := t.regs, rsp := t.rsp } ∧ s1.regsBut t [RegName.CHK_CTL.addr 0 u.val 0, RegName.CHK_STAT.addr 0 u.val 0])

/-- Host messages leave in order and are freed by their HWACK, host reads are answered or tried again, and the recorder writes its records (R316, R317, R318, R319, R366, R367, R369). -/
def Obligations.HostMessagesReadsAndRecords : Prop :=
  (∀ (s : State), s.tl.held ≠ [] → s.power.deep ≠ 0 → exec .hostMessageSend s = .next s.wakeDevice.sendMsg) ∧
  (∀ (s : State), s.tl.held ≠ [] → s.power.deep = 0 → exec .hostMessageSend s = .next s.sendMsg) ∧
  (∀ (s : State), s.tl.held = [] → exec .hostMessageSend s = .next s) ∧
  (∀ (s : State), s.power.deep = 0 →
    (∀ m rest p, s.tl.held = m :: rest → s.streamPort = some p → s.tl.unack.length < 1024 →
      let tag := s.tl.nextTag % 65536
      ∃ t, exec .hostMessageSend s = .next t ∧
        t.tl = { s.tl with held := rest, unack := s.tl.unack ++ [(tag, m)], nextTag := s.tl.nextTag + 1, active := p - 12 } ∧
        smGet [] (t.link p).queues 510 = smGet [] (s.link p).queues 510 ++ [⟨m.packet tag, s.now⟩] ∧ s.linksBut t p ∧
        t = { s with tl := t.tl, links := t.links }) ∧
    (s.tl.held = [] ∨ s.streamPort = none ∨ 1024 ≤ s.tl.unack.length → exec .hostMessageSend s = .next s)) ∧
  (∀ (p : Port) (k : Packet) (s : State), (k.typN ≠ 0x84 → exec (.hwack p k) s = .next s) ∧ (k.typN ≠ 0x82 → exec (.hrdata p k) s = .next s)) ∧
  (∀ (p : Port) (k : Packet) (s : State), (p.val, k) ∈ s.hub.delivered →
    let s1 : State := { s with hub := { s.hub with delivered := s.hub.delivered.erase (p.val, k) } }
    (k.typN = 0x84 →
      (s.tl.unack.find? (fun m => m.1 == k.tagN) = none → exec (.hwack p k) s = .next s1) ∧
      ∀ m, s.tl.unack.find? (fun m => m.1 == k.tagN) = some m →
        let u : State := { s1 with tl := { s.tl with unack := s.tl.unack.erase m } }
        (m.2.ann = .none → exec (.hwack p k) s = .next u) ∧
        (∀ g, m.2.ann = .group g → exec (.hwack p k) s = .next (u.completeGroup g)) ∧
        (∀ id, m.2.ann = .bounce id → exec (.hwack p k) s = .next (u.updSlot id (fun b => { b with acks := b.acks - 1 })).retireSlots) ∧
        (∀ q d n, m.2.ann = .mover q d n → exec (.hwack p k) s =
          .next ((u.updDesc q d n (fun x => { x with finished := x.finished + m.2.data.length })).count F.MOV_CH_BYTES_BYTES m.2.data.length q d).settle) ∧
        (∀ r x, m.2.ann = .ring r x → ∃ n, exec (.hwack p k) s = .next ((if r = .fault then u.recordWritten m.2.data else u).ringAck r n))) ∧
    (k.typN = 0x82 →
      (s.tl.hrds.find? (fun h => h.tag == k.tagN && h.sent.isSome) = none → exec (.hrdata p k) s = .next s1) ∧
      ∀ h, s.tl.hrds.find? (fun h => h.tag == k.tagN && h.sent.isSome) = some h →
        exec (.hrdata p k) s = .next (s1.hostData h (sliceBytes k.payload 0 h.len) (if k.w3.toNat % 16 = 0 then .ok else .poison)))) ∧
  (∀ (s : State) (x y : Nat) (rest : List (Bool × Nat)) (n : Nat),
    (s.tl.outEvt = (false, x) :: rest → (∀ e ∈ rest, e.1 = false) →
      (s.ringAck .event 0).fld F.TL_EVT_PROD_PROD 12 = (s.fld F.TL_EVT_PROD_PROD 12 + 1) % 2 ^ 32 ∧ (s.ringAck .event 0).tl.outEvt = rest) ∧
    (s.tl.outEvt = (false, x) :: (false, y) :: rest → n = 0 →
      (s.ringAck .event 1).fld F.TL_EVT_PROD_PROD 12 = s.fld F.TL_EVT_PROD_PROD 12 ∧
      (s.ringAck .event 1).tl.outEvt = (false, x) :: (true, y) :: rest)) ∧
  (∀ (tag : BitVec 16) (s : State),
    (s.tl.hrds.find? (fun h => h.tag == tag.toNat) = none → exec (.hrdTimeout tag) s = .next s) ∧
    ∀ h, s.tl.hrds.find? (fun h => h.tag == tag.toNat) = some h →
      let late : Prop := h.since + max 1 (s.fld F.TL_CTL_HRD_TMO 12) * 10000 ≤ s.now
      let g : Hrd := { h with tag := s.tl.nextTag % 65536, tries := h.tries + 1, since := s.now, sent := s.tlPort }
      (¬late → exec (.hrdTimeout tag) s = .next s) ∧
      (late → h.tries = 0 → ∃ t, exec (.hrdTimeout tag) s = .next t ∧
        t.tl = { s.tl with nextTag := s.tl.nextTag + 1, hrds := s.tl.hrds.map (fun x => if x = h then g else x) } ∧
        t.fld F.TL_CNT_RDRETRY 12 = min (s.fld F.TL_CNT_RDRETRY 12 + 1) (2 ^ F.TL_CNT_RDRETRY.width - 1) ∧
        t = { s with tl := t.tl, regs := t.regs, links := t.links } ∧ s.regsBut t [RegName.TL_CNT.addr 12 0 0]) ∧
      (late → h.tries ≠ 0 → exec (.hrdTimeout tag) s = .next ((s.count F.TL_CNT_RDFAIL 1 12).hostData h [] .busy))) ∧
  (∀ (s : State),
    let b := s.fld F.TL_CTL_PRI 12
    let back : Prop := s.tl.active ≠ b ∧ s.portUp (12 + b) = true ∧ s.tl.unack = []
    (back → exec .streamReturn s = .next { s with tl := { s.tl with active := b } }) ∧ (¬back → exec .streamReturn s = .next s) ∧
    (s.tl.events = [] → exec .eventRingWrite s = .next s) ∧
    ∀ e rest, s.tl.events = e :: rest →
      let n := ringSlots (s.fld F.TL_EVT_SIZE_LOG2N 12) 6 20
      let k := s.fld F.TL_EVT_PROD_PROD 12 + s.tl.outEvt.length
      let full : Prop := n = 0 ∨ n ≤ (k + 2 ^ 32 - s.fld F.TL_EVT_CONS_CONS 12) % 2 ^ 32 ∨ 4096 ≤ s.tl.held.length
      (full → exec .eventRingWrite s = .next s) ∧
      (¬full → exec .eventRingWrite s = .next { s with tl := { s.tl with
        events := rest, outEvt := s.tl.outEvt ++ [(false, e.src)]
        held := s.tl.held ++ [⟨s.fld F.TL_EVT_BASE_BASE 12 * 4096 + k % n * 64, wordBytes e.words, none, .ring .event e.src⟩] } })) ∧
  (∀ (x : Sample) (bad : List (BitVec 14)) (s : State), s.evr.opens = [] →
    exec (.evrSample x) s = .next s ∧ exec (.evrCheckpoint bad) s = .next s ∧ exec (.evrPeriodEnd bad) s = .next s) ∧
  (∀ (s : State), s.evr.opens ≠ [] →
    (∀ w, ∃ (t : State) (f : BitVec 2048 → BitVec 2048), exec (.evrSample (.power w)) s = .next t ∧ t = { s with evr := { s.evr with opens := t.evr.opens } } ∧
      t.evr.opens = s.evr.opens.map (fun o => if o.kind = 5 ∧ o.inst = 0 then { o with data := f o.data } else o) ∧
      ∀ d, recSamples (f d) = min (recSamples d + 1) (2 ^ 32 - 1) ∧
        recGet (f d) (3 + min 31 (w / 100) / 2) (32 * (min 31 (w / 100) % 2)) 32 =
          min (recGet d (3 + min 31 (w / 100) / 2) (32 * (min 31 (w / 100) % 2)) 32 + 1) (2 ^ 32 - 1)) ∧
    (∀ k c, ∃ t, exec (.evrSample (.stkTemp k c)) s = .next t ∧ t.fld F.STK_STAT_TEMP k.val = min 255 c ∧
      t.fld F.STK_STAT_STATE k.val = s.fld F.STK_STAT_STATE k.val ∧ t.evr.slots = s.evr.slots ∧ t = { s with regs := t.regs, evr := t.evr } ∧
      s.regsBut t [RegName.STK_STAT.addr k.val 0 0, RegName.PWR_TEMP.addr 0 0 0]) ∧
    (∀ mv input, ∃ t, exec (.evrSample (.supply mv input)) s = .next t ∧ t.fld F.PWR_STAT_V_IN = min 8191 input ∧
      (∀ r, r < 48 → r < mv.length → t.fld F.PWR_RAIL_MEAS_MV 0 r = min 65535 (mv.getD r 0)) ∧ t = { s with regs := t.regs, evr := t.evr }) ∧
    (∀ bad, s.now < s.evr.ckptAt + max 1 (s.fld F.EVR_CTL_CKPT_MIN) * 60000000000 → exec (.evrCheckpoint bad) s = .next s) ∧
    (s.evr.ckptAt + max 1 (s.fld F.EVR_CTL_CKPT_MIN) * 60000000000 ≤ s.now →
      ∃ t, exec (.evrCheckpoint []) s = .next t ∧ t.evr.ckptAt = s.now ∧ t.evr.opens = s.evr.opens ∧ t.evr.count = s.evr.count ∧
        t.evr.writeNo % 2 ^ 32 = (s.evr.writeNo + s.evr.opens.length) % 2 ^ 32 ∧ t = { s with evr := t.evr } ∧
        ∀ i, (∀ o ∈ s.evr.opens, o.slot ≠ i) → t.evrSlot i = s.evrSlot i) ∧
    exec (.evrPeriodEnd []) s = .next ((s.evr.opens.filter (fun o => decide (o.till ≤ s.opS))).foldl State.closeRec s) ∧
    ((∀ o ∈ s.evr.opens, s.opS < o.till) → exec (.evrPeriodEnd []) s = .next s)) ∧
  ∀ (w : Writer) (v : BitVec 64) (s : State), s.admits w .EVR_CURSOR 0 →
    (16368 < F.EVR_CURSOR_SLOT.of v.toNat → exec (.evrCursorWrite w v) s = .next ((s.wakeFor w).respond .accessDenied)) ∧
    (F.EVR_CURSOR_SLOT.of v.toNat ≤ 16368 → ∃ t, exec (.evrCursorWrite w v) s = .next t ∧ (s.wakeFor w).stored t .EVR_CURSOR 0 0 0 v.toNat)

/-- Releases, attestation keys, quotes, sessions, bounce slots and management commands act only when their checks pass (R328, R337, R338, R339, R340, R344, R345, R346, R348, R371, R395). -/
def Obligations.SecurityCommandsKeepTheirGates : Prop :=
  (∀ (w : Writer) (v : BitVec 64) (s : State), s.admits w .SEC_REL_CMD 0 →
    let s1 := s.wakeFor w
    let n := F.SEC_REL_CMD_EXT_COUNT.of v.toNat
    (n = 0 ∨ 65536 < n → exec (.releaseCmd w v) s = .next (s1.respond .accessDenied)) ∧
    (n ≠ 0 → n ≤ 65536 → 16 ≤ s1.sec.relQ.length → exec (.releaseCmd w v) s = .next (s1.respond .busy)) ∧
    (n ≠ 0 → n ≤ 65536 → s1.sec.relQ.length < 16 → ∃ t, exec (.releaseCmd w v) s = .next t ∧ t.rsp = (.ok, 0) ∧
      t.sec = { s1.sec with relQ := s1.sec.relQ ++ [⟨F.SEC_REL_CMD_EXT_INDEX.of v.toNat, n, F.SEC_REL_CMD_TAG.of v.toNat⟩] } ∧
      t.fld F.SEC_REL_STAT_QUEUED = s1.sec.relQ.length + 1 ∧ t = { s1 with sec := t.sec, regs := t.regs, rsp := t.rsp } ∧
      s1.regsBut t [RegName.SEC_REL_STAT.addr 0 0 0])) ∧
  (∀ (bad : List (BitVec 24)) (s : State),
    (s.sec.relRun ≠ none ∨ s.sec.relQ = [] → exec (.releaseStart bad) s = .next s) ∧
    (∀ r rest, s.sec.relRun = none → s.sec.relQ = r :: rest →
      let fs := s.relFrames r (bad.map (fun b => b.toNat))
      ∃ t b, exec (.releaseStart bad) s = .next t ∧ t.sec = { s.sec with relQ := rest, relRun := some ⟨r, fs, b, s.now⟩ } ∧
        (∀ f, smGet false t.pool.release f = (fs.contains f || smGet false s.pool.release f)) ∧ t.flag F.SEC_REL_STAT_BUSY = true ∧
        t = { s with sec := t.sec, pool := { s.pool with release := t.pool.release }, regs := t.regs } ∧ s.regsBut t [RegName.SEC_REL_STAT.addr 0 0 0]) ∧
    (s.sec.relRun = none → exec .releaseEnd s = .next s) ∧
    (∀ r, s.sec.relRun = some r → s.now < s.relDue r → exec .releaseEnd s = .next s) ∧
    ∀ r, s.sec.relRun = some r → s.relDue r ≤ s.now → ∃ t, exec .releaseEnd s = .next t ∧ t.sec = { s.sec with relRun := none } ∧ t.flag F.SEC_REL_STAT_BUSY = false ∧
      t.fld F.SEC_REL_STAT_DONE_TAG = r.rel.tag % 2 ^ F.SEC_REL_STAT_DONE_TAG.width ∧ t.fld F.SEC_REL_STAT_DONE_STATUS = (if r.bad then 7 else 0) ∧
      s.raised t 0x1C3 ∧ (∀ f, smGet false t.pool.release f = (!r.frames.contains f && smGet false s.pool.release f)) ∧
      (∀ f, r.frames = [f] → keyPage f < usableFrames → s.reach f = .direct → ∀ a, a / 65536 = f → smGet 0 t.pool.mem a = 0) ∧
      (∀ a, (∀ f ∈ r.frames, a / 65536 ≠ f ∧ a / 65536 ≠ checkFrame f ∧ ∀ c, s.companion f = some c → a / 65536 ≠ c ∧ a / 65536 ≠ checkFrame c) →
        smGet 0 t.pool.mem a = smGet 0 s.pool.mem a)) ∧
  (∀ (s : State),
    let leaf := s.fld F.SEC_IDX_ID_IDX
    (s.flag F.GLB_STAT_READY = false ∨ 1048576 ≤ leaf → exec .akGenerate s = .next s) ∧
    (s.flag F.GLB_STAT_READY = true → leaf < 1048576 → s.sec.ak = none → ∃ t, exec .akGenerate s = .next t ∧
      t.sec = { s.sec with akMade := s.sec.akMade + 1, ak := some (s.sec.akMade, leaf) } ∧ t.fld F.SEC_IDX_ID_IDX = leaf + 1 ∧
      t.fld F.SEC_IDX_AK_IDX = 0 ∧ t.flag F.SEC_STAT_AK_READY = true ∧ t = { s with sec := t.sec, regs := t.regs }) ∧
    (s.flag F.GLB_STAT_READY = true → leaf < 1048576 → s.sec.ak ≠ none → s.sec.akNext = none ∧ 786432 < s.fld F.SEC_IDX_AK_IDX →
      ∃ t, exec .akGenerate s = .next t ∧ t.sec = { s.sec with akMade := s.sec.akMade + 1, akNext := some (s.sec.akMade, leaf) } ∧
        t.fld F.SEC_IDX_ID_IDX = leaf + 1 ∧ t.flag F.SEC_STAT_AK_NEXT = true ∧ t = { s with sec := t.sec, regs := t.regs }) ∧
    (s.sec.ak ≠ none → s.sec.akNext ≠ none ∨ s.fld F.SEC_IDX_AK_IDX ≤ 786432 → exec .akGenerate s = .next s)) ∧
  (∀ (p : Port) (k : Packet) (s : State), (p.val, k) ∈ s.hub.delivered → k.typN = 0x78 →
    let s1 : State := { s with hub := { s.hub with delivered := s.hub.delivered.erase (p.val, k) } }
    let w4 := wordAt k.payload 32
    (w4.testBit 0 = true → p.val < 12 ∨ s.fld F.SEC_SESS_STAT_STATE 0 (w4 / 2 % 2) = 2 → exec (.attReq p k) s = .next (s1.shortQuote k .accessDenied)) ∧
    (w4.testBit 0 = false → s.sec.ak = none → s.fld F.SEC_IDX_ID_IDX < 1048576 → exec (.attReq p k) s = .next (s1.shortQuote k .busy)) ∧
    (w4.testBit 0 = false → s.sec.ak ≠ none → ∃ bs, exec (.attReq p k) s =
        .next ((respPackets k 0x79 bs).foldl (fun s k => (s.originate none k).2) s1.useLeaf) ∧
      wordAt bs 16 = Config.deviceId.toNat ∧ (∀ i, i < 4 → wordAt bs (40 + 8 * i) = wordAt k.payload (8 * i)) ∧
      ∀ m i, m < 8 → i < 8 → wordAt bs (72 + 64 * m + 8 * i) = s.regVal .SEC_MR 0 m i)) ∧
  (∀ (p : Port) (k : Packet) (s : State), (p.val < 12 → exec (.kexCt p k) s = .next s) ∧
    ((p.val, k) ∈ s.hub.delivered → k.typN = 0x7A → 12 ≤ p.val →
      let s1 : State := { s with hub := { s.hub with delivered := s.hub.delivered.erase (p.val, k) } }
      let i := p.val - 12
      let x := s.sess i
      let fresh : Prop := s.fld F.SEC_SESS_STAT_STATE 0 i = 1 ∧ x.nonce = (List.range 4).map (fun j => wordAt k.payload (8 * j)) ∧
        s.now < x.ekAt + max 1 (s.fld F.SEC_CTL_KEX_S) * 1000000000
      (x.ek = none ∨ s.ctxOf p.val k.srcN = none ∨ ¬fresh → exec (.kexCt p k) s = .next (s1.kexFail p.val i k)) ∧
      (∀ n, x.ek = some n → Config.kemOpen n (sliceBytes k.payload 32 1568) = none → exec (.kexCt p k) s = .next (s1.kexFail p.val i k)) ∧
      (∀ n c ss, x.ek = some n → s.ctxOf p.val k.srcN = some c → c < 4096 → fresh → Config.kemOpen n (sliceBytes k.payload 32 1568) = some ss →
        ∃ u : State, exec (.kexCt p k) s = .next (u.pumpSlots 16 i) ∧ u.fld F.SEC_SESS_STAT_STATE 0 i = 2 ∧ u.fld F.SEC_SESS_STAT_CTX 0 i = c ∧
          (u.sess i).ek = none ∧ (u.sess i).slots = []))) ∧
  (∀ (s : State) (p t : Nat) (k : Packet), (s.kexFail p t k).fld F.SEC_SESS_STAT_STATE 0 t ≠ 1) ∧
  (∀ (s : State) (t c : Nat), t < 2 → c < 8 → s.fld F.SEC_SESS_STAT_STATE 0 t ≠ 0 → (s.endSess t c).fld F.SEC_SESS_STAT_STATE 0 t = 0 ∧
    (s.endSess t c).fld F.SEC_SESS_STAT_CTX 0 t = 0 ∧ (s.endSess t c).sess t = {} ∧ (s.endSess t c).intc.pend.getLsbD (0x145 + 8 * (12 + t)) =
      (s.intc.pend.getLsbD (0x145 + 8 * (12 + t)) || !s.quarterDown (portQuarter (12 + t)))) ∧
  (∀ (w : Writer) (t : Fin 2) (v : BitVec 64) (s : State), s.admits w .SEC_BNC_TAIL 0 →
    ∃ u, exec (.bounceTailWrite w t v) s = .next (u.pumpSlots 16 t.val) ∧ (s.wakeFor w).stored u .SEC_BNC_TAIL 0 t.val 0 v.toNat) ∧
  (∀ (t : Fin 2) (s : State),
    let x := s.sess t.val
    (s.fld F.SEC_SESS_STAT_STATE 0 t.val ≠ 2 → exec (.bounceSlot t) s = .next s ∧ exec (.bounceSlotEnd t) s = .next s) ∧
    (s.fld F.SEC_SESS_STAT_STATE 0 t.val = 2 → 2 ^ 32 ≤ x.next → x.slots = [] → exec (.bounceSlot t) s = .next (s.endSess t.val 4)) ∧
    (s.fld F.SEC_SESS_STAT_STATE 0 t.val = 2 → x.slots = [] → x.next < 2 ^ 32 → exec (.bounceSlot t) s = .next s ∧ exec (.bounceSlotEnd t) s = .next s) ∧
    (∀ b rest, s.fld F.SEC_SESS_STAT_STATE 0 t.val = 2 → x.slots = b :: rest → b.stage = .read → (∀ y ∈ rest, b.seq ≤ y.seq) →
      exec (.bounceSlot t) s = .next (s.openSlot t.val b) ∧ (b.words.getD 0 0 ≠ b.seq → exec (.bounceSlot t) s = .next (s.endSess t.val 2))) ∧
    (∀ b rest, s.fld F.SEC_SESS_STAT_STATE 0 t.val = 2 → x.slots = b :: rest → b.stage = .ended → (∀ y ∈ rest, y.stage ∈ [.slot, .read, .data]) →
      s.tl.held.length + 34 ≤ 4096 → ∃ u, exec (.bounceSlotEnd t) s = .next u ∧
        u.tl.held = s.tl.held ++ [⟨b.host + 64, s.bncCompletion t.val b, none, .bounce b.id⟩] ∧ u = { s with sec := u.sec, tl := u.tl })) ∧
  (∀ (p : Port) (k : Packet) (img : Option (List (BitVec 8))) (s : State), (p.val, k) ∈ s.hub.delivered → k.typN = 0x7C → k.last = true → k.offN = 0 →
    let s1 : State := { s with hub := { s.hub with delivered := s.hub.delivered.erase (p.val, k) } }
    let d := k.payload
    let answered (c : Instr) (u : State) (st : Status) : Prop := exec c s = .next (u.mgtReply p.val k 0x7D st [])
    (s.firmware = false → ∀ c ∈ [Instr.extend p k, .endSession p k, .auth p k, .fwStage p k img, .fwApply p k, .evrClear p k],
      exec c s = .next (s1.deliver p.val k)) ∧ (s.firmware = true →
    answered (.extend p k) (s1.extend 7 (sliceBytes d 0 64)) .ok ∧ answered (.endSession p k) (s1.endSess (wordAt d 0 % 2) 5) .ok ∧
    (wordAt d 72 ≠ Config.deviceId.toNat ∨ wordAt d 80 ≠ s.fld F.SEC_LEDGER_LSEQ → answered (.auth p k) s1 .accessDenied) ∧
    (5 ≤ wordAt d 0 → answered (.auth p k) s1 .accessDenied) ∧
    (wordAt d 0 = 0 → wordAt d 72 = Config.deviceId.toNat → wordAt d 80 = s.fld F.SEC_LEDGER_LSEQ →
      (Config.verifies Config.romKey (d.take 88) (d.drop 88) = true → ∃ u, answered (.auth p k) u .ok ∧ u = { s1 with sec := { s.sec with auths := u.sec.auths } } ∧
        ∃ a, a ∈ u.sec.auths ∧ a.setting = .debug ∧ a.value = ofBytes (sliceBytes d 8 64)) ∧
      (Config.verifies Config.romKey (d.take 88) (d.drop 88) = false → answered (.auth p k) s1 .accessDenied)) ∧
    (img = none → answered (.fwStage p k img) s1 .accessDenied) ∧
    (∀ b, img = some b → s.winOk (wordAt d 0) (wordAt d 8) false = true → b.length = wordAt d 8 →
      Config.verifies Config.romKey (Config.fwBody b) (Config.fwSig b) = true → s.fld F.SEC_VER_FLOOR ≤ Config.fwSecVer b →
      answered (.fwStage p k img) { s1 with sec := { s.sec with staged := some b } } .ok) ∧
    (s.sec.staged = none ∨ s.fld F.TDM_ROLE_MODE = 1 ∨ s.flag F.TDM_ROLE_SINGLE = true ∨ s.sec.fwTrans = true → answered (.fwApply p k) s1 .accessDenied) ∧
    (s.sec.staged ≠ none → s.fld F.TDM_ROLE_MODE = 0 → s.flag F.TDM_ROLE_SINGLE = false → s.sec.fwTrans = false → ∃ t, exec (.fwApply p k) s = .next t ∧
      t.sec.fwTrans = true ∧ t.sec.fwCmd = some (p.val, k) ∧ t.tdm = { s.tdm with up := s.tdm.up &&& (3 - 2 ^ (1 - s.fld F.TDM_ROLE_CAPT)), fw := some .stoker } ∧
      t.flag F.TDM_ROLE_SINGLE = true ∧ t.flag F.SEC_STAT_TRANS = true ∧ t.links = s.links) ∧
    (wordAt d 8 ≠ Config.deviceId.toNat ∨ wordAt d 16 ≠ s.evr.clrSeq ∨ 64 ≤ s.evr.clears → answered (.evrClear p k) s1 .accessDenied) ∧
    (wordAt d 8 = Config.deviceId.toNat → wordAt d 16 = s.evr.clrSeq → s.evr.clears < 64 →
      Config.verifies (if s.sec.owner.isEmpty then Config.romKey else s.sec.owner) (d.take 24) (d.drop 24) = true →
      ∃ u, answered (.evrClear p k) u .ok ∧ u.evr.clears = s.evr.clears + 1 ∧ u.evr.clrSeq = (s.evr.clrSeq + 1) % 65536 ∧ s.raised u 0x1C7 ∧
        u = { s1 with evr := u.evr, intc := u.intc }))) ∧
  ∀ (s : State),
    (s.tdm.fw ≠ some .both ∨ s.sec.fwTrans = false → exec .fwUpdateEnd s = .next s) ∧
    (s.tdm.fw = some .both → s.sec.fwTrans = true → s.sec.fwCmd = none → ∃ t, exec .fwUpdateEnd s = .next t ∧
      t.fld F.SEC_VER_UGEN = (s.fld F.SEC_VER_UGEN + 1) % 2 ^ F.SEC_VER_UGEN.width ∧ t.fld F.SEC_VER_FLOOR = s.fld F.SEC_VER_FLOOR ∧
      t.sec.fwTrans = false ∧ t.sec.fw = s.sec.staged ∧ t.sec.staged = none ∧ t.sec.fwPrev = some s.fwImage ∧ t.tdm = { s.tdm with fw := none } ∧
      t.fld F.GLB_STAT_FW_ALT = 0)

/-- A delivered pool request takes its place in its channel or is refused; replies fold into it; ABORT stops only what has not started (R34, R35, R67, R68, R72, R73, R75, R76, R282, R305, R343). -/
def Obligations.PoolRequestsEnterCompleteAndAbort : Prop :=
  (∀ (p : Arr) (k : Packet) (s : State),
    (k.typN ≠ 1 → exec (.rd p k) s = .next s) ∧ (k.typN ≠ 2 → exec (.wr p k) s = .next s) ∧ (k.typN ≠ 4 → exec (.vrd p k) s = .next s) ∧
    (k.typN ≠ 5 → exec (.vwr p k) s = .next s) ∧ (k.typN ≠ 7 → exec (.hint p k) s = .next s) ∧ (k.typN ≠ 6 → exec (.abort p k) s = .next s) ∧
    (k.typN ≠ 0x10 → exec (.rdata p k) s = .next s) ∧ (k.typN ≠ 0x11 → exec (.cmplPacket p k) s = .next s) ∧
    (k.typN ≠ 3 → exec (.vopOpen p k) s = .next s ∧ exec (.vopClose p k) s = .next s ∧ exec (.vopBegin p k) s = .next s ∧
      exec (.vopPublish p k) s = .next s ∧ exec (.vopDiscard p k) s = .next s)) ∧
  (∀ (p : Arr) (k : Packet) (s : State), (p.val, k) ∈ s.hub.delivered →
    let s1 : State := { s with hub := { s.hub with delivered := s.hub.delivered.erase (p.val, k) } }
    let enters (i : Instr) (kind : ReqKind) (mk : State → Nat → Option (List Piece)) : Prop :=
      (s1.ctxOf p.val k.srcN = none → exec i s = .next (((s1.countDeny (arrQuarter p.val)).refuse p.val k .accessDenied).settle)) ∧
      (∀ c, s1.ctxOf p.val k.srcN = some c → s1.sealed_ p.val k = true → exec i s = .next ((s1.refuse p.val k .accessDenied).settle)) ∧
      (∀ c, s1.ctxOf p.val k.srcN = some c → s1.sealed_ p.val k = false →
        let v : Police := if p.val < 14 then (s1.police c k.cost).1 else .pass
        let s2 : State := if p.val < 14 then (s1.police c k.cost).2 else s1
        let ch : Chan := ⟨c, .port p.val, k.chN⟩
        let full : Prop := 256 ≤ s1.chanCount ch ∨ 4096 ≤ s1.portCount (.port p.val)
        let twice : Prop := ∃ x ∈ s1.ord.reqs, x.chan = ch ∧ x.tag = k.tagN
        ∃ (u : State) (r : Req), exec i s = .next u.settle ∧
          u.ord = { s1.ord with reqs := s1.ord.reqs ++ [r], nextId := s1.ord.nextId + 1, refusing := u.ord.refusing } ∧
          u = { s1 with hub := { s1.hub with pol := u.hub.pol }, regs := u.regs, ord := u.ord } ∧
          r.id = s1.ord.nextId ∧ r.chan = ch ∧ r.tag = k.tagN ∧ r.kind = kind ∧ r.len = k.lenN ∧ r.vh = k.w4.toNat ∧ r.dest = .port p.val k ∧
          r.marked = (v == .mark) ∧
          (s1.refusing ch = true ∨ full ∨ v = .drop → r.refused = true ∧ r.fixed = some .busy ∧ r.pieces = []) ∧
          (s1.refusing ch = false → full ∨ v = .drop → (ch, s1.ord.nextId) ∈ u.ord.refusing) ∧
          (s1.refusing ch = false → ¬full → v ≠ .drop → r.refused = false ∧ u.ord.refusing = s1.ord.refusing ∧
            (twice ∨ mk s2 c = none → r.fixed = some .accessDenied ∧ r.pieces = []) ∧
            (∀ ps, ¬twice → mk s2 c = some ps → r.fixed = none ∧ r.pieces = ps)))
    (k.typN = 1 → enters (.rd p k) .read (plainOf k)) ∧
    (k.typN = 2 → (k.offN = 0 → enters (.wr p k) .write (plainOf k)) ∧ (k.offN ≠ 0 → exec (.wr p k) s = .next ((s1.moreData p.val k).settle))) ∧
    (k.typN = 4 → enters (.vrd p k) .vread (versionOf k)) ∧
    (k.typN = 5 → (k.offN = 0 → enters (.vwr p k) .vwrite (versionOf k)) ∧ (k.offN ≠ 0 → exec (.vwr p k) s = .next ((s1.moreData p.val k).settle))) ∧
    (k.typN = 7 → enters (.hint p k) .hint (plainOf k)) ∧
    (k.typN = 3 →
      (k.subop = 0 → enters (.vopOpen p k) .vopen (fun _ _ => some [])) ∧ (k.subop ≠ 0 → exec (.vopOpen p k) s = .next s1) ∧
      (k.subop = 1 → enters (.vopClose p k) .vclose (fun _ _ => some [])) ∧ (k.subop ≠ 1 → exec (.vopClose p k) s = .next s1) ∧
      (k.subop = 2 → enters (.vopBegin p k) .vbegin (fun _ _ => some [])) ∧ (k.subop ≠ 2 → exec (.vopBegin p k) s = .next s1) ∧
      (k.subop = 3 → enters (.vopPublish p k) .vpublish (fun _ _ => some [])) ∧ (k.subop ≠ 3 → exec (.vopPublish p k) s = .next s1) ∧
      (k.subop = 4 → enters (.vopDiscard p k) .vdiscard (fun _ _ => some [])) ∧ (k.subop ≠ 4 → exec (.vopDiscard p k) s = .next s1)) ∧
    (k.typN = 0x10 →
      (s1.remotePiece p.val k.tagN k.chN = none → exec (.rdata p k) s = .next s1) ∧
      (∀ r n x, s1.remotePiece p.val k.tagN k.chN = some (r, n, x) →
        let o := x.off + k.offN
        let len := min k.payload.length (x.len - k.offN)
        ∃ (t : State) (g : Req → List Piece), exec (.rdata p k) s = .next t ∧ t = { s1 with ord := { s1.ord with reqs := t.ord.reqs } } ∧
          t.ord.reqs = s1.ord.reqs.map (fun y => if y.id = r.id then
            { y with data := y.data.take o ++ k.payload.take len ++ y.data.drop (o + len), pieces := g y } else y) ∧
          ∀ y, bits k.w3.toNat 32 32 = 0 → g y = y.pieces)) ∧
    (k.typN = 0x11 →
      (s1.remotePiece p.val k.tagN k.chN = none → exec (.cmplPacket p k) s = .next (s1.chainAnswer k)) ∧
      (∀ r n x, s1.remotePiece p.val k.tagN k.chN = some (r, n, x) →
        let st := statusOf (bits (wordAt k.payload 0) 20 4)
        ∃ (u : State) (g : Req → List Piece), exec (.cmplPacket p k) s = .next u.settle ∧
          u = { s1 with hub := { s1.hub with flows := u.hub.flows }, ord := { s1.ord with reqs := u.ord.reqs } } ∧
          (∀ f, f ∈ u.hub.flows ↔ f ∈ s1.hub.flows ∧ ¬(f.onChan 15 k.dstN k.chN = true ∧ f.pkt.tag = k.tag)) ∧
          u.ord.reqs = s1.ord.reqs.map (fun y => if y.id = r.id then { y with pieces := g y } else y) ∧
          ∀ y z, y.pieces[n]? = some z → ∃ f, g y = setAt y.pieces n { z with
            state := .served, failed := f
            status := worseOf z.status (if st = .partialFail then statusOf (bits (wordAt k.payload 0) 24 4) else st) } ∧
            (st = .ok → f = z.failed))) ∧
    (k.typN = 6 →
      (s1.ctxOf p.val k.srcN = none → exec (.abort p k) s = .next ((s1.countDeny (arrQuarter p.val)).refuse p.val k .accessDenied)) ∧
      ∀ c, s1.ctxOf p.val k.srcN = some c → exec (.abort p k) s =
        .next (s1.decideLate (.abort ⟨c, .port p.val, bits k.w4.toNat 16 3⟩ (bits k.w4.toNat 0 16) (.port p.val k c))))) ∧
  (∀ (s : State) (ch : Chan) (tag p c : Nat) (k : Packet),
    let target := s.ord.reqs.find? (fun r => r.chan == ch && r.tag == tag && !r.refused)
    let reply (st : Status) : Packet := { (⟨k.tagN, k.chN, false, st, .ok, false, 0, 0⟩ : Outcome16).packet k with epoch := s.epoch }
    let stops (r : Req) : Bool := r.abortable && !r.pieces.any (fun y => y.retried == some s.now)
    ((∀ r, target = some r → stops r = false) →
      s.lateNow (.abort ch tag (.port p k c)) = s.sendReply p (some c) false (reply .alreadyComplete)) ∧
    ∀ r, target = some r → stops r = true →
      ∃ u : State, s.lateNow (.abort ch tag (.port p k c)) = u.sendReply p (some c) false (reply .ok) ∧
        u.ord.reqs = s.ord.reqs.map (fun y => if y.id = r.id then { y with fixed := some .busy, abt := true, pieces := [] } else y) ∧
        u.fld F.XLT_ORD_CNT_ABORT_WON r.chan.eng.quarter =
          min (s.fld F.XLT_ORD_CNT_ABORT_WON r.chan.eng.quarter + 1) (2 ^ F.XLT_ORD_CNT_ABORT_WON.width - 1) ∧
        u = { s with ord := { s.ord with reqs := u.ord.reqs }, regs := u.regs, xlt := u.xlt }) ∧
  (∀ (id n : Nat) (s : State),
    ((∀ x, s.piece id n = some x → x.state ≠ .served) → exec (.poolPieceComplete id n) s = .next s) ∧
    (∀ x, s.piece id n = some x → x.state = .served →
      exec (.poolPieceComplete id n) s = .next ((s.updPiece id n (fun y => { y with state := .done })).settle))) ∧
  (∀ (s : State) (n : Nat) (c : Chan) (r : Req), s.ord.reqs.find? (fun x => x.chan == c) = some r → r.complete = false → s.drainChan n c = s) ∧
  ∀ (tag ch len : Nat) (failed : List Nat) (worst : Status),
    (outcomeOf tag ch len failed worst).status =
      (if failed = [] then .ok else if failed.length < (len + 63) / 64 then .partialFail else worst)

/-- Regions are made, opened, begun, published, closed and destroyed by the rules of the version unit (R78, R79, R80, R81, R82, R83, R84, R85, R87, R90). -/
def Obligations.VersionsArePublishedClosedAndDestroyed : Prop :=
  (∀ r slot serial ver : Nat, ∀ p : Bool, r < 4096 → slot < 16 → serial < 32768 → ver < 2 ^ 32 →
    let h := vhMake r slot p serial ver
    vhRegion h = r ∧ vhSlot h = slot ∧ vhPending h = p ∧ vhSerial h = serial ∧ vhVersion h = ver ∧ h < 2 ^ 64) ∧
  (∀ (s : State) (c r base : Nat),
    (s.verAllowed c r .read = false → s.verOpen c r = (⟨.accessDenied, 0, 0⟩, s)) ∧
    (s.verAllowed c r .write = false → s.verBegin c r base = (⟨.accessDenied, 0, 0⟩, s)) ∧
    (s.verAllowed c r .read = true →
      let x := s.region r
      let v := x.slots.getD x.curSlot {}
      (65535 ≤ v.opens → s.verOpen c r = (⟨.busy, 0, 0⟩, s)) ∧
      (v.opens < 65535 → s.verOpen c r = (⟨.ok, vhMake r x.curSlot false v.serial x.cur, 0⟩,
        s.setRegion r (x.setSlot x.curSlot { v with opens := v.opens + 1 })))) ∧
    (s.verAllowed c r .write = true → base ≠ (s.region r).cur → s.verBegin c r base = (⟨.conflict, 0, (s.region r).cur⟩, s))) ∧
  (∀ (id : Nat) (s : State),
    (s.req id = none → exec (.publishCommit id) s = .next s) ∧
    (∀ r, s.req id = some r →
      let first : Prop := r.kind = .vpublish ∧ r.fixed = none ∧ (∀ y ∈ s.ord.reqs, y.chan = r.chan → id ≤ y.id)
      (¬first ∨ s.atBridge r (vhRegion r.vh % 4) = true → exec (.publishCommit id) s = .next s) ∧
      (first → s.atBridge r (vhRegion r.vh % 4) = false → exec (.publishCommit id) s = .next (s.markUnit id)))) ∧
  (∀ (s : State) (r : Req), r.kind = .vpublish →
    let g := vhRegion r.vh
    let n := vhSlot r.vh
    let x := s.region g
    let v := x.pends.getD n {}
    let old := x.slots.getD x.curSlot {}
    let answers (u : State) (st : Status) (result info : Nat) : Prop :=
      s.unitApply r = u.updReq r.id (fun y => { y with fixed := some st, result := result, info := info })
    let ok : Prop := s.verAllowed r.chan.ctx g .write = true ∧ vhPending r.vh = true ∧ s.pendStatus r.vh = .ok
    let waits : Prop := s.flag F.XLT_VER_RGN_CFG_PUBWAIT 0 g = true ∧ ∃ f ∈ s.ownFrames g n, s.codeDirty f = true
    let many : Prop := old.opens ≠ 0 ∧ max 1 (s.fld F.XLT_VER_RGN_CFG_LIMIT_M1 0 g) + 1 ≤ x.retained
    (¬ok → answers s .accessDenied 0 0) ∧
    (ok → v.base ≠ x.cur → answers (s.setRegion g (x.setPend n v.free)) .conflict 0 x.cur) ∧
    (ok → v.base = x.cur → waits → s.unitApply r = s) ∧
    (ok → v.base = x.cur → ¬waits → many → answers s .busy 0 0) ∧
    (ok → v.base = x.cur → ¬waits → ¬many →
      let new := if x.cur = 0xFFFFFFFF then 1 else x.cur + 1
      let y := (x.setPend n v.free).setSlot x.curSlot (if old.opens = 0 then old.free false else { old with stopped := some s.now })
      ∀ m, m < 16 → (y.slots.getD m {}).used = false → (∀ j, j < m → (y.slots.getD j {}).used = true) →
        let w := y.slots.getD m {}
        answers ((s.setRegion g { y.setSlot m { w with used := true, ver := new, opens := 0, serial := max 1 w.serial, remap := v.remap, stopped := none }
          with cur := new, curSlot := m }).invalidate (fun c e => c == s.rgnCtx g && e == s.rgnSeg g)) .ok 0 new)) ∧
  (∀ (r : Region) (n : Fin 16) (s : State),
    let x := s.region r.val
    let v := x.slots.getD n.val {}
    let due : Prop := v.used = true ∧ v.opens ≠ 0 ∧ n.val ≠ x.curSlot ∧ s.fld F.XLT_VER_RGN_CFG_LEASE 0 r.val ≠ 0 ∧
      ∃ t, v.stopped = some t ∧ t + s.fld F.XLT_VER_RGN_CFG_LEASE 0 r.val * 1000000 ≤ s.now
    (due → exec (.versionLeaseExpiry r n) s = .next (s.decideLate (.lease r.val n.val)) ∧
      s.lateNow (.lease r.val n.val) = s.setRegion r.val (x.setSlot n.val (v.free true))) ∧
    (¬due → exec (.versionLeaseExpiry r n) s = .next s ∧ s.lateNow (.lease r.val n.val) = s)) ∧
  (∀ (w : Writer) (r : Region) (v : BitVec 64) (s : State), s.admits w .XLT_VER_RGN_ID 0 →
    let s1 := s.wakeFor w
    let one : Prop := F.XLT_VER_RGN_ID_V.of v.toNat = 1
    (s1.rgnV r.val = true ∨ (one ∧ s1.regionOk r.val v.toNat = false) → exec (.xltVerRgnIdWrite w r v) s = .next (s1.respond .accessDenied)) ∧
    (s1.rgnV r.val = false → ¬one → ∃ t, exec (.xltVerRgnIdWrite w r v) s = .next t ∧ s1.stored t .XLT_VER_RGN_ID 0 r.val 0 v.toNat) ∧
    (s1.rgnV r.val = false → one → s1.regionOk r.val v.toNat = true →
      let x := s1.region r.val
      let v0 := x.slots.getD 0 {}
      let s2 := s1.setRegion r.val (({ x with cur := 1, curSlot := 0 } : RegionSt).setSlot 0 { used := true, ver := 1, serial := max 1 v0.serial, ended := v0.ended })
      ∃ t, exec (.xltVerRgnIdWrite w r v) s = .next t ∧ s2.stored t .XLT_VER_RGN_ID 0 r.val 0 v.toNat)) ∧
  ∀ (w : Writer) (r : Region) (n : Fin 16) (s : State), s.admits w .XLT_VER_CMD 0 →
    let s1 := s.wakeFor w
    let x := s1.region r.val
    let v := x.slots.getD n.val {}
    let y := x.pends.getD n.val {}
    let answers (i : Instr) (u : State) (st : Status) : Prop :=
      ∃ t, exec i s = .next t ∧ t.fld F.XLT_VER_CSTAT_RESULT = st.code ∧ t = { u with regs := t.regs, rsp := (.ok, 0) } ∧
        u.regsBut t [RegName.XLT_VER_CSTAT.addr 0 0 0]
    (s1.rgnV r.val = false → answers (.forceClose w r n) s1 .accessDenied ∧ answers (.discardPendingSlot w r n) s1 .accessDenied ∧
      answers (.destroyRegion w r) s1 .accessDenied) ∧
    (s1.rgnV r.val = true →
      (v.used = false → answers (.forceClose w r n) s1 .accessDenied) ∧
      (v.used = true → n.val = x.curSlot → answers (.forceClose w r n)
        ((s1.setRegion r.val (x.setSlot n.val { v with opens := 0, serial := nextSerial v.serial, ended := v.ended ++ [v.serial] })).settle) .ok) ∧
      (v.used = true → n.val ≠ x.curSlot → answers (.forceClose w r n) ((s1.setRegion r.val (x.setSlot n.val (v.free true))).settle) .ok) ∧
      (y.used = false → answers (.discardPendingSlot w r n) s1 .accessDenied) ∧
      (y.used = true → answers (.discardPendingSlot w r n) ((s1.setRegion r.val (x.setPend n.val y.free)).settle) .ok) ∧
      ∃ u : State, answers (.destroyRegion w r) ((u.invalidate (fun c g => c == s1.rgnCtx r.val && g == s1.rgnSeg r.val)).settle) .ok ∧
        u.rgnV r.val = false ∧ u.region r.val = { cur := 0, curSlot := 0, slots := x.slots.map (fun z => z.free false), pends := x.pends.map PSlot.free } ∧
        u = { s1 with regs := u.regs, ver := u.ver } ∧ s1.regsBut u [RegName.XLT_VER_RGN_ID.addr 0 r.val 0])

/-- Bindings, segments and extents are written only as allowed; misses walk; faults are held, recorded, resumed or time out; revokes withdraw (R36, R37, R38, R43, R48, R50, R53, R54, R55, R57, R58). -/
def Obligations.TranslationWalksFaultsAndRevokes : Prop :=
  (∀ (w : Writer) (c : Ctx) (v : BitVec 64) (s : State), s.admits w .XLT_CTX_BIND 0 →
    let s1 := s.wakeFor w
    let cur := s1.regVal .XLT_CTX_BIND 0 c.val
    let bound : Prop := F.XLT_CTX_BIND_V.of cur = 1
    let taken : Prop := F.XLT_CTX_BIND_V.of v.toNat = 1 ∧ (s1.ctxOf (F.XLT_CTX_BIND_PORT.of v.toNat) (F.XLT_CTX_BIND_SRC_EP.of v.toNat)).isSome = true
    (bound → exec (.xltCtxBindWrite w c v) s =
      .next (s1.respond (if v.toNat &&& RegName.XLT_CTX_BIND.mask accRW = cur then .ok else .accessDenied))) ∧
    (¬bound → F.XLT_CTX_BIND_PORT.of v.toNat = 14 ∨ taken → exec (.xltCtxBindWrite w c v) s = .next (s1.respond .accessDenied)) ∧
    (¬bound → F.XLT_CTX_BIND_PORT.of v.toNat ≠ 14 → ¬taken →
      ∃ t, exec (.xltCtxBindWrite w c v) s = .next t ∧ s1.stored t .XLT_CTX_BIND 0 c.val 0 v.toNat)) ∧
  (∀ (w : Writer) (c : Ctx) (g : Fin 8) (v : BitVec 64) (s : State), s.admits w .XLT_SEG_ATTR 0 →
    let s1 := s.wakeFor w
    let x := v.toNat
    let cur := s1.segAttr c.val g.val
    let valid : Prop := F.XLT_SEG_ATTR_V.of cur = 1
    let sets : Prop := F.XLT_SEG_ATTR_V.of x = 1
    let moved : Prop := F.XLT_SEG_ATTR_REMOTE.of cur = 0 ∧ attrNoTable x = attrNoTable cur ∧ s1.segSetOk c.val g.val x = true
    let allowed : Prop := if valid then moved else if sets then s1.segSetOk c.val g.val x = true ∧ attrReserved x = false else F.XLT_SEG_ATTR_PCLASS.of x ≠ 3
    (s1.flag F.XLT_CTX_GEN_RVK 0 c.val = true → exec (.xltSegAttrWrite w c g v) s = .next (s1.respond .busy)) ∧
    (s1.flag F.XLT_CTX_GEN_RVK 0 c.val = false →
      (¬allowed → exec (.xltSegAttrWrite w c g v) s = .next (s1.respond .accessDenied)) ∧
      (allowed → ∃ t, exec (.xltSegAttrWrite w c g v) s = .next t ∧ s1.stored t .XLT_SEG_ATTR 0 c.val g.val x))) ∧
  (∀ (w : Writer) (s : State), s.admits w .XLT_EXT_OP 0 →
    let s1 := s.wakeFor w
    let i := s1.fld F.XLT_EXT_INDEX_INDEX
    let e := (s1.regVal .XLT_EXT_DATA0, s1.regVal .XLT_EXT_DATA1)
    (∃ t, exec (.extRead w) s = .next t ∧ t.regVal .XLT_EXT_DATA0 = (s1.extWords i).1 ∧ t.regVal .XLT_EXT_DATA1 = (s1.extWords i).2 ∧
      t = { s1 with regs := t.regs, rsp := (.ok, 0) } ∧ s1.regsBut t [RegName.XLT_EXT_DATA0.addr 0 0 0, RegName.XLT_EXT_DATA1.addr 0 0 0]) ∧
    (s1.extWriteOk e = false → exec (.extWrite w) s = .next (s1.respond .accessDenied)) ∧
    (s1.extWriteOk e = true → ∃ t, exec (.extWrite w) s = .next t ∧ t = { s1 with pool := { s1.pool with ext := t.pool.ext }, rsp := (.ok, 0) } ∧
      (∀ j, t.extWords j = if j = i then e else s1.extWords j) ∧ (smWf 0 s1.pool.ext = true → smWf 0 t.pool.ext = true))) ∧
  (∀ (q : Quarter) (s : State),
    let wants (m : Miss) : Bool := m.q == q.val && !m.fault && !s.xlt.walks.any (fun x => x.serves m)
    let taken (n : Nat) : Prop := ∃ x ∈ s.xlt.walks, x.q = q.val ∧ x.walker = n
    (s.xlt.missQ.find? wants = none ∨ (∀ n, n < 32 → taken n) → exec (.walkStart q) s = .next s) ∧
    (∀ m n, s.xlt.missQ.find? wants = some m → n < 32 → ¬taken n → (∀ j, j < n → taken j) →
      let x : Walk := { q := q.val, walker := n, ctx := m.ctx, seg := m.seg, block := m.page / 16, gen := s.gen m.ctx
                        ents := s.walkEnts m.ctx m.seg (m.page / 16), probes := s.walkProbes m.ctx m.seg m.page }
      exec (.walkStart q) s = .next (({ s with xlt := { s.xlt with walks := s.xlt.walks ++ [x] } } : State).sendProbe x)) ∧
    (∀ (n : Fin 32) (bad : CopyErr),
      ((∀ x ∈ s.xlt.walks, ¬(x.q = q.val ∧ x.walker = n.val)) → exec (.walkEnd q n bad) s = .next s) ∧
      ∀ x, s.xlt.walks.find? (fun x => x.q == q.val && x.walker == n.val) = some x →
        (x.probes ≠ [] → exec (.walkEnd q n bad) s = .next s) ∧
        (x.probes = [] → s.gen x.ctx ≠ x.gen →
          let y : Walk := { x with gen := s.gen x.ctx, ents := s.walkEnts x.ctx x.seg x.block, probes := s.walkProbes x.ctx x.seg (x.block * 16) }
          exec (.walkEnd q n bad) s = .next (({ s with xlt := { s.xlt with walks := s.xlt.walks.map (fun z =>
            if z = x then y else z) } } : State).sendProbe y)) ∧
        (x.probes = [] → s.gen x.ctx = x.gen → exec (.walkEnd q n bad) s = .next (((s.xlt.missQ.filter (fun m => x.serves m && !m.fault)).foldl
          (fun (u : State) m => u.walkMiss x (bad.c0 && bad.c1 && bad.c2) m) { s with xlt := { s.xlt with walks := s.xlt.walks.filter (· ≠ x) } }).settle))) ∧
    ((∀ m ∈ s.xlt.missQ, ¬(m.q = q.val ∧ m.fault = true)) → exec (.faultEntryAllocate q) s = .next s) ∧
    (∀ m, s.xlt.missQ.find? (fun m => m.q == q.val && m.fault) = some m → exec (.faultEntryAllocate q) s = .next ((s.fault m).settle)) ∧
    ((∀ r ∈ s.xlt.recQ, r.q ≠ q.val) → exec (.faultRecordWrite q) s = .next s) ∧
    (∀ r, s.xlt.recQ.find? (fun r => r.q == q.val) = some r →
      let n := ringSlots (s.fld F.XLT_FLT_LOG_SIZE_LOG2N) 6 16
      let k := s.fld F.XLT_FLT_PROD_PROD + s.tl.outFault.length
      let room : Prop := n ≠ 0 ∧ (k + 2 ^ 32 - s.fld F.XLT_FLT_CONS_CONS) % 2 ^ 32 < n ∧ s.msgRoom = true
      (¬room → exec (.faultRecordWrite q) s = .next s) ∧
      (room → ∃ (u : State) (words : List Nat), exec (.faultRecordWrite q) s =
          .next (u.hostWrite (s.fld F.XLT_FLT_LOG_BASE_BASE * 4096 + k % n * 64) (wordBytes words) (.ring .fault (srcXlt r.q))) ∧
        (∀ j, j ≠ 3 → words.getD j 0 = r.words.getD j 0) ∧ u.xlt.recQ = s.xlt.recQ.erase r ∧ u.tl.outFault = s.tl.outFault ++ [(false, srcXlt r.q)] ∧
        u = { s with xlt := { s.xlt with recQ := u.xlt.recQ }, tl := { s.tl with outFault := u.tl.outFault } }))) ∧
  (∀ (w : Writer) (fid : BitVec 16) (s : State), s.admits w .XLT_FLT_RESUME 0 →
    let s1 := s.wakeFor w
    (s1.faultOf fid.toNat = none →
      exec (.resumeRetry w fid) s = .next ((s1.setRstat fid.toNat 1 0).respond .ok) ∧
      exec (.resumeFail w fid) s = .next ((s1.setRstat fid.toNat 1 0).respond .ok)) ∧
    (∀ f, s1.faultOf fid.toNat = some f →
      (∃ u : State, exec (.resumeRetry w fid) s = .next (u.settle.respond .ok) ∧ u.fld F.XLT_FLT_RSTAT_RESULT = 0 ∧
        u.ord.reqs = (f.waiters.foldl (fun z x => z.updPiece x.1 x.2 (fun p => { p with state := .waiting, retried := some s1.now })) s1).ord.reqs ∧
        u = { s1 with ord := { s1.ord with reqs := u.ord.reqs }, regs := u.regs, xlt := u.xlt } ∧ s1.regsBut u [RegName.XLT_FLT_RSTAT.addr 0 0 0]) ∧
      exec (.resumeFail w fid) s =
        .next (((((s1.setRstat fid.toNat 0 f.waiters.length).failWaiters f (fun _ => true) .accessDenied).dropWaiters).settle).respond .ok))) ∧
  (∀ (q : Quarter) (e : Fin 128) (s : State),
    let late (p : Piece) : Bool := p.heldAt + s.fld1 F.XLT_CTL_FLT_TMO * 10000 < s.now
    let waits (m : Miss) : Prop := m.q = q.val ∧ m.fault = true ∧ ∃ p, s.piece m.req m.piece = some p ∧ late p = true
    let due : Prop := (∃ f ∈ s.xlt.faults, f.q = q.val ∧ f.e = e.val ∧ ∃ x ∈ f.waiters, ∃ p, s.piece x.1 x.2 = some p ∧ late p = true) ∨
      ∃ m ∈ s.xlt.missQ, waits m
    (due → exec (.faultTimeout q e) s = .next (s.decideLate (.timeout q.val e.val))) ∧
    (¬due → exec (.faultTimeout q e) s = .next s) ∧
    ∀ f, s.xlt.faults.find? (fun f => f.q == q.val && f.e == e.val) = some f → (∀ m ∈ s.xlt.missQ, ¬waits m) →
      s.lateNow (.timeout q.val e.val) = (s.failWaiters f late .faultTimeout).dropWaiters) ∧
  (∀ (w : Writer) (c : Ctx) (g : Fin 8) (tag : BitVec 16) (s : State), s.admits w .XLT_RVK_CMD 0 →
    let s1 := s.wakeFor w
    let queues (i : Instr) (gs typ : Nat) : Prop :=
      let new := s1.regVal .XLT_RVK_NEW
      (s1.imageOk c.val gs typ new = false → exec i s = .next (s1.respond .accessDenied)) ∧
      (s1.imageOk c.val gs typ new = true → 64 ≤ s1.xlt.rvkQ.length → exec i s = .next (s1.respond .busy)) ∧
      (s1.imageOk c.val gs typ new = true → s1.xlt.rvkQ.length < 64 → ∃ t, exec i s = .next t ∧ t.rsp = (.ok, 0) ∧
        t.xlt = { s1.xlt with rvkQ := s1.xlt.rvkQ ++
          [{ ctx := c.val, seg := gs, typ := typ, first := s1.fld F.XLT_RVK_RANGE_FIRST, count := s1.fld F.XLT_RVK_RANGE_COUNT, new := new, tag := tag.toNat }] } ∧
        t.fld F.XLT_RVK_STAT_QUEUED = s1.xlt.rvkQ.length + 1 ∧ t.flag F.XLT_CTX_GEN_RVK 0 c.val = true ∧
        t = { s1 with xlt := t.xlt, regs := t.regs, stks := t.stks, intc := t.intc, rsp := t.rsp })
    queues (.revokeUnmap w c g tag) g.val 0 ∧ queues (.revokeRemap w c g tag) g.val 1 ∧ queues (.revokeProtect w c g tag) g.val 2 ∧
      queues (.revokeSegment w c g tag) g.val 3 ∧ queues (.revokeContext w c tag) 0 4) ∧
  ∀ (c : Ctx) (s : State),
    ((∃ r ∈ s.xlt.rvkRun, r.ctx = c.val) ∨ (∀ r ∈ s.xlt.rvkQ, r.ctx ≠ c.val) → exec (.revokeStart c) s = .next s) ∧
    (∀ r, (∀ x ∈ s.xlt.rvkRun, x.ctx ≠ c.val) → s.xlt.rvkQ.find? (fun r => r.ctx == c.val) = some r →
      let refused : Bool := !s.imageOk r.ctx r.seg r.typ r.new || (r.typ ≤ 3 && !s.segV r.ctx r.seg)
      (refused = true → exec (.revokeStart c) s =
        .next (({ s with xlt := { s.xlt with rvkQ := s.xlt.rvkQ.erase r } } : State).revokeDone r .accessDenied 0)) ∧
      (refused = false → r.typ ≤ 3 → r.ctx < 4096 → r.seg < 8 →
        ∃ t r', exec (.revokeStart c) s = .next t ∧ t.xlt.rvkQ = s.xlt.rvkQ.erase r ∧ t.xlt.rvkRun = s.xlt.rvkRun ++ [r'] ∧
          r' = { r with old := [(r.seg, s.segAttr r.ctx r.seg)] } ∧
          t.gen r.ctx = (s.gen r.ctx + 1) % 2 ^ F.XLT_CTX_GEN_GEN.width ∧
          t.segAttr r.ctx r.seg = (if r.typ ≤ 2 then r.new % 2 ^ 64 else setBits (s.segAttr r.ctx r.seg) F.XLT_SEG_ATTR_V.lo F.XLT_SEG_ATTR_V.width 0) ∧
          (∀ e x, (e, x) ∈ t.xlt.tlb → ∀ y ∈ x, y.ctx ≠ r.ctx) ∧ (∀ i x, (i, x) ∈ t.xlt.l2 → ∀ y ∈ x, y.run.ctx ≠ r.ctx) ∧
          t.flag F.XLT_CTX_GEN_RVK 0 r.ctx = true ∧ t.flag F.XLT_RVK_STAT_BUSY = true)) ∧
    (let s1 := s.settleLooms
     ((∀ r ∈ s1.xlt.rvkRun, r.ctx ≠ c.val) → exec (.revokeDrainEnd c) s = .next s1) ∧
     ∀ r, s1.xlt.rvkRun.find? (fun r => r.ctx == c.val) = some r →
       let ends (u : State) (n : Nat) : Prop := exec (.revokeDrainEnd c) s =
         .next ((({ u with xlt := { u.xlt with rvkRun := u.xlt.rvkRun.erase r } } : State).revokeDone r .ok n).settle)
       (∀ n, r.ended = some n → (s1.revokeIdle r = true → ends s1 n) ∧ (s1.revokeIdle r = false → exec (.revokeDrainEnd c) s = .next s1)) ∧
       (r.ended = none → s1.drained r = false →
         (s1.oldInFlight r.ctx = true → exec (.revokeDrainEnd c) s = .next s1) ∧
         (s1.oldInFlight r.ctx = false → exec (.revokeDrainEnd c) s = .next (s1.recallRest r))) ∧
       (r.ended = none → s1.drained r = true →
         let p := s1.revokeStep4 r
         (p.2.revokeIdle r = true → ends p.2 p.1) ∧
         (p.2.revokeIdle r = false → exec (.revokeDrainEnd c) s = .next (({ p.2 with
           xlt := { p.2.xlt with rvkRun := (p.2.xlt.rvkRun.map (fun x => if x = r then { x with ended := some p.1 } else x)) } } : State).settle))))

/-- Mover channels start when bound and idle, check each descriptor, report its outcome, halt at the first failure, and stop or go on (R91, R92, R93, R94, R95). -/
def Obligations.MoverChannelsRunHaltAndStop : Prop :=
  (∀ (w : Writer) (q : Quarter) (k : Fin 16) (v : BitVec 64) (s : State), s.admits w .MOV_CH_CTX q.val →
    let s1 := s.wakeFor w
    let bad : Prop := s1.movState q.val k.val ≠ 0 ∨ (F.MOV_CH_CTX_V.of v.toNat = 1 ∧ s1.ctxV (F.MOV_CH_CTX_CTX.of v.toNat) = false)
    (bad → exec (.movChCtxWrite w q k v) s = .next (s1.respond .accessDenied)) ∧
    (¬bad → ∃ t, exec (.movChCtxWrite w q k v) s = .next t ∧ (s1.setFld F.MOV_CH_STAT_DONE 0 q.val k.val).stored t .MOV_CH_CTX q.val k.val 0 v.toNat ∧
      t.fld F.MOV_CH_STAT_DONE q.val k.val = 0)) ∧
  (∀ (w : Writer) (q : Quarter) (k : Fin 16) (h : BitVec 64) (s : State), s.admits w .MOV_CH_START q.val →
    let s1 := s.wakeFor w
    let good : Prop := s1.flag F.MOV_CH_CTX_V q.val k.val = true ∧ h.toNat.testBit 63 = true ∧ h.toNat % 64 = 0
    (s1.movState q.val k.val ≠ 0 → exec (.movChStart w q k h) s = .next (s1.respond .busy)) ∧
    (s1.movState q.val k.val = 0 → ¬good → exec (.movChStart w q k h) s = .next (s1.respond .accessDenied)) ∧
    (s1.movState q.val k.val = 0 → good → ∃ u : State, exec (.movChStart w q k h) s = .next (u.settle.respond .ok) ∧
      u.movState q.val k.val = 1 ∧
      u.mover q.val k.val = { s1.mover q.val k.val with next := h.toNat, failing := none, retry := false, stopping := false } ∧
      (∀ a b, b < 16 → ¬(a = q.val ∧ b = k.val) → u.mover a b = s1.mover a b) ∧ u = { s1 with movers := u.movers, regs := u.regs } ∧
      s1.regsBut u [RegName.MOV_CH_STAT.addr q.val k.val 0])) ∧
  (∀ (q : Quarter) (k : Fin 16) (s : State),
    let m := s.mover q.val k.val
    let got := s.ord.done.find? (fun d => d.dest == .descr q.val k.val)
    let ends : Bool := m.stopping || m.failing.isSome || s.moverFailed q.val k.val
    let taken (d : Done) (m' : Mover) : State := (s.setOrd { s.ord with done := s.ord.done.erase d }).setMover q.val k.val m'
    (m.fetching = none ∨ got = none → exec (.descriptorFetch q k) s = .next s) ∧
    ∀ h d, m.fetching = some h → got = some d →
      (ends = true → exec (.descriptorFetch q k) s = .next ((taken d { m with fetching := none }).settle)) ∧
      (ends = false → s.lastStarted q.val k.val = false ∨ 4 ≤ m.descs.length → exec (.descriptorFetch q k) s = .next s) ∧
      (ends = false → s.lastStarted q.val k.val = true → m.descs.length < 4 →
        (d.out.status ≠ .ok → exec (.descriptorFetch q k) s =
          .next ((taken d { m with fetching := none, failing := some (h, d.out.status, true, d.out.tag) }).settle)) ∧
        (d.out.status = .ok → ∃ (u : State) (x : Desc), exec (.descriptorFetch q k) s = .next u.settle ∧
          u.mover q.val k.val = { m with fetching := none, serial := m.serial + 1, descs := m.descs ++ [x],
                                         next := if m.retry then m.next else x.next, retry := false } ∧
          x.handle = h ∧ x.serial = m.serial ∧ x.words = (List.range 8).map (fun i => wordAt d.data (8 * i)) ∧
          x.denied = !descOk x.words (s.flag F.SEC_STAT_CONF) ∧ x.issued = 0 ∧ x.finished = 0 ∧ x.failed = [] ∧ x.written = false ∧
          u.regVal .MOV_CH_CUR q.val k.val = h % 2 ^ 64 ∧ u = { s with ord := { s.ord with done := s.ord.done.erase d }, movers := u.movers, regs := u.regs } ∧
          s.regsBut u [RegName.MOV_CH_CUR.addr q.val k.val 0]))) ∧
  (∀ (q : Quarter) (k : Fin 16) (s : State),
    let m := s.mover q.val k.val
    let got := s.ord.done.find? (fun d => match d.dest with | .outcome a b _ => a == q.val && b == k.val | _ => false)
    (got = none → exec (.descriptorComplete q k) s = .next s) ∧
    ∀ d a b n, got = some d → d.dest = .outcome a b n →
      ((∀ x ∈ m.descs, x.serial ≠ n) → exec (.descriptorComplete q k) s = .next (s.setOrd { s.ord with done := s.ord.done.erase d })) ∧
      ∀ x, m.descs.find? (fun x => x.serial == n) = some x →
        ∃ u : State, exec (.descriptorComplete q k) s = .next u.settle ∧
          u.mover q.val k.val = { m with
            descs := m.descs.filter (fun y => y.serial ≠ n)
            failing := if m.failing.isSome then m.failing
              else if d.out.status ≠ .ok then some (x.handle, d.out.status, true, x.tag)
              else if x.outcome.status ≠ .ok then some (x.handle, x.outcome.status, false, x.tag) else m.failing } ∧
          u = { s with ord := { s.ord with done := s.ord.done.erase d }, movers := u.movers, regs := u.regs, intc := u.intc } ∧
          s.regsBut u [RegName.MOV_CH_STAT.addr q.val k.val 0] ∧
          (d.out.status ≠ .ok → u.regs = s.regs ∧ u.intc = s.intc) ∧
          (d.out.status = .ok → u.fld F.MOV_CH_STAT_DONE q.val k.val = (s.fld F.MOV_CH_STAT_DONE q.val k.val + 1) % 2 ^ F.MOV_CH_STAT_DONE.width ∧
            u.fld F.MOV_CH_STAT_WBF q.val k.val = 0 ∧ u.fld F.MOV_CH_STAT_LAST_STATUS q.val k.val = x.outcome.status.code ∧
            u.fld F.MOV_CH_STAT_LAST_TAG q.val k.val = x.tag ∧ u.movState q.val k.val = s.movState q.val k.val ∧
            if (x.int && !s.quarterDown q.val) = true then s.raised u (0x040 + 0x40 * q.val + 10) else u.intc = s.intc)) ∧
  (∀ (w : Writer) (q : Quarter) (k : Fin 16) (s : State), s.admits w .MOV_CH_CMD q.val →
    let s1 := s.wakeFor w
    let st := s1.movState q.val k.val
    let m := s1.mover q.val k.val
    (st ≠ 3 → exec (.moverResume w q k) s = .next (s1.respond .accessDenied) ∧ exec (.moverRetry w q k) s = .next (s1.respond .accessDenied)) ∧
    (st = 3 →
      exec (.moverResume w q k) s = .next (((s1.setFld F.MOV_CH_STAT_STATE 1 q.val k.val).settle).respond .ok) ∧
      ∃ u : State, exec (.moverRetry w q k) s = .next (u.settle.respond .ok) ∧ u.movState q.val k.val = 1 ∧
        u.mover q.val k.val = { m with retry := !(s1.flag F.MOV_CH_STAT_WBF q.val k.val && s1.regVal .MOV_CH_CUR q.val k.val == m.next) } ∧
        u = { s1 with movers := u.movers, regs := u.regs } ∧ s1.regsBut u [RegName.MOV_CH_STAT.addr q.val k.val 0]) ∧
    (st = 0 ∨ 4 ≤ st → exec (.moverStop w q k) s = .next (s1.respond .accessDenied)) ∧
    (1 ≤ st → st ≤ 3 → ∃ t, exec (.moverStop w q k) s = .next t ∧ t.movState q.val k.val = 4 ∧
      t.mover q.val k.val = { m with next := 0, retry := false, stopping := true, stopAt := some s1.now } ∧
      t = { s1 with movers := t.movers, regs := t.regs, rsp := (.ok, 0) } ∧ s1.regsBut t [RegName.MOV_CH_STAT.addr q.val k.val 0])) ∧
  ∀ (q : Quarter) (k : Fin 16) (s : State),
    let m := s.mover q.val k.val
    let ended : Prop := s.movState q.val k.val = 4 ∧ s.moverBusy q.val k.val = false
    (¬ended → exec (.moverStopEnd q k) s = .next s) ∧
    (ended → ∃ t, exec (.moverStopEnd q k) s = .next t ∧ t.movState q.val k.val = 0 ∧
      t.mover q.val k.val = { m with stopping := false, failing := none, clearV := false } ∧
      t.flag F.MOV_CH_CTX_V q.val k.val = (!m.clearV && s.flag F.MOV_CH_CTX_V q.val k.val) ∧
      t = { s with movers := t.movers, regs := t.regs } ∧
      s.regsBut t [RegName.MOV_CH_STAT.addr q.val k.val 0, RegName.MOV_CH_CTX.addr q.val k.val 0])

/-- Caching requests, notices, snoop responses, stashes, broadcasts and deaths act on their line, and only from the agent they name (R99, R102, R105, R106, R109, R112, R113, R114). -/
def Obligations.CoherenceCommandsKeepTheDirectory : Prop :=
  (∀ (p : Arr) (k : Packet) (s : State),
    (k.typN ≠ 0x41 → exec (.rdshared p k) s = .next s) ∧ (k.typN ≠ 0x42 → exec (.rdown p k) s = .next s) ∧
    (k.typN ≠ 0x43 → exec (.upgrade p k) s = .next s) ∧
    ((p.val, k) ∈ s.hub.delivered →
      let s1 : State := { s with hub := { s.hub with delivered := s.hub.delivered.erase (p.val, k) } }
      let a := s1.requester p.val k
      let k1 : Packet := { k with len := 64, w4 := BitVec.ofNat 64 (a.getD 0) }
      let caches (i : Instr) (kind : ReqKind) : Prop :=
        (s1.ctxOf p.val k.srcN = none → exec i s = .next (((s1.countDeny (arrQuarter p.val)).refuse p.val k1 .accessDenied).settle)) ∧
        (∀ c, s1.ctxOf p.val k.srcN = some c → s1.sealed_ p.val k = true → exec i s = .next ((s1.refuse p.val k1 .accessDenied).settle)) ∧
        (∀ c, s1.ctxOf p.val k.srcN = some c → s1.sealed_ p.val k = false →
          let v : Police := if p.val < 14 then (s1.police c 64).1 else .pass
          let s2 : State := if p.val < 14 then (s1.police c 64).2 else s1
          let ch : Chan := ⟨c, .port p.val, k.chN⟩
          let closed : Prop := s1.refusing ch = true ∨ 256 ≤ s1.chanCount ch ∨ 4096 ≤ s1.portCount (.port p.val) ∨ v = .drop
          let denied : Prop := s1.flag F.COH_CTL_EN = false ∨ a = none ∨ ∃ x ∈ s1.ord.reqs, x.chan = ch ∧ x.tag = k.tagN
          ∃ (u : State) (r : Req), exec i s = .next u.settle ∧ u.ord.reqs = s1.ord.reqs ++ [r] ∧ r.id = s1.ord.nextId ∧ r.chan = ch ∧ r.tag = k.tagN ∧
            r.kind = kind ∧ r.len = 64 ∧ u = { s1 with hub := { s1.hub with pol := u.hub.pol }, regs := u.regs, ord := u.ord } ∧
            (closed → r.refused = true ∧ r.fixed = some .busy ∧ r.pieces = []) ∧
            (¬closed → denied → r.refused = false ∧ r.fixed = some .accessDenied ∧ r.pieces = []) ∧
            (¬closed → ¬denied → r.refused = false ∧ r.fixed = none ∧ r.pieces = s2.plainPieces c (k.addr.toNat - k.addr.toNat % 64) 64))
      (k.typN = 0x41 → caches (.rdshared p k) .rdShared) ∧ (k.typN = 0x42 → caches (.rdown p k) .rdOwn) ∧
      (k.typN = 0x43 → caches (.upgrade p k) .upgrade))) ∧
  (∀ (p : Port) (k : Packet) (s : State), (p.val, k) ∈ s.hub.delivered →
    let s1 : State := { s with hub := { s.hub with delivered := s.hub.delivered.erase (p.val, k) } }
    let home : Prop := lidSlot k.addr.toNat = s.slot
    let line := k.lineOf
    let d := sliceBytes k.payload 0 64
    (k.typN = 0x44 →
      (s.senderAgent p.val k = none ∨ ¬home → exec (.evclean p k) s = .next s1) ∧
      (∀ i, s.senderAgent p.val k = some i → home → exec (.evclean p k) s = .next ((s1.notice i line k.gtag none).settle))) ∧
    (k.typN = 0x45 →
      (s.senderAgent p.val k = none ∨ ¬home → exec (.wbdirty p k) s = .next s1) ∧
      (∀ i, s.senderAgent p.val k = some i → home → exec (.wbdirty p k) s = .next ((s1.notice i line k.gtag (some d)).settle))) ∧
    (let responds (c : Instr) (f : Nat → Snoop → State) : Prop :=
       (s.senderAgent p.val k = none → exec c s = .next s1) ∧
       (∀ i, s.senderAgent p.val k = some i →
         (¬home → exec c s = .next ((s1.peerAnswer i k.addr).settle)) ∧
         (home → (s.txn line).bind (fun t => t.snoopOf i k.gtag) = none → exec c s = .next s1) ∧
         (∀ x, home → (s.txn line).bind (fun t => t.snoopOf i k.gtag) = some x → exec c s = .next ((f i x).progress.settle)))
     (k.typN = 0x4C → responds (.rspdata p k) (fun i _ => s1.answerSnoop line i (some d))) ∧
     (k.typN = 0x4D → responds (.rspok p k) (fun i _ => s1.answerSnoop line i none)) ∧
     (k.typN = 0x4B → responds (.rspi p k) (fun i x =>
       if ∃ e, s.dirEntry line = some e ∧ (i, x.gtag) ∈ e.ptrs then
         if k.evs = true then s1.updTxn line (fun t => { t with snoops := t.snoops.map (fun y => if y = x then { y with evs := true } else y) })
         else s1.declareDead i 1 true
       else s1.answerSnoop line i none))) ∧
    (let waits (i : Nat) (t : Txn) (l : LineReq) : Prop := s.senderAgent p.val k = some i ∧ home ∧ s.txn line = some t ∧
       (∃ g, t.why = .engWrite l g) ∧ t.stash.map (·.1) = some i
     (k.typN = 0x4E →
       ((∀ i t l, ¬waits i t l) → ∃ u : State, (exec (.stashack p k) s = .next u) ∧ (u = s1 ∨ u = s1.settle)) ∧
       ∀ i t l, waits i t l → ∃ u : State, exec (.stashack p k) s = .next
           ((((s.coh.waiting.filterMap (s.waitsFor line i)).foldl (fun (z : State) id => z.grant line id true (some (t.data.getD [], false)) true) u).progress).settle) ∧
         u.dirEntry line = some ⟨.owned, [(i, ((Config.gtag0 line).toNat + smGet 0 s.coh.grants line) % 256)], s.coh.clock⟩ ∧ u.txn line = none ∧
         u.pool = s1.pool) ∧
     (k.typN = 0x4F →
       ((∀ i t l, ¬waits i t l) → ∃ u : State, (exec (.stashref p k) s = .next u) ∧ (u = s1 ∨ u = s1.settle)) ∧
       ∀ i t l, waits i t l → ∃ u : State, exec (.stashref p k) s =
           .next (((u.toStack { l with under := t.data }).progress).settle) ∧
         u.dirEntry line = none ∧ u.txn line = none ∧ u.pool = s1.pool)) ∧
    (k.typN = 0x50 → ∃ (u : State) (b : PeerInv), exec (.binv p k) s = .next u.settle ∧ u.coh = { s1.coh with peers := s1.coh.peers ++ [b] } ∧
      b.lid = k.addr ∧ b.home = k.src ∧ b.snoops.map (·.agent) = s1.localAgents ∧ (s1.localAgents = [] → u = { s1 with coh := u.coh })) ∧
    (k.typN = 0x51 →
      let from_ := s.peers.find? (fun n => s.fld F.COH_PEER_EP_EP 0 n == k.srcN)
      (¬home ∨ from_ = none → exec (.back p k) s = .next s1) ∧
      (∀ n, home → from_ = some n → exec (.back p k) s = .next ((s1.gotBack line n).progress.settle))) ∧
    (k.typN = 0x52 → exec (.dead p k) s = .next ((s1.declareDead k.agent 4 false).settle))) ∧
  (∀ (s : State) (i line g : Nat) (data : Option (List (BitVec 8))),
    ∃ u : State, s.notice i line g data = (u.toAgent i 7 line g).progress ∧
      (∀ e, s.dirEntry line = some e → (i, g) ∈ e.ptrs →
        u.dirEntry line = if e.ptrs.filter (fun x => x ≠ (i, g)) = [] then none else some { e with ptrs := e.ptrs.filter (fun x => x ≠ (i, g)) }) ∧
      (s.dirEntry line = none → u.dirEntry line = none) ∧ (∀ j, j ≠ line → u.dirEntry j = s.dirEntry j)) ∧
  (∀ (s : State) (i why : Nat) (own : Bool), i < 512 →
    (s.agentLive i = false → s.declareDead i why own = s) ∧
    (s.agentLive i = true → ∃ u : State, s.declareDead i why own = (u.dropSnoops i).progress ∧ u.agentDead i = true ∧
      u.flag F.COH_RCL_STAT_BUSY = true ∧ u.fld F.COH_RCL_STAT_AGENT = i ∧ u.fld F.COH_RCL_STAT_POISONED = 0 ∧
      u.coh = { s.coh with sweeps := s.coh.sweeps ++ (List.range 4).map (fun q => ⟨q, i, 0, s.now, s.pointersOf q i⟩) } ∧ u.pool = s.pool ∧
      ∀ j, j < 512 → j ≠ i → u.agentDead j = s.agentDead j ∧ u.agentV j = s.agentV j)) ∧
  (∀ (a : Fin 512) (lid : BitVec 64) (s : State),
    let late (t : Nat) : Prop := t + s.snpTmo < s.now
    let line := lidLine lid.toNat
    (lidSlot lid.toNat ≠ s.slot →
      let due : Prop := ∃ b ∈ s.coh.peers, b.lid = lid ∧ ∃ x ∈ b.snoops, x.agent = a.val ∧ late x.since
      (due → exec (.snoopTimeout a lid) s = .next ((s.declareDead a.val 1 true).settle)) ∧ (¬due → exec (.snoopTimeout a lid) s = .next s)) ∧
    (lidSlot lid.toNat = s.slot →
      (s.txn line = none → exec (.snoopTimeout a lid) s = .next s) ∧
      (∀ t, s.txn line = some t →
        let due : Prop := ∃ x ∈ t.snoops, x.agent = a.val ∧ late x.since
        let stash : Prop := ∃ since, t.stash = some (a.val, since) ∧ late since
        (due → exec (.snoopTimeout a lid) s = .next ((s.declareDead a.val 1 true).settle)) ∧
        (¬due → ¬stash → exec (.snoopTimeout a lid) s = .next s) ∧
        (¬due → stash →
          let g := ((Config.gtag0 line).toNat + smGet 0 s.coh.grants line) % 256
          exec (.snoopTimeout a lid) s = .next ((((s.count F.COH_CNT_STASH_REF 1 (lineQuarter line)).snoop line (a.val, g) true).updTxn line (fun t =>
            { t with stash := none, stashLate := true, snoops := t.snoops ++ [⟨a.val, g, s.now, false⟩] })).settle))))) ∧
  (∀ (n : Fin 8) (lid : BitVec 64) (s : State),
    let line := lidLine lid.toNat
    let due : Prop := lidSlot lid.toNat = s.slot ∧ ∃ t, s.txn line = some t ∧ ∃ b ∈ t.backs, b.1 = n.val ∧ b.2 + 2 * s.snpTmo < s.now
    (due → exec (.backTimeout n lid) s = .next (((s.gotBack line n.val).slotDead n.val 5).progress.settle)) ∧
    (¬due → exec (.backTimeout n lid) s = .next s) ∧
    (let lost : Prop := n.val ∈ s.peers ∧ s.hasRoute (s.fld F.COH_PEER_EP_EP 0 n.val) = false ∧ smGet 0 s.coh.routeAt n.val + 1000000 ≤ s.now
     (¬lost → exec (.peerRouteLoss n) s = .next s) ∧
     (lost → exec (.peerRouteLoss n) s = .next ((({ s with coh := { s.coh with
       txns := s.coh.txns.map (fun t => { t with backs := t.backs.filter (fun b => b.1 ≠ n.val) }) } } : State).slotDead n.val 3).progress.settle)))) ∧
  (∀ (w : Writer) (a : Fin 512) (s : State), s.admits w .COH_DEAD_CMD 0 →
    exec (.cohDeadCmd w a) s = .next ((((s.wakeFor w).declareDead a.val 0 true).settle).respond .ok)) ∧
  (∀ (w : Writer) (i : Fin 512) (v : BitVec 64) (s : State), s.admits w .COH_AGENT 0 →
    let s1 := s.wakeFor w
    let m := RegName.COH_AGENT.mask accRW
    let cur := s1.regVal .COH_AGENT 0 i.val
    let same : Prop := setBits (v.toNat &&& m) 0 1 0 = setBits (cur &&& m) 0 1 0
    let keeps : Prop := F.COH_AGENT_V.of v.toNat = 1
    (s1.agentV i.val = true → ¬same ∨ (¬keeps ∧ s1.agentDead i.val = false) → exec (.cohAgentWrite w i v) s = .next (s1.respond .accessDenied)) ∧
    (s1.agentV i.val = true → same → keeps → exec (.cohAgentWrite w i v) s = .next (s1.respond .ok)) ∧
    (s1.agentV i.val = true → same → ¬keeps → s1.agentDead i.val = true →
      ∃ t, exec (.cohAgentWrite w i v) s = .next t ∧ t.agentV i.val = false ∧ t.agentDead i.val = false ∧
        t = { s1 with regs := t.regs, rsp := (.ok, 0) } ∧ s1.regsBut t [RegName.COH_AGENT.addr 0 i.val 0]) ∧
    (s1.agentV i.val = false → ∃ t, exec (.cohAgentWrite w i v) s = .next t ∧ (s1.setFld F.COH_AGENT_DEAD 0 0 i.val).stored t .COH_AGENT 0 i.val 0 v.toNat)) ∧
  (∀ (q : Quarter) (s : State),
    let due := s.coh.sweeps.find? (fun x => x.q == q.val && x.since + 16384 ≤ s.now)
    (due = none → exec (.reclaimSweepEnd q) s = .next s) ∧
    ∀ x, due = some x → ∃ u : State, exec (.reclaimSweepEnd q) s = .next u.settle ∧
      (∀ line e, lineQuarter line = q.val → u.dirEntry line = some e → e.state ≠ .broad → ∀ y ∈ e.ptrs, ¬(y.1 = x.agent ∧ (line, y.2) ∈ x.held)) ∧
      (∀ line, lineQuarter line ≠ q.val → u.dirEntry line = s.dirEntry line) ∧
      (∀ y ∈ u.coh.sweeps, ¬(y.q = q.val ∧ y.agent = x.agent ∧ y.since = x.since)) ∧ (s.quarterDown q.val = false → s.raised u (0x044 + 0x40 * q.val)) ∧
      (u.flag F.COH_RCL_STAT_BUSY = true ↔ u.coh.sweeps ≠ [])) ∧
  ∀ (s : State),
    (s.coh.plist = [] → exec .poisonListWrite s = .next s) ∧
    ∀ w rest, s.coh.plist = w :: rest →
      let n := ringSlots (s.fld F.COH_PLIST_SIZE_LOG2N) 9 20
      let k := s.fld F.COH_PLIST_PROD_PROD + s.tl.outPlist.length
      let room : Prop := n ≠ 0 ∧ (k + 2 ^ 32 - s.fld F.COH_PLIST_CONS_CONS) % 2 ^ 32 < n ∧ s.msgRoom = true
      (¬room → exec .poisonListWrite s = .next s) ∧
      (room → exec .poisonListWrite s = .next (({ s with
          coh := { s.coh with plist := rest }
          tl := { s.tl with outPlist := s.tl.outPlist ++ [(false, stackQuarter (bits w 0 4))] } } : State).hostWrite
        (s.fld F.COH_PLIST_BASE_BASE * 4096 + k % n * 8) (toBytes 8 w) (.ring .plist (stackQuarter (bits w 0 4)))))

/-- Stack commands take, pick and serve accesses, refresh and close banks, train, sleep, place, scan and migrate as their rules say (R121, R122, R124, R126, R130, R131, R132, R135, R136, R137, R139, R141). -/
def Obligations.StackControllersServeRefreshTrainAndMove : Prop :=
  (∀ (x : Stack) (k : Fin 8) (e : ReadErr) (s : State),
    let st := s.stk x.val
    (smGet [] st.coming k.val = [] ∨ 64 ≤ (smGet [] st.bufs k.val).length → exec (.stackRequestArrival x k e) s = .next s) ∧
    (∀ l rest, smGet [] st.coming k.val = l :: rest → (smGet [] st.bufs k.val).length < 64 →
      let taken : Stk := { st with coming := smSet [] st.coming k.val rest }
      let m : LineReq := { l with arr := cyclesAt s.now, target := targetCycles (s.fld F.STK_PORT_TARGET_NS x.val k.val) }
      let put : State := s.setStk x.val { taken with bufs := smSet [] st.bufs k.val (smGet [] st.bufs k.val ++ [m]) }
      (st.missing = true → exec (.stackRequestArrival x k e) s = .next ((((s.setStk x.val taken).upset e).serveLine l).settle)) ∧
      (st.missing = false → exec (.stackRequestArrival x k e) s = .next (((put.askStk x.val).fillStk x.val).settle))) ∧
    ((s.askStk x.val).stk x.val).lastReq = s.now ∧
    (s.stkState x.val = 5 → (s.askStk x.val).stkState x.val = 6 ∧ ((s.askStk x.val).stk x.val).exitAt = s.now) ∧
    (s.stkState x.val = 4 → (s.askStk x.val).stkState x.val = if s.now < st.entryAt + 2800 then openState (s.failedCh x.val) else 4) ∧
    (s.stkServes x.val = false → s.fillStk x.val = s)) ∧
  (∀ (c : Nat) (wr : Bool) (ls : List LineReq) (l : LineReq), pickBest c wr ls = some l → l ∈ ls ∧ ∀ m ∈ ls, pickBefore c wr m l = false) ∧
  (∀ (x : Stack) (ch : Fin 32) (e : ReadErr) (s : State),
    let s1 := s.fillStk x.val
    let picked := s1.cycles.findSome? (fun c => (s1.columnPick x.val ch.val c).map (fun l => (c, l)))
    (picked = none → exec (.columnCommandIssue x ch e) s = .next s1.settle) ∧
    (∀ c l, picked = some (c, l) →
      let k := s1.chanSt x.val ch.val
      ∃ u : State, exec (.columnCommandIssue x ch e) s = .next ((((u.upset e).serveLine l).fillStk x.val).settle) ∧
        u.bankQ x.val l.bank = (s1.bankQ x.val l.bank).erase l ∧
        (∀ b, b ≠ l.bank → u.bankQ x.val b = s1.bankQ x.val b ∧ u.bank x.val b = s1.bank x.val b) ∧
        (u.bank x.val l.bank).lastHit = c ∧ (u.bank x.val l.bank).fresh = false ∧
        ((u.bank x.val l.bank).row = none ∨ (u.bank x.val l.bank).row = (s1.bank x.val l.bank).row) ∧
        (u.chanSt x.val ch.val).cols = (if k.window = c / 64 then k.cols else 0) + 1 ∧ smGet false (u.chanSt x.val ch.val).lastWr (s1.bankColour l.bank) = l.wr ∧
        (u.chanSt x.val ch.val).colFree = c + 1 ∧ u = { s1 with stks := u.stks, regs := u.regs } ∧ ∀ y, y ≠ x.val → u.stk y = s1.stk y) ∧
    ∀ c l, s.columnPick x.val ch.val c = some l → s.stkServes x.val = true ∧ s.inPass x.val ch.val = false ∧ s.budget x.val ch.val c ≠ 0 ∧
      (s.chanSt x.val ch.val).colFree ≤ c ∧ l ∈ s.columnEligible x.val ch.val c ∧ s.colReady x.val ch.val l c = true ∧ s.writeWaits l = false ∧
      (∃ b ∈ chanBanks ch.val, s.inSlot b c = true ∧ l ∈ s.bankQ x.val b ∧ (s.bank x.val b).row = some l.row) ∧
      ∀ m ∈ s.columnEligible x.val ch.val c, pickBefore c (smGet false (s.chanSt x.val ch.val).lastWr (((s.columnEligible x.val ch.val c).head?.map (fun l => s.bankColour l.bank)).getD 0)) m l = false) ∧
  (∀ (x : Stack) (ch : Fin 32) (s : State),
    let s1 := s.fillStk x.val
    let awake : Prop := s.stkState x.val = 2 ∨ s.stkState x.val = 3 ∨ s.stkState x.val = 4
    let given := s1.cycles.findSome? (fun c => (s1.rowCommand x.val ch.val c).map (fun t => (c, t)))
    (¬awake → exec (.rowCommandIssue x ch) s = .next s) ∧ (awake → given = none → exec (.rowCommandIssue x ch) s = .next s1.settle) ∧
    ∀ c t, awake → given = some (c, t) →
      exec (.rowCommandIssue x ch) s = .next ((t.setChanSt x.val ch.val { t.chanSt x.val ch.val with rowFree := c + 1 }).settle)) ∧
  (∀ (x : Stack) (ch : Fin 32) (c : Nat) (s : State),
    let debt (b : Nat) : Int := (s.bank x.val b).debt
    let can (b : Nat) : Bool := s.bankReady x.val b c || s.preReady x.val b c
    let strict := s.flag F.SEC_STAT_STRICT
    let mine := (chanBanks ch.val).filter (fun b => s.inSlot b c)
    let forced := mine.find? (fun b => !strict && decide (0 < debt b) && decide ((s.postpone x.val : Int) ≤ debt b) && can b)
    let due := mine.find? (fun b => decide (0 < debt b) && (strict || !s.urgent x.val b c) && can b)
    let near := mine.find? (fun b => !(s.bank x.val b).nref.isEmpty && (s.actReady x.val ch.val b c || s.preReady x.val b c))
    let shut : Prop := c < (s.chanSt x.val ch.val).rowFree ∨ s.inPass x.val ch.val = true
    (shut → s.rowCommand x.val ch.val c = none) ∧
    (∀ b, ¬shut → forced = some b → s.rowCommand x.val ch.val c =
      some (if s.bankReady x.val b c = true then (s.count F.STK_CNT_FREF 1 x.val).refresh x.val b c else s.precharge x.val b c)) ∧
    (∀ b, ¬shut → forced = none → due = some b → s.rowCommand x.val ch.val c =
      some (if s.bankReady x.val b c = true then s.refresh x.val b c else s.precharge x.val b c)) ∧
    (∀ b, ¬shut → forced = none → due = none → near = some b → s.rowCommand x.val ch.val c =
      some (if s.actReady x.val ch.val b c = true then s.refreshRow x.val ch.val b c else s.precharge x.val b c)) ∧
    (strict = true → 16 ≤ c % 24 → s.rowCommand x.val ch.val c = none ∧ s.columnPick x.val ch.val c = none) ∧
    (strict = true → 16 ≤ c % 24 → ∀ b, s.inSlot b c = false) ∧ (strict = false → ∀ b, s.inSlot b c = true) ∧
    (∀ t, s.rowCommand x.val ch.val c = some t → t = { s with stks := t.stks, regs := t.regs } ∧ (∀ y, y ≠ x.val → t.stk y = s.stk y) ∧
      (t.stk x.val).queues = (s.stk x.val).queues) ∧
    (∀ b, (s.refresh x.val b c).bank x.val b = { s.bank x.val b with debt := debt b - 1, ref := some c }) ∧
    (∀ b, (s.precharge x.val b c).bank x.val b = { s.bank x.val b with row := none, pre := some c }) ∧
    ∀ b r, ((s.activate x.val ch.val b r c).bank x.val b).row = some r ∧ ((s.activate x.val ch.val b r c).bank x.val b).act = some c ∧
      ((s.activate x.val ch.val b r c).chanSt x.val ch.val).acts = (c :: (s.chanSt x.val ch.val).acts).take 4) ∧
  (∀ (x : Stack) (ch b : Fin 32) (s : State),
    let y := ch.val * 32 + b.val
    let k := s.bank x.val y
    let may (c : Nat) : Bool := decide ((s.chanSt x.val ch.val).rowFree ≤ c) && s.inSlot y c && s.preReady x.val y c && s.rowIdle x.val y c
    let owed : Prop := (s.stkState x.val = 2 ∨ s.stkState x.val = 3 ∨ s.stkState x.val = 4) ∧ k.dueAt ≤ s.now
    let p := s.rhThr x.val * 64
    let due := if k.clearAt = 0 then (s.stk x.val).rhAt + b.val * p / 32 else k.clearAt
    (∀ c, s.cycles.find? may = some c → exec (.idleClose x ch b) s =
      .next ((s.precharge x.val y c).setChanSt x.val ch.val { s.chanSt x.val ch.val with rowFree := c + 1 })) ∧
    (s.cycles.find? may = none → exec (.idleClose x ch b) s = .next s) ∧
    (owed → exec (.refreshDue x ch b) s = .next (s.setBank x.val y { k with
      debt := min 8 (k.debt + 1), dueAt := s.now + (if s.fld F.STK_REF_HOT_C x.val < s.fld F.STK_STAT_TEMP x.val then 1953 else 3906) })) ∧
    (¬owed → exec (.refreshDue x ch b) s = .next s) ∧
    (s.now < due → exec (.rowHammerClear x ch b) s = .next s) ∧
    (due ≤ s.now → ∃ n, exec (.rowHammerClear x ch b) s = .next (s.setBank x.val y { k with rh := [], spill := 0, clearAt := n }) ∧
      s.now < n ∧ n ≤ s.now + p ∧ p ∣ n - due)) ∧
  (∀ (x : Stack) (r : StackTrain) (s : State),
    let right : Prop := r.dies = 16 ∧ r.gib = 96 ∧ r.initOk = true
    (s.stkState x.val ≠ 1 → exec (.stackTrainingEnd x r) s = .next s) ∧
    (s.stkState x.val = 1 → r.answers = false → exec (.stackTrainingEnd x r) s = .next (s.setStkState x.val 0)) ∧
    (s.stkState x.val = 1 → r.answers = true → ¬right → ∃ t, exec (.stackTrainingEnd x r) s = .next t ∧ t.stkState x.val = 7 ∧
      t.fld F.STK_TRN_STAT_RESULT x.val = 2) ∧
    (s.stkState x.val = 1 → r.answers = true → right → ∃ t, exec (.stackTrainingEnd x r) s = .next t ∧
      t.stkState x.val = openState r.failed.toNat ∧ t.failedCh x.val = r.failed.toNat ∧ t.fld F.STK_STAT_FAILCH x.val = popCount 32 r.failed.toNat ∧
      t.fld F.STK_TRN_STAT_RESULT x.val = (if 3 ≤ popCount 32 r.failed.toNat then 2 else if r.lanesRep = 0 then 0 else 1) ∧
      t.fld F.STK_TRN_STAT_PASSES x.val = 0 ∧ (t.stkOpen x.val = true → t.flag F.STK_ECC_STAT_INIT x.val = true) ∧
      (r.timings = none → t.regVal .STK_TIM0 x.val = RegName.STK_TIM0.resetVal 0) ∧ (t.stk x.val).banks = [])) ∧
  (∀ (w : Writer) (x : Stack) (r : TrainPass) (s : State),
    let per := s.fld F.STK_TRN_CTL_PER_MS x.val * 1000000
    let dt := s.fld F.STK_TRN_CTL_DT x.val
    let due : Prop := s.stkOpen x.val = true ∧ ((per ≠ 0 ∧ (s.stk x.val).passAt + per ≤ s.now) ∨ s.flag F.STK_TRN_CTL_START x.val = true)
    let drift : Prop := s.stkOpen x.val = true ∧ dt ≠ 0 ∧ dt ≤ tempDiff r.temp (s.stk x.val).passTemp
    (due → exec (.periodicRetrain x r) s = .next (s.startPass x.val r)) ∧ (¬due → exec (.periodicRetrain x r) s = .next s) ∧
    (drift → exec (.tempDriftRetrain x r) s = .next (s.startPass x.val r)) ∧ (¬drift → exec (.tempDriftRetrain x r) s = .next s) ∧
    (s.admits w .STK_TRN_CTL x.val →
      let s1 := (s.wakeFor w).setFld F.STK_TRN_CTL_START 1 x.val
      exec (.trainingStartCmd w x r) s = .next ((if s1.stkOpen x.val = true then s1.startPass x.val r else s1.wakeStk x.val).respond .ok)) ∧
    ((s.stk x.val).pass.isSome = true → s.startPass x.val r = s) ∧
    ((s.stk x.val).pass = none → ((s.startPass x.val r).stk x.val).pass = some (r, s.now) ∧ ((s.startPass x.val r).stk x.val).passAt = s.now ∧
      ∀ b, b < 1024 → ((s.startPass x.val r).bank x.val b).row = none ∧
        ((s.startPass x.val r).bank x.val b).debt = if -8 < (s.bank x.val b).debt then (s.bank x.val b).debt - 1 else (s.bank x.val b).debt) ∧
    (∀ t, (s.stk x.val).pass = some (r, t) → 32 ≤ (s.now - t) / 2000 → s.passTick x.val = (s.endPass x.val r).settle) ∧
    (let u := s.endPass x.val r
     u.flag F.STK_TRN_CTL_START x.val = false ∧ (u.stk x.val).pass = none ∧
     (s.stkOpen x.val = true →
       (∀ c, c < 32 → (u.chanSt x.val c).fails = if (s.failedCh x.val).testBit c = true then (s.chanSt x.val c).fails
         else if r.failed.toNat.testBit c = true then (s.chanSt x.val c).fails + 1 else 0) ∧
       ∀ c, c < 32 → ((u.failedCh x.val).testBit c = true ↔ (s.failedCh x.val).testBit c = true ∨ 3 ≤ (u.chanSt x.val c).fails)))) ∧
  (∀ (x : Stack) (s : State),
    let k := s.stk x.val
    let all : Prop := s.maySleep x.val = true ∧ ∀ y ∈ s.sleepUnit x.val, s.maySleep y = true
    (s.power.deep = 1 → exec (.selfRefreshEntry x) s = .next s.deepStep) ∧
    (s.power.deep ≠ 1 → all → exec (.selfRefreshEntry x) s = .next ((s.sleepUnit x.val).foldl State.startSleep s)) ∧
    (s.power.deep ≠ 1 → ¬all → exec (.selfRefreshEntry x) s = .next s) ∧
    (s.maySleep x.val = true ↔ s.stkOpen x.val = true ∧ s.flag F.STK_CTL_SLEEP_EN x.val = true ∧
      k.lastReq + s.fld1 F.STK_CTL_IDLE_MS x.val * 1000000 ≤ s.now ∧ k.quiet = true ∧ k.cdq = [] ∧ k.pass = none ∧
      ∀ m, m < 4 → s.fld F.STK_MIG_STAT_STATE x.val m = 0) ∧
    (s.stkOpen x.val = true → k.cdq = [] → k.pass = none → (s.startSleep x.val).stkState x.val = 4 ∧ ((s.startSleep x.val).stk x.val).entryAt = s.now) ∧
    (s.stkOpen x.val = false ∨ k.cdq ≠ [] ∨ k.pass ≠ none → s.startSleep x.val = s) ∧
    (let ends : Prop := s.stkState x.val = 4 ∧ k.entryAt + 2800 ≤ s.now
     (¬ends → exec (.selfRefreshEntryEnd x) s = .next s) ∧
     (ends → ∃ u : State, u.stkState x.val = 5 ∧ (u.stk x.val).entryTemp = s.fld F.STK_STAT_TEMP x.val ∧ u.pool = s.pool ∧
       (∀ b, (u.bank x.val b).row = none ∧ (u.bank x.val b).debt = 0 ∧ (u.bank x.val b).rh = [] ∧ (u.bank x.val b).nref = [] ∧
         ((s.bank x.val b).hist ≠ 0 → (u.bank x.val b).hist = (s.bank x.val b).hist)) ∧
       exec (.selfRefreshEntryEnd x) s = .next (if k.quiet = true ∧ k.wakeAfter = false then u.deepStep else u.wakeStk x.val))) ∧
    exec (.selfRefreshExit x) s = .next (s.wakeStk x.val) ∧
    (s.stkState x.val = 5 → (s.wakeStk x.val).stkState x.val = 6 ∧ ((s.wakeStk x.val).stk x.val).exitAt = s.now) ∧
    (s.stkState x.val ≠ 5 → s.wakeStk x.val = s) ∧
    ∀ temp,
      let dt := s.fld F.STK_TRN_CTL_SLP_DT x.val
      let moved : Prop := dt = 0 ∨ dt ≤ tempDiff temp k.entryTemp ∨ s.fld F.GLB_STAT_STEP = 6
      let over_ : Prop := s.stkState x.val = 6 ∧ ∃ n, (moved → n = 22000) ∧ (¬moved → n = 0) ∧
        k.exitAt + 5000 + (s.fld F.STK_TIM1_TXS x.val * 5 + 7) / 8 + n ≤ s.now
      (¬over_ → exec (.selfRefreshExitEnd x temp) s = .next s) ∧
      (over_ → ∃ u : State, exec (.selfRefreshExitEnd x temp) s = .next ((u.fillStk x.val).settle) ∧
        u.stkState x.val = openState (s.failedCh x.val) ∧ (u.stk x.val).lastReq = s.now ∧ u.fld F.STK_STAT_TEMP x.val = temp % 2 ^ F.STK_STAT_TEMP.width)) ∧
  (∀ (w : Writer) (x : Stack) (cls : Fin 4) (n : BitVec 21) (s : State), s.admits w .STK_PLC_SCAN x.val →
    let s1 := s.wakeFor w
    ((s1.stk x.val).scan ≠ none → exec (.placementScan w x cls n) s = .next (s1.respond .busy)) ∧
    ((s1.stk x.val).scan = none → cls.val = 3 → exec (.placementScan w x cls n) s = .next (s1.respond .ok)) ∧
    ((s1.stk x.val).scan = none → cls.val ≠ 3 → ∃ t, exec (.placementScan w x cls n) s = .next t ∧ t.flag F.STK_STAT_SCAN x.val = true ∧
      t.stk x.val = { s1.stk x.val with scan := some ⟨cls.val, if n = 0 then none else some n.toNat, 0⟩ } ∧ t.rsp = (.ok, 0) ∧ t.pool = s1.pool)) ∧
  (∀ (x : Stack) (s : State),
    let k := s.stk x.val
    let d := s.fld F.STK_PLC_CTL_DECAY_S * 1000000000
    let due : Prop := d ≠ 0 ∧ k.decayAt + d ≤ s.now ∧ s.stkServes x.val = true
    (¬due → exec (.placementDecay x) s = .next s) ∧
    (due → ∃ t, exec (.placementDecay x) s = .next t ∧ (t.stk x.val).decayAt = s.now ∧
      (let u := (s.placeOf x.val).foldl (fun (z : State) e => z.setPlace (frameKey x.val e.1) (setBits e.2 0 8 (placeCnt e.2 / 2))) s
       t.pool = u.pool ∧ (t.stk x.val).plc = (u.stk x.val).plc) ∧
      t.fld F.STK_PLC_HIST_PINNED x.val = t.classCount x.val 3 % 2 ^ F.STK_PLC_HIST_PINNED.width) ∧
    (∀ f v, (s.setPlace f v).placeWord f = v % 2 ^ 16) ∧
    (k.scan = none → exec (.scanEntryWrite x) s = .next s ∧ exec (.scanEnd x) s = .next s) ∧
    ∀ c, k.scan = some c →
      (s.scanNext x.val c = none → exec (.scanEntryWrite x) s = .next s ∧
        ∃ t, exec (.scanEnd x) s = .next t ∧ t.stk x.val = { k with scan := none } ∧ t.flag F.STK_STAT_SCAN x.val = false ∧ s.raised t 0x1C2 ∧
          t = { s with stks := t.stks, regs := t.regs, intc := t.intc }) ∧
      (∀ f, s.scanNext x.val c = some f →
        let n := ringSlots (s.fld F.STK_PLC_RING_LOG2N) 9 20
        let i := s.fld F.STK_PLC_PROD_PROD + s.tl.outPlc.length
        let room : Prop := n ≠ 0 ∧ (i + 2 ^ 32 - s.fld F.STK_PLC_CONS_CONS) % 2 ^ 32 < n ∧ s.msgRoom = true
        let word := f + x.val * 2 ^ 21 + placeCnt (s.placeWord (frameKey x.val f)) * 2 ^ 25 + placeHint (s.placeWord (frameKey x.val f)) * 2 ^ 33
        exec (.scanEnd x) s = .next s ∧ (¬room → exec (.scanEntryWrite x) s = .next s) ∧
        (room → exec (.scanEntryWrite x) s = .next (((s.setStk x.val { k with scan := some { c with left := c.left.map (· - 1), next := f + 1 } }).setTl
          { s.tl with outPlc := s.tl.outPlc ++ [(false, x.val)] }).hostWrite (s.fld F.STK_PLC_RING_BASE * 4096 + i % n * 8) (toBytes 8 word)
          (.ring .placement x.val))))) ∧
  (∀ (w : Writer) (x : Stack) (extCount : BitVec 17) (tag : BitVec 16) (s : State), s.admits w .STK_MIG_CMD x.val →
    let s1 := s.wakeFor w
    let c := s1.fld F.STK_MIG_ARG0_CTX x.val
    let g := s1.fld F.STK_MIG_ARG0_SEG x.val
    let page := s1.fld F.STK_MIG_ARG0_PAGE x.val
    let pg := s1.fld F.STK_MIG_ARG1_DST_PG x.val
    let dst := frameKey (s1.fld F.STK_MIG_ARG1_DST_STK x.val) pg
    let idx := s1.fld F.STK_MIG_ARG1_EXT_INDEX x.val
    let cnt := extCount.toNat
    let good (src : Nat) : Prop := s1.flag F.STK_PLC_CTL_MIG_EN = true ∧ keyStack src = x.val ∧ cnt ≠ 0 ∧ cnt ≤ 65536 ∧ idx + cnt ≤ 16777216 ∧
      s1.mapped idx cnt page = some dst ∧ pg < usableFrames ∧ keyStack dst / 8 = x.val / 8 ∧ s1.frameClass dst = s1.frameClass src ∧
      ∀ m ∈ s1.migSlots, m.2.2.2 ≠ 0 → m.2.2.1.ctx = c ∧ m.2.2.1.seg = g
    let busy (k : Nat) : Prop := s1.fld F.STK_MIG_STAT_STATE x.val k ≠ 0
    (s1.pageFrame c g page = none → exec (.migrationCmd w x extCount tag) s = .next (s1.respond .accessDenied)) ∧
    ∀ src, s1.pageFrame c g page = some src →
      (¬good src → exec (.migrationCmd w x extCount tag) s = .next (s1.respond .accessDenied)) ∧
      (good src → (∀ k, k < 4 → busy k) → exec (.migrationCmd w x extCount tag) s = .next (s1.respond .busy)) ∧
      (∀ k, good src → k < 4 → ¬busy k → (∀ j, j < k → busy j) →
        ∃ t, exec (.migrationCmd w x extCount tag) s = .next t ∧ t.fld F.STK_MIG_STAT_STATE x.val k = 1 ∧ t.fld F.STK_MIG_STAT_TAG x.val k = tag.toNat ∧
          (∃ b, (t.stk x.val).mig = setAt (s1.stk x.val).mig k ⟨c, g, page, src, dst, idx, cnt, s1.flag F.STK_MIG_ARG1_LAST x.val, b, s1.now⟩ ∧
            let mine := (s1.migSlots.filter (fun o => decide (o.2.2.2 ≠ 0))).map (fun o => o.2.2.1)
            let grows := mine.find? (fun o => !mine.any (fun p => p.batch == o.batch && p.last))
            (∀ o, grows = some o → b = o.batch) ∧ (grows = none → ∀ o ∈ mine, o.batch < b)) ∧ t.rsp = (.ok, 0))) ∧
  (∀ (x : Stack) (k : Fin 4) (lost : ReadErr) (s : State),
    let m := (s.stk x.val).mig.getD k.val {}
    let a := s.useStk (keyStack m.src)
    let b := a.2.useStk (keyStack m.dst)
    let z := (({ b.2 with pool := { b.2.pool with copyAt := s.copyDue m } } : State).upset lost).copyPage m.src m.dst 4
    (s.fld F.STK_MIG_STAT_STATE x.val k.val ≠ 1 ∨ s.now < s.copyDue m → exec (.migrationCopyEnd x k lost) s = .next s) ∧
    (s.fld F.STK_MIG_STAT_STATE x.val k.val = 1 → s.copyDue m ≤ s.now → a.1 = false ∨ b.1 = false → exec (.migrationCopyEnd x k lost) s = .next b.2) ∧
    (s.fld F.STK_MIG_STAT_STATE x.val k.val = 1 → s.copyDue m ≤ s.now → a.1 = true → b.1 = true → ∃ u : State, exec (.migrationCopyEnd x k lost) s = .next u.settle ∧
      u.fld F.STK_MIG_STAT_STATE x.val k.val = 2 ∧ u = { z with regs := u.regs } ∧
      u.fld F.STK_MIG_STAT_POISONED x.val k.val = ((z.pageLines m.dst).filter (fun l => l.2.2 % 2 == 1)).length % 2 ^ F.STK_MIG_STAT_POISONED.width)) ∧
  ∀ (c : Ctx) (g : Fin 8) (s : State),
    let mine := s.migSlots.filter (fun m => decide (m.2.2.2 ≠ 0) && m.2.2.1.ctx == c.val && m.2.2.1.seg == g.val)
    let first := mine.find? (fun m => m.2.2.1.last && decide (m.2.2.2 ≠ 3))
    (first = none → exec (.migrationRemapIssue c g) s = .next s) ∧
    ∀ l, first = some l →
      let batch := mine.filter (fun m => m.2.2.1.batch == l.2.2.1.batch)
      let ready : Prop := (∀ m ∈ batch, m.2.2.2 = 2) ∧ s.xlt.rvkQ.length < 64
      (¬ready → exec (.migrationRemapIssue c g) s = .next s) ∧
      (ready → ∃ (u : State) (r : Revoke), exec (.migrationRemapIssue c g) s = .next u.settle ∧ u.xlt.rvkQ = s.xlt.rvkQ ++ [r] ∧ r.typ = 1 ∧
        r.ctx = c.val ∧ r.seg = g.val ∧ r.slots = batch.map (fun m => (m.1, m.2.1)) ∧
        (∀ m ∈ batch, r.first ≤ m.2.2.1.page ∧ m.2.2.1.page < r.first + r.count) ∧ u.flag F.XLT_CTX_GEN_RVK 0 c.val = true)

/-- Code rebuild, fold flush, relocation, stack rebuild, scrubbing, bucket leaks and the start-up events of a controller act as stated (R154, R157, R160, R161, R165, R167, R168, R171). -/
def Obligations.ProtectionRebuildsScrubsAndFills : Prop :=
  (∀ (x : Stack) (lost : ReadErr) (s : State),
    let k := s.stk x.val
    (k.cdq = [] ∨ s.stkOpen x.val = false → exec (.codeRebuild x lost) s = .next s) ∧
    (∀ f at_ rest, k.cdq = (f, at_) :: rest → s.stkOpen x.val = true → exec (.codeRebuild x lost) s = .next ((s.upset lost).rebuildCode f)) ∧
    (let old := k.folds.find? (fun f => decide (f.since + s.fld F.STK_ECC_CTL_FOLD_MS x.val * 1000000 ≤ s.now))
     let a := s.useStk x.val
     (old = none → exec (.foldAgeFlush x lost) s = .next s) ∧
     (∀ f, old = some f → exec (.foldAgeFlush x lost) s = .next (if a.1 = true then (a.2.upset lost).flushFold f.frame else a.2)))) ∧
  (∀ (s : State) (frame : Nat),
    (s.reach frame ≠ .direct → s.rebuildCode frame = s) ∧
    (s.reach frame = .direct → (s.rebuildCode frame).codeDirty frame = false ∧ ∀ c ∈ ((s.rebuildCode frame).stk (keyStack frame)).cdq, c.1 ≠ frame) ∧
    (s.foldOf frame = none → s.flushFold frame = s) ∧
    (∀ f, s.foldOf frame = some f → (s.flushFold frame).foldOf frame = none ∧ (s.reach frame = .direct → (s.flushFold frame).codeDirty frame = false))) ∧
  (∀ (x : Stack) (s : State),
    (s.flag F.STK_ECC_STAT_RELOC x.val = false → exec (.channelRelocationEnd x) s = .next s) ∧
    (s.flag F.STK_ECC_STAT_RELOC x.val = true →
      let h := (hostsOf (s.failedCh x.val)).headD (0, 0)
      let pages := (s.usedFrames x.val).filterMap (fun f => if s.codeDirty f = true then none else (s.otherLines f 1024).map (fun ls => (f, ls)))
      ∃ u : State, exec (.channelRelocationEnd x) s =
          .next ((pages.foldl (fun (z : State) p => z.putCode p.1 p.2) u).event (srcStack x.val) 0x13 [h.1 + h.2 * 2 ^ 5]) ∧
        u.flag F.STK_ECC_STAT_RELOC x.val = false ∧ u.fld F.STK_ECC_STAT_HCH0 x.val = (32 + h.2) % 2 ^ F.STK_ECC_STAT_HCH0.width ∧
        u = { s with regs := u.regs } ∧ s.regsBut u [RegName.STK_ECC_STAT.addr x.val 0 0])) ∧
  (∀ (w : Writer) (x : Stack) (s : State),
    (s.admits w .STK_REBUILD 0 →
      let s1 := s.wakeFor w
      let r := s1.rebuildable x.val
      (r = (false, false) → exec (.rebuildStart w x) s = .next (s1.respond .accessDenied)) ∧
      (r ≠ (false, false) → s1.flag F.STK_REB_STAT_BUSY = true → exec (.rebuildStart w x) s = .next (s1.respond .busy)) ∧
      (r ≠ (false, false) → s1.flag F.STK_REB_STAT_BUSY = false → exec (.rebuildStart w x) s = .next ((s1.startRebuild x.val).respond .ok))) ∧
    (let auto : Prop := s.flag F.STK_PRT_CTL_AUTO_REB = true ∧ s.flag F.STK_REB_STAT_BUSY = false ∧ s.rebuildable x.val ≠ (false, false)
     (auto → exec (.autoRebuild x) s = .next (s.startRebuild x.val)) ∧ (¬auto → exec (.autoRebuild x) s = .next s)) ∧
    (s.flag F.STK_REB_STAT_BUSY = false → s.fld F.STK_REB_STAT_STK ≠ x.val → s.rebuildable x.val ≠ (false, false) →
      let t := s.startRebuild x.val
      t.flag F.STK_REB_STAT_BUSY = true ∧ t.fld F.STK_REB_STAT_STK = x.val ∧ t.fld F.STK_REB_STAT_PTR = 0 ∧
        (t.stk x.val).untrusted = (layoutBounds (s.regVal .STK_LAYOUT_CUR) x.val).1)) ∧
  (∀ (x : Stack) (lost : ReadErr) (s : State),
    let running : Prop := s.flag F.STK_REB_STAT_BUSY = true ∧ s.fld F.STK_REB_STAT_STK = x.val ∧ (s.stk x.val).missing = false
    let first : Prop := s.unitState 1 x.val = 2
    let second : Prop := s.unitState 2 x.val = 2
    let p2 := (layoutBounds (s.regVal .STK_LAYOUT_CUR) x.val).2
    let at_ (hi : Nat) : Nat := max (s.fld F.STK_REB_STAT_PTR) hi % 2 ^ F.STK_REB_STAT_PTR.width
    (¬running → exec (.rebuildUnitEnd x lost) s = .next s) ∧
    (running → ¬first → ¬second → exec (.rebuildUnitEnd x lost) s = .next (s.upset lost)) ∧
    (running → first → ∃ t, exec (.rebuildUnitEnd x lost) s = .next t ∧ (t.stk x.val).awaitP1 = false ∧ (t.stk x.val).rebLost = 0 ∧
      t.fld F.STK_REB_STAT_PTR = at_ p2 ∧ t.unitState 1 x.val = 0 ∧ t.pool = ((s.upset lost).rebuildTo x.val p2).pool) ∧
    (running → ¬first → second → ∃ t, exec (.rebuildUnitEnd x lost) s = .next t ∧ (t.stk x.val).awaitP2 = false ∧ (t.stk x.val).rebLost = 0 ∧
      t.fld F.STK_REB_STAT_PTR = at_ usableFrames ∧ t.unitState 2 x.val = 0 ∧ t.flag F.STK_REB_STAT_BUSY = false ∧
      t.pool = ((s.upset lost).rebuildTo x.val usableFrames).pool)) ∧
  (∀ (x : Stack) (e : ReadErr) (s : State),
    let p := s.fld F.STK_SCRUB_STAT_PTR x.val
    let f := frameKey x.val p
    let z := s.upset e
    let runs : Prop := s.stkOpen x.val = true ∧ (s.fld F.STK_SCRUB_CTL_PASS_H x.val ≠ 0 ∨ s.flag F.STK_SCRUB_CTL_START x.val = true)
    (¬runs → exec (.scrubPage x e) s = .next s) ∧
    (runs → ∃ t, exec (.scrubPage x e) s = .next t ∧
      t.pool = (if usableFrames ≤ p then z.scrubOther f else if z.reach f = .direct then z.scrubFrame f else z).pool ∧
      (p + 1 < framesPerStack → t.fld F.STK_SCRUB_STAT_PTR x.val = p + 1 ∧ t.fld F.STK_SCRUB_STAT_PASSES x.val = s.fld F.STK_SCRUB_STAT_PASSES x.val) ∧
      (framesPerStack ≤ p + 1 → t.fld F.STK_SCRUB_STAT_PTR x.val = 0 ∧ t.flag F.STK_SCRUB_CTL_START x.val = false ∧
        t.fld F.STK_SCRUB_STAT_PASSES x.val = (s.fld F.STK_SCRUB_STAT_PASSES x.val + 1) % 2 ^ F.STK_SCRUB_STAT_PASSES.width))) ∧
  (∀ (w : Writer) (x : Stack) (s : State),
    let k := s.stk x.val
    let due : Prop := s.stkState x.val = 5 ∧ s.fld F.STK_SCRUB_CTL_PASS_H x.val ≠ 0 ∧
      k.batchAt + s.fld1 F.STK_SCRUB_CTL_BATCH_MIN x.val * 60000000000 ≤ s.now
    (due → exec (.scrubBatch x) s = .next ((s.setStk x.val { k with batchAt := s.now }).wakeStk x.val)) ∧
    (¬due → exec (.scrubBatch x) s = .next s) ∧
    (s.admits w .STK_SCRUB_CTL x.val →
      let s1 := s.wakeFor w
      ∃ u : State, exec (.scrubStart w x) s = .next ((u.wakeStk x.val).respond .ok) ∧ u.flag F.STK_SCRUB_CTL_START x.val = true ∧
        u.fld F.STK_SCRUB_STAT_PTR x.val = 0 ∧ u = { s1 with regs := u.regs } ∧
        s1.regsBut u [RegName.STK_SCRUB_CTL.addr x.val 0 0, RegName.STK_SCRUB_STAT.addr x.val 0 0]) ∧
    (let t := s.fld F.STK_BKT_CFG_LEAK_S x.val * 1000000000
     (t = 0 ∨ s.now < k.leakAt + t → exec (.bucketLeak x) s = .next s) ∧
     (t ≠ 0 → k.leakAt + t ≤ s.now → ∃ u, exec (.bucketLeak x) s = .next u ∧ u.stk x.val = { k with leakAt := s.now } ∧
       (∀ f ∈ [F.STK_BKT_LVL_LINE, F.STK_BKT_LVL_PAGE, F.STK_BKT_LVL_GRP], u.fld f x.val = s.fld f x.val - 1) ∧
       u = { s with stks := u.stks, regs := u.regs } ∧ s.regsBut u [RegName.STK_BKT_LVL.addr x.val 0 0]))) ∧
  ∀ (x : Stack) (first : Fin 9) (s : State),
    let tests : Prop := s.flag F.STK_SELFTEST_DONE x.val = false ∧ s.fld F.GLB_STAT_STEP = 5 ∧ s.quarterDown (stackQuarter x.val) = false
    (¬tests → exec (.checkerSelfTestEnd x first) s = .next s) ∧
    (tests → ∃ t, exec (.checkerSelfTestEnd x first) s = .next t ∧ t.flag F.STK_SELFTEST_DONE x.val = true ∧
      t.fld F.STK_SELFTEST_FIRST x.val = first.val ∧
      (first.val = 0 → t.flag F.STK_SELFTEST_PASS x.val = true ∧ t = { s with regs := t.regs } ∧ s.regsBut t [RegName.STK_SELFTEST.addr x.val 0 0]) ∧
      (first.val ≠ 0 → t.stkState x.val = 7 ∧ t.flag F.STK_SELFTEST_PASS x.val = s.flag F.STK_SELFTEST_PASS x.val)) ∧
    (let fills : Prop := s.flag F.STK_ECC_STAT_INIT x.val = true ∧ s.stkOpen x.val = true
     (¬fills → exec (.zeroFillEnd x) s = .next s) ∧
     (fills → ∃ t, exec (.zeroFillEnd x) s = .next t ∧ t.flag F.STK_ECC_STAT_INIT x.val = false ∧
       (∀ a, smGet 0 t.pool.mem a = if keyStack (a / 65536) = x.val then 0 else smGet 0 s.pool.mem a) ∧
       (∀ a, smGet 0 t.pool.side a = if keyStack (a / 1024) = x.val then 0 else smGet 0 s.pool.side a) ∧
       (∀ f, t.pageState f = if keyStack f = x.val then 0 else s.pageState f) ∧
       (t.stk x.val).untrusted = 0 ∧ (t.stk x.val).cdq = [] ∧ (t.stk x.val).folds = []))

/-- Station faults and fence commands stop a site, the drained site is fenced, tests and retirement act on fenced sites, and switches pass flits (R181, R182, R194, R195, R197, R243). -/
def Obligations.SitesAreFencedTestedRetiredAndPassFlits : Prop :=
  (∀ (r : LsRead) (s : State),
    let k := siteKey r.site
    let coded := smGet false (s.stn k).written (r.word.toNat / 128)
    (coded = false → exec (.localStoreDoubleError r) s = .next s) ∧
    (coded = true → r.two = true → exec (.localStoreDoubleError r) s = .next (s.stationFault k 1)) ∧
    (coded = true → r.two = false → exec (.localStoreDoubleError r) s = .next (s.count F.STN_CNT_LS_CE 1 (siteQ k)))) ∧
  (∀ (x : SiteId) (s : State),
    let k := siteKey x
    let fences : Prop := s.flag F.STN_QCTL_AUTO_FENCE (siteQ k) = true ∨ (s.stn k).fence ≠ none
    exec (.siteDomainFault x) s = .next (s.stationFault k 3) ∧
    ∀ cause, cause < 8 →
      let named := if (s.stn k).causeAt = some s.now ∧ s.siteCause k ≠ 0 then min (s.siteCause k) cause else cause
      (6 ≤ s.siteState k → s.stationFault k cause = s) ∧
      (s.siteState k ≤ 5 → fences → s.stationFault k cause = s.startFence k cause) ∧
      (s.siteState k = 0 → ¬fences → (s.stationFault k cause).siteState k = 0 ∧ (s.stationFault k cause).siteCause k = named) ∧
      (1 ≤ s.siteState k → s.siteState k ≤ 5 → ¬fences → (s.stn k).loom = none →
        (s.stationFault k cause).siteState k = 5 ∧ (s.stationFault k cause).siteCause k = named ∧ ((s.stationFault k cause).stn k).run = false) ∧
      (6 ≤ s.siteState k → (s.stn k).fence = none → s.startFence k cause = s) ∧
      (∀ old, (s.stn k).fence = some old → s.startFence k cause = s.updStn k (fun t => { t with
        fence := some (if t.causeAt = some s.now ∧ old ≠ 0 then min old cause else cause) })) ∧
      (s.siteState k ≤ 5 → (s.stn k).fence = none → ∃ u : State, s.startFence k cause = u.settleLooms ∧ (u.stn k).fence = some named ∧
        (u.stn k).run = false ∧ (u.stn k).ops = [] ∧ (u.stn k).recvs = [] ∧ (u.stn k).sends = [])) ∧
  (∀ (w : Writer) (q : Quarter) (site : BitVec 9) (s : State), s.admits w .STN_FENCE_CMD q.val →
    let s1 := s.wakeFor w
    let k := q.val * 324 + site.toNat
    let answers (c : Instr) (u : State) (st : Status) : Prop :=
      ∃ t, exec c s = .next t ∧ t.fld F.STN_FENCE_STAT_SITE q.val = site.toNat ∧ t.fld F.STN_FENCE_STAT_RESULT q.val = st.code ∧
        t = { u with regs := t.regs, rsp := (.ok, 0) } ∧ u.regsBut t [RegName.STN_FENCE_STAT.addr q.val 0 0]
    (323 < site.toNat → exec (.fenceCmd w q site) s = .next (s1.respond .accessDenied) ∧ exec (.selftestCmd w q site) s = .next (s1.respond .accessDenied) ∧
      exec (.retireCmd w q site) s = .next (s1.respond .accessDenied)) ∧
    (site.toNat ≤ 323 → (s1.stn k).selftest = true → answers (.fenceCmd w q site) s1 .busy ∧ answers (.selftestCmd w q site) s1 .busy ∧
      answers (.retireCmd w q site) s1 .busy) ∧
    (site.toNat ≤ 323 → (s1.stn k).selftest = false →
      (s1.siteState k = 7 → answers (.fenceCmd w q site) s1 .accessDenied) ∧
      (s1.siteState k ≠ 7 → answers (.fenceCmd w q site) (s1.startFence k 4) .ok) ∧
      (s1.siteState k ≠ 6 → answers (.selftestCmd w q site) s1 .accessDenied ∧ answers (.retireCmd w q site) s1 .accessDenied) ∧
      (s1.siteState k = 6 →
        (∃ u : State, answers (.selftestCmd w q site) u .ok ∧ (u.stn k).selftest = true ∧ u.flag F.STN_FENCE_STAT_ST_DONE q.val = false ∧
          u = { s1 with stns := u.stns, regs := u.regs }) ∧
        ∃ u : State, answers (.retireCmd w q site) u .ok ∧ u.siteState k = 7 ∧ smGet false u.sec.retired k = true ∧
          u.fld F.SEC_LEDGER_LSEQ = (s1.fld F.SEC_LEDGER_LSEQ + 1) % 2 ^ F.SEC_LEDGER_LSEQ.width))) ∧
  (∀ (x : SiteId) (s : State),
    let k := siteKey x
    let t := s.stn k
    (t.fence = none ∨ (∃ r ∈ s.ord.reqs, r.chan.eng = siteEng k) → exec (.fenceDrainEnd x) s = .next s) ∧
    ∀ c, t.fence = some c → c < 8 → (∀ r ∈ s.ord.reqs, r.chan.eng ≠ siteEng k) →
      ∃ u : State, exec (.fenceDrainEnd x) s = .next (match t.loom with | some n => (u.checkPaused n).settleLooms | none => u) ∧
        u.siteState k = 6 ∧ u.siteCause k = c ∧ (u.stn k).fence = none ∧ (c = 2 ∨ c = 3 → (u.stn k).sw = []) ∧
        u.fld F.STN_CNT_FENCES (siteQ k) = min (s.fld F.STN_CNT_FENCES (siteQ k) + 1) (2 ^ F.STN_CNT_FENCES.width - 1) ∧ u.pool = s.pool ∧ u.ord = s.ord) ∧
  (∀ (x : SiteId) (first : Fin 7) (s : State),
    let k := siteKey x
    let q := siteQ k
    let runs : Prop := (s.stn k).selftest = true ∧ s.siteState k = 6 ∧ s.firmware = true
    (¬runs → exec (.selftestEnd x first) s = .next s) ∧
    (runs → ∃ t, exec (.selftestEnd x first) s = .next t ∧ t.flag F.STN_FENCE_STAT_ST_DONE q = true ∧ t.fld F.STN_FENCE_STAT_ST_FIRST q = first.val ∧
      (t.flag F.STN_FENCE_STAT_ST_PASS q = true ↔ first.val = 0) ∧ t.siteState k = (if first.val = 0 then 0 else 7) ∧
      t.siteCause k = (if first.val = 0 then 0 else 5) ∧ t.fld F.STN_SITE_LV q (siteI k) = 0 ∧ t.stn k = (s.stn k).cleared 0 ∧
      (first.val ≠ 0 → smGet false t.sec.retired k = true) ∧ t.regVal .STN_TRAP0 q (siteI k) = 0 ∧ t.regVal .STN_TRAP3 q (siteI k) = 0 ∧
      (s.quarterDown q = false → t.intc.pend.getLsbD (0x047 + 0x40 * q) = true))) ∧
  (∀ (x : SiteId) (port : Fin 5) (bad : Bool) (s : State),
    let k := siteKey x
    let room : Prop := (smGet [] (s.stn k).sw port.val).length < 16
    (port.val = 4 → room → s.switchOff k = false → exec (.weftFlitReceive x port bad) s = .next ((s.inject k).deliverWeft k)) ∧
    (port.val = 4 → ¬room ∨ s.switchOff k = true → exec (.weftFlitReceive x port bad) s = .next s) ∧
    (port.val ≠ 4 → neighbour k port.val = none → exec (.weftFlitReceive x port bad) s = .next s) ∧
    ∀ j, port.val ≠ 4 → neighbour k port.val = some j →
      (s.switchOff j = true ∨ (s.stn j).outQueue ((port.val + 2) % 4) = none → exec (.weftFlitReceive x port bad) s = .next s) ∧
      ∀ p f rest, s.switchOff j = false → (s.stn j).outQueue ((port.val + 2) % 4) = some (p, f, rest) →
        (s.switchOff k = true → exec (.weftFlitReceive x port bad) s = .next (((s.dropFlits k 1).updStn j (fun t => t.setSw p rest)).deliverWeft j)) ∧
        (s.switchOff k = false → ¬room → exec (.weftFlitReceive x port bad) s = .next s) ∧
        (s.switchOff k = false → room → bad = true → f.fails < 3 → exec (.weftFlitReceive x port bad) s =
          .next ((s.updStn j (fun t => t.setSw p ({ f with fails := f.fails + 1 } :: rest))).count F.STN_CNT_WEFT_RETRY 1 (siteQ k))) ∧
        (s.switchOff k = false → room → bad = true → 3 ≤ f.fails → exec (.weftFlitReceive x port bad) s =
          .next ((s.updStn j (fun t => t.setSw p ({ f with fails := 0 } :: rest))).stationFault k 2)) ∧
        (s.switchOff k = false → room → bad = false → ∃ (u : State) (g : WFlit), exec (.weftFlitReceive x port bad) s =
            .next ((u.deliverWeft k).deliverWeft j) ∧
          smGet [] (u.stn k).sw port.val = smGet [] (s.stn k).sw port.val ++ [g] ∧ smGet [] (u.stn j).sw p = rest ∧
          g.data = f.data ∧ g.src = f.src ∧ g.route = f.route ∧ g.scalar = f.scalar ∧ g.path = f.path.drop 1 ∧ g.since = s.now ∧ g.fails = 0 ∧
          u = { s with stns := u.stns } ∧ ∀ i, i ≠ k → i ≠ j → u.stn i = s.stn i)) ∧
  ∀ (x : SiteId) (port : Fin 5) (s : State),
    let k := siteKey x
    let ms := s.fld F.STN_MEND_CTL_WSTALL_MS
    (smGet [] (s.stn k).sw port.val = [] → exec (.weftStall x port) s = .next s) ∧
    ∀ f rest, smGet [] (s.stn k).sw port.val = f :: rest →
      let due : Prop := ms ≠ 0 ∧ f.stalled = false ∧ f.since + ms * 1000000 ≤ s.now
      (¬due → exec (.weftStall x port) s = .next s) ∧
      (due → exec (.weftStall x port) s = .next (((s.updStn k (fun t => t.setSw port.val ({ f with stalled := true } :: rest))).event (siteSrc k) 6
        [port.val + s.siteCtx k * 16]).raise (0x048 + 0x40 * siteQ k)))

/-- Looms load, reset, pause and resume; calls are admitted in channel order and start; chained calls go out; mends replace a fenced site (R237, R238, R245, R246, R248, R257, R258). -/
def Obligations.LoomsLoadCallPauseAndMend : Prop :=
  (∀ (w : Writer) (n : Loom) (s : State), s.admits w .STN_LOOM_CMD 0 →
    let s1 := s.wakeFor w
    let st := s1.loomState n.val
    let x : Load := { serial := s1.lm.serial, loom := n.val }
    (st ≠ 0 → exec (.loomLoad w n) s = .next ((s1.loomErr n.val .accessDenied).respond .ok)) ∧
    (st = 0 → s1.loadAllowed n.val = false → exec (.loomLoad w n) s = .next (((s1.setLoomState n.val 6).loomErr n.val .accessDenied).respond .ok)) ∧
    (st = 0 → s1.loadAllowed n.val = true →
      ∃ u : State, exec (.loomLoad w n) s = .next (((u.loadReads x [(0, .read, s1.regVal .STN_LOOM_IMG 0 n.val, 64)]).settle).respond .ok) ∧
        u.lm = { s1.lm with serial := x.serial + 1, loads := s1.lm.loads ++ [x] } ∧ u.loomState n.val = 1 ∧ u.fld F.STN_LOOM_STAT_ERR 0 n.val = 0 ∧
        u = { s1 with lm := u.lm, regs := u.regs }) ∧
    (st = 0 → exec (.loomReset w n) s = .next ((s1.loomErr n.val .accessDenied).respond .ok)) ∧
    (st ≠ 0 → exec (.loomReset w n) s = .next ((((s1.loomErr n.val .ok).resetLoom n.val).settleLooms).respond .ok)) ∧
    (st = 2 ∨ st = 5 → exec (.loomPause w n) s =
      .next ((((s1.loomErr n.val .ok).updLoom n.val (fun l => { l with byCmd := true })).pauseLoom n.val).respond .ok)) ∧
    (st ≠ 2 → st ≠ 5 → exec (.loomPause w n) s = .next ((s1.loomErr n.val .accessDenied).respond .ok)) ∧
    (let paused : Prop := (st = 3 ∨ st = 4) ∧ (s1.loom n.val).byCmd = true
     let s2 := (s1.loomErr n.val .ok).updLoom n.val (fun l => { l with byCmd := false })
     (¬paused → exec (.loomResume w n) s = .next ((s1.loomErr n.val .accessDenied).respond .ok)) ∧
     (paused → s1.mending n.val = true → exec (.loomResume w n) s = .next (s2.respond .ok)) ∧
     (paused → s1.mending n.val = false → exec (.loomResume w n) s = .next ((s2.resumeLoom n.val).respond .ok)))) ∧
  (∀ (n : Loom) (s : State),
    let loads : Prop := s.loomState n.val = 1 ∧ (s.loom n.val).resetting = false ∧ ∀ x ∈ s.lm.loads, x.loom ≠ n.val
    (¬loads → exec (.loomLoadEnd n) s = .next s) ∧
    (loads → ∃ u : State, exec (.loomLoadEnd n) s = .next u.settle ∧ u.loomState n.val = 2 ∧
      ∀ k ∈ (s.loom n.val).sites, k < 1296 → u.siteState k = 3 ∧ (u.stn k).key = BitVec.ofNat 64 (s.regVal .STN_LOOM_KEY 0 n.val) ∧ (u.stn k).loadAt = s.now)) ∧
  (∀ (s : State) (x : Load),
    let failed := x.got.find? (fun g => g.2.1 != .ok)
    let im := imageOf x.tabs
    let sites := (im.drafts.flatMap (fun d => d.sites)).filter (fun k => s.siteState k == 1)
    (x.got.length < x.out → s.loadStep x = s) ∧
    (∀ g, x.out ≤ x.got.length → failed = some g → s.loadStep x = s.loadFails x (if g.2.1 = .accessDenied then .accessDenied else .poison)) ∧
    (x.loom < 64 → ∀ st, (s.loadFails x st).loomState x.loom = 6 ∧ (s.loadFails x st).fld F.STN_LOOM_STAT_ERR 0 x.loom = st.code % 2 ^ F.STN_LOOM_STAT_ERR.width) ∧
    ((∀ k ∈ sites, k < 1296) → ∃ t, s.loadSites x = t ∧
      t.loom x.loom = { drafts := im.drafts, entries := im.entries, stns := im.stns, sites := sites } ∧ t.pool = s.pool ∧
      (∀ m, m ≠ x.loom → t.loom m = s.loom m) ∧ (∀ k ∈ sites, t.siteState k = 2 ∧ (t.stn k).loom = some x.loom ∧ (t.stn k).run = false) ∧
      ∀ k, k ∉ sites → t.stn k = s.stn k)) ∧
  (∀ (p : Arr) (k : Packet) (s : State),
    (k.typN ≠ 0x08 → exec (.call p k) s = .next s) ∧
    ((p.val, k) ∈ s.hub.delivered → k.typN = 0x08 →
      let s1 : State := { s with hub := { s.hub with delivered := s.hub.delivered.erase (p.val, k) } }
      (p.val = 15 → exec (.call p k) s = .next (s1.localCall k)) ∧
      (p.val ≠ 15 → s1.ctxOf p.val k.srcN = none →
        exec (.call p k) s = .next (((s1.countDeny (arrQuarter p.val)).refuseCall k.payload).refuse p.val k .accessDenied)) ∧
      (∀ c, p.val ≠ 15 → s1.ctxOf p.val k.srcN = some c →
        let v := (s1.police c k.cost).1
        let s2 := (s1.police c k.cost).2
        let r := portReq c p.val k .call [] (v == .mark)
        let st := s2.callCheck (some c) k.payload
        let full : Prop := s2.refusing r.chan = true ∨ 256 ≤ s2.chanCount r.chan ∨ 4096 ≤ s2.portCount (.port p.val)
        let twice : Prop := ∃ y ∈ s2.ord.reqs, y.chan = r.chan ∧ y.tag = r.tag
        (v = .drop → exec (.call p k) s = .next (((s2.refuseCall k.payload).admitReq r true).settle)) ∧
        (v ≠ .drop → st = .accessDenied → exec (.call p k) s = .next (((s2.refuseCall k.payload).addReq { r with fixed := some .accessDenied }).settle)) ∧
        (v ≠ .drop → st ≠ .accessDenied → full ∨ st = .busy → exec (.call p k) s = .next (((s2.refuseCall k.payload).admitReq r false (st == .busy)).settle)) ∧
        (v ≠ .drop → st ≠ .accessDenied → ¬full → st ≠ .busy → twice → exec (.call p k) s = .next (((s2.refuseCall k.payload).admitReq r false).settle)) ∧
        (v ≠ .drop → st ≠ .accessDenied → ¬full → st ≠ .busy → ¬twice → st = .ok ∧
          exec (.call p k) s = .next (((s2.admitCall (s2.callFrom k.payload)).addReq { r with fixed := some .ok }).settle))))) ∧
  (∀ (s : State) (x : Call) (d : Draft), (s.loom x.loom).drafts[x.draft]? = some d →
    ((s.admitCall x).loom x.loom).drafts[x.draft]? = some { d with queue := d.queue ++ [x] }) ∧
  (∀ (n : Loom) (d : Fin 16) (s : State),
    let l := s.loom n.val
    (l.drafts[d.val]? = none → exec (.callStart n d) s = .next s) ∧
    ∀ x, l.drafts[d.val]? = some x →
      let may : Prop := (s.loomState n.val = 2 ∨ s.loomState n.val = 5) ∧ x.run = none ∧ x.lost = false ∧ l.resetting = false
      (x.queue = [] ∨ ¬may → exec (.callStart n d) s = .next s) ∧
      ∀ c rest, x.queue = c :: rest → may →
        let es := l.stns.filter (fun e => e.draft == d.val && decide (e.pcs.getD c.pcsel 0 ≠ 65535) && s.siteState e.site == 3)
        let c1 : Call := { c with start := s.now, wait := es.map (·.site) }
        ∃ u : State, exec (.callStart n d) s = .next (if es = [] then u.endOk n.val d.val c1 else u) ∧ (s.joint c1 = false → u.endOk n.val d.val c1 = u.endCall n.val d.val .ok) ∧
          (u.loom n.val).drafts[d.val]? = some { x with run := some c1, queue := rest } ∧
          (∀ e ∈ es, (u.stn e.site).run = true ∧ (u.stn e.site).entry = c.entry ∧ (u.stn e.site).arg = BitVec.ofNat 64 c.arg) ∧
          (∀ k, (∀ e ∈ es, e.site ≠ k) → u.stn k = s.stn k) ∧ u.pool = s.pool ∧ u.ord = s.ord) ∧
  (∀ (n : Loom) (s : State),
    let next := s.lm.chains.find? (fun x => x.call.loom == n.val && x.sent.isNone && s.ord.done.any (fun d => d.dest == .chain x.serial))
    (next = none → exec (.chainedCallSend n) s = .next s) ∧
    ∀ x d, next = some x → s.ord.done.find? (fun d => d.dest == .chain x.serial) = some d →
      let s1 := s.setOrd { s.ord with done := s.ord.done.erase d }
      (d.out.status ≠ .ok → exec (.chainedCallSend n) s =
        .next (s1.chainFails x (if d.out.status = .partialFail then d.out.worst else d.out.status))) ∧
      (d.out.status = .ok → ∃ (k : Packet) (y : Chain), y.sent = some k ∧ y.call = x.call ∧ k.typN = 0x08 ∧ k.dst = BitVec.ofNat 20 x.call.repEp ∧
        k.payload = sliceBytes d.data 0 8 ++ toBytes 8 x.a ++ sliceBytes d.data 16 48 ∧
        let s2 := s1.setLm { s1.lm with chains := s1.lm.chains.map (fun z => if z = x then y else z) }
        let go := s2.originate (some (s.loomCtx n.val)) k
        ((∀ v, go.1 ≠ .port v) → go.1 ≠ .here → exec (.chainedCallSend n) s = .next (go.2.chainFails y .noRoute)) ∧
        ((∃ v, go.1 = .port v) ∨ go.1 = .here → exec (.chainedCallSend n) s = .next go.2))) ∧
  (∀ (n : Loom) (s : State), exec (.pauseWaitExpiry n) s = .next { s with lm := { s.lm with mends := s.lm.mends.map (fun m =>
    if m.loom ∈ s.loomMates n.val ∧ m.dst.isSome = true ∧ m.start + s.fld1 F.STN_MEND_CTL_PAUSE_US * 1000 ≤ s.now then { m with waited := true } else m) } }) ∧
  ∀ (x : SiteId) (s : State),
    let k := siteKey x
    let asked := s.nextMend.filter (fun m => m.site == k)
    let may : Prop := s.flag F.STN_MEND_CTL_AUTO = true ∧ s.firmware = true
    (asked = none ∨ ¬may → exec (.mendStart x) s = .next s) ∧
    (∀ m, asked = some m → may → s.replacement k = none →
      ∃ u : State, exec (.mendStart x) s = .next (u.mendOver { m with start := s.now } 0 .busy) ∧
        ∀ d, (s.loom m.loom).drafts[m.draft]? = some d → (u.loom m.loom).drafts[m.draft]? = some { d with lost := true, queue := [] }) ∧
    (∀ m r, asked = some m → may → s.replacement k = some r →
      exec (.mendStart x) s = .next ((s.loadSite m.loom m.draft r m.prog m.code []).setLm { s.lm with
          mends := s.lm.mends.map (fun y => if y.site = k ∧ y.loom = m.loom then { y with dst := some r, start := s.now } else y) }) ∧
        (s.loadSite m.loom m.draft r m.prog m.code []).siteState r = 2 ∧ (s.siteState r = 0 ∨ s.siteState r = 1) ∧ siteQ r = siteQ k) ∧
    (let s1 := s.settleLooms
     let found := s1.lm.mends.find? (fun m => m.site == k && m.dst.isSome)
     (found = none → exec (.mendComplete x) s = .next s1) ∧
     ∀ m, found = some m →
       ∀ r, m.dst = some r →
         let l := s1.loom m.loom
         let others := (l.stns.map (·.site)).filter (· ≠ k)
         let change (j : Nat) : Prop := ∃ e ∈ (s1.stn j).routes, s1.reroute j k r false e.2.toNat ≠ e.2.toNat
         let ready : Prop := s1.firmware = true ∧ (∀ d, l.drafts[m.draft]? = some d → d.run = none) ∧ (m.waited = true ∨ ∀ j ∈ s1.loomMates m.loom, s1.loomState j = 4) ∧
           ∀ j ∈ others, change j → s1.siteState j ≠ 3
         (¬ready → exec (.mendComplete x) s = .next s1) ∧
         (ready → r ≠ k → ∃ u : State, exec (.mendComplete x) s = .next (u.mendOver m r .ok) ∧ (6 ≤ s1.siteState k → r < 1296 → (u.stn k).loom = none) ∧
           (u.stn r).key = BitVec.ofNat 64 (s1.regVal .STN_LOOM_KEY 0 m.loom) ∧
           (u.loom m.loom).stns = l.stns.map (fun e => if e.site = k then { e with site := r } else e) ∧
           (u.loom m.loom).sites = l.sites.map (fun j => if j = k then r else j) ∧
           u = { s1 with stns := u.stns, regs := u.regs, lm := { s1.lm with looms := u.lm.looms } }))

/-- Page i of a run lies on stack FRAME_STK + (i mod 2^SPREAD) at page FRAME_PG + floor(i / 2^SPREAD), and an entry that breaks R42 is refused (R42). -/
def Obligations.PagesOfARunFollowTheTwoFormulas : Prop :=
  (∀ (e : Nat × Nat) (i : Nat), extSpread e ≤ 4 → extFrameStk e % 2 ^ extSpread e = 0 → i < extLen e →
    extFramePg e + (extLen e - 1) / 2 ^ extSpread e ≤ 1474559 →
    let f := extFrame e (extPage e + i)
    keyStack f = extFrameStk e + i % 2 ^ extSpread e ∧ keyPage f = extFramePg e + i / 2 ^ extSpread e ∧ keyPage f ≤ 1474559 ∧ keyStack f < 16) ∧
  (∀ (s : State) (first count page f : Nat), s.mapped first count page = some f →
    ∃ e i, page = extPage e + i ∧ i < extLen e ∧ f = runFrame (extFrameStk e) (extFramePg e) (extSpread e) i) ∧
  ∀ (w : Writer) (s : State), s.admits w .XLT_EXT_OP 0 →
    let s1 := s.wakeFor w
    let e := (s1.regVal .XLT_EXT_DATA0, s1.regVal .XLT_EXT_DATA1)
    extFrameStk e % 2 ^ extSpread e ≠ 0 ∨ (extV e = true ∧ ∃ i, i < extLen e ∧ 1474559 < extFramePg e + i / 2 ^ extSpread e) →
      exec (.extWrite w) s = .next (s1.respond .accessDenied)

/-- A request is stamped with its deadline on arrival, and its urgency is 3, 2, 1 or 0 by the slack that is left, and only rises (R122). -/
def Obligations.UrgencyRisesTowardsTheDeadline : Prop :=
  targetCycles 0 = targetCycles 1 ∧
  (∀ n, 1 ≤ n → n * 8 ≤ 5 * targetCycles n ∧ ∀ k, n * 8 ≤ 5 * k → targetCycles n ≤ k) ∧
  (∀ (x : Stack) (k : Fin 8) (e : ReadErr) (s : State) (l : LineReq) (rest : List LineReq),
    smGet [] (s.stk x.val).coming k.val = l :: rest → (smGet [] (s.stk x.val).bufs k.val).length < 64 → (s.stk x.val).missing = false →
    ∃ u : State, exec (.stackRequestArrival x k e) s = .next (((u.askStk x.val).fillStk x.val).settle) ∧
      smGet [] (u.stk x.val).coming k.val = rest ∧ (u.stk x.val).queues = (s.stk x.val).queues ∧ u = { s with stks := u.stks } ∧
      smGet [] (u.stk x.val).bufs k.val = smGet [] (s.stk x.val).bufs k.val ++
        [{ l with arr := cyclesAt s.now, target := targetCycles (s.fld F.STK_PORT_TARGET_NS x.val k.val) }]) ∧
  (∀ (l : LineReq) (c : Nat),
    let slack : Int := ((l.arr + l.target : Nat) : Int) - (c : Int)
    l.urgency c = if slack ≤ 0 then 3 else if slack ≤ ((l.target >>> 2 : Nat) : Int) then 2 else if slack ≤ ((l.target >>> 1 : Nat) : Int) then 1 else 0) ∧
  ∀ (l : LineReq) (c d : Nat), c ≤ d → l.urgency c ≤ l.urgency d

/-- Step runs the command at the front of the queue on the queue's rest, every command completes, and an empty queue lets one nanosecond pass (R312). -/
def Obligations.StepRunsTheFrontCommandAndNoCommandStops : Prop :=
  (∀ (c : Instr) (rest : List Instr) (s : State), step { s with pending := c :: rest } = exec c { s with pending := rest }) ∧
  (∀ (c : Instr) (s : State), ∃ t, exec c s = .next t) ∧
  ∀ s : State, step { s with pending := [] } = .next (({ s with pending := [] } : State).tick)

/-- After reset every register reads the value of its table, nothing is queued, held or stored, and the stated defaults are in force (R127, R132, R167, R367, R378, R390). -/
def Obligations.ResetLeavesTheStatedValues : Prop :=
  let s := State.reset
  (∀ (r : RegName) (inst i j : Nat), s.regVal r inst i j = r.resetVal i % 2 ^ 64) ∧
  s.pending = [] ∧ s.pool.mem = [] ∧ Memory.wf s.pool.mem = true ∧ s.pool.side = [] ∧ s.ord.reqs = [] ∧ s.xlt.tlb = [] ∧ s.xlt.l2 = [] ∧ s.coh.dir = [] ∧ s.coh.txns = [] ∧
  s.movers = [] ∧ s.stns = [] ∧ s.tl.held = [] ∧ s.now = 0 ∧ s.power.porst = true ∧
  (∀ x, x < 16 → s.fld F.STK_CTL_STREAK x = 16 ∧ s.rhThr x = 1024 ∧ s.fld F.STK_SCRUB_CTL_PASS_H x = 24) ∧
  s.fld F.EVR_CTL_PERIOD_H = 24 ∧ s.fld F.PWR_CTL_PERIOD_US = 100 ∧ s.fld F.TDM_HB_HB_US = 100

/-- Every step takes exactly the front command, keeps time unless power is lost, and keeps memory in its canonical form; an empty queue lets 1 ns pass (R300, R312, R376, R406). -/
def Obligations.EveryStepTakesItsCommandKeepsTimeAndMemoryForm : Prop :=
  let power (c : Instr) : Prop := c = .porstNAssert ∨ (∃ straps torn, c = .powerOnReset straps torn) ∨ (∃ v, c = .inputBrownout v) ∨
    (∃ v, c = .inputOverlimit v) ∨ c = .inputRestart ∨ ∃ r mv, c = .railFault r mv
  ∀ s t : State, step s = .next t →
    t.pending = s.pending.tail ∧ (s.pending = [] → t.now = s.now + 1) ∧
    (∀ c rest, s.pending = c :: rest → t.now = s.now ∨ (power c ∧ t.now = 0)) ∧
    (Memory.wf s.pool.mem = true → Memory.wf t.pool.mem = true)
end

