-- ==== Sys2Proof/Laws/Insn.lean ====
section
/-!
SUPPORT. The laws of instruction words: fields of a word made of its class, operation and other bits.
-/
namespace Sys2Proof.Machine
open Sys2Proof

/-- Bits of the low part of a word. -/
theorem mifelWord_low (c : BitVec 4) (o : BitVec 6) (w : BitVec 54) (lo n : Nat) (h : lo + n ≤ 54) :
    (mifelWord c o w).extractLsb' lo n = w.extractLsb' lo n := by
  apply BitVec.eq_of_getLsbD_eq
  intro i hi
  simp only [mifelWord, BitVec.getLsbD_extractLsb', BitVec.getLsbD_append, hi, decide_true, Bool.true_and]
  have : lo + i < 54 := by omega
  simp [this]

theorem mifelWord_cls (c : BitVec 4) (o : BitVec 6) (w : BitVec 54) : (mifelWord c o w).extractLsb' 60 4 = c := by
  apply BitVec.eq_of_getLsbD_eq
  intro i hi
  simp only [mifelWord, BitVec.getLsbD_extractLsb', BitVec.getLsbD_append, hi, decide_true, Bool.true_and]
  have h1 : ¬ 60 + i < 54 := by omega
  have h2 : ¬ 60 + i < 60 := by omega
  have h4 : ¬ 60 + i - 54 < 6 := by omega
  have h3 : 60 + i - 54 - 6 = i := by omega
  simp [h1, h4, h3]

theorem mifelWord_op (c : BitVec 4) (o : BitVec 6) (w : BitVec 54) : (mifelWord c o w).extractLsb' 54 6 = o := by
  apply BitVec.eq_of_getLsbD_eq
  intro i hi
  simp only [mifelWord, BitVec.getLsbD_extractLsb', BitVec.getLsbD_append, hi, decide_true, Bool.true_and]
  have h1 : ¬ 54 + i < 54 := by omega
  simp [h1]
  omega

/-- A word is its class, operation and other bits. -/
theorem mifelWord_split (word : BitVec 64) :
    mifelWord (word.extractLsb' 60 4) (word.extractLsb' 54 6) (word.extractLsb' 0 54) = word := by
  apply BitVec.eq_of_getLsbD_eq
  intro i hi
  simp only [mifelWord, BitVec.getLsbD_extractLsb', BitVec.getLsbD_append]
  by_cases h1 : i < 54
  · simp [h1]
  · by_cases h2 : i < 60
    · have h3 : i - 54 < 6 := by omega
      have h4 : 54 + (i - 54) = i := by omega
      simp [h1, h3, h4]
    · have h3 : ¬ i - 54 < 6 := by omega
      have h4 : 60 + (i - 54 - 6) = i := by omega
      have h5 : i - 54 - 6 < 4 := by omega
      simp [h1, h3, h4, h5]

/-- The immediate of Form I in the bits of the word. -/
theorem imm32_mifelWord (c : BitVec 4) (o : BitVec 6) (w : BitVec 54) :
    (insnOf (mifelWord c o w)).imm32 = (w.extractLsb' 0 32).signExtend 64 := by
  unfold Insn.imm32
  congr 1
  simp only [insnOf]
  rw [mifelWord_low _ _ _ _ _ (by omega), mifelWord_low _ _ _ _ _ (by omega), mifelWord_low _ _ _ _ _ (by omega)]
  apply BitVec.eq_of_getLsbD_eq
  intro i hi
  simp only [BitVec.getLsbD_extractLsb', BitVec.getLsbD_append]
  by_cases h1 : i < 20
  · simp [h1, hi]
  · by_cases h2 : i < 26
    · have h3 : i - 20 < 6 := by omega
      have h4 : 20 + (i - 20) = i := by omega
      simp [h1, h3, h4, hi]
    · have h3 : ¬ i - 20 < 6 := by omega
      have h4 : 26 + (i - 20 - 6) = i := by omega
      have h5 : i - 20 - 6 < 6 := by omega
      simp [h1, h3, h4, h5, hi]

theorem imm32_low (c : BitVec 4) (o : BitVec 6) (w : BitVec 54) :
    (insnOf (mifelWord c o w)).imm32.extractLsb' 0 32 = w.extractLsb' 0 32 := by
  rw [imm32_mifelWord]
  apply BitVec.eq_of_getLsbD_eq
  intro i hi
  simp only [BitVec.getLsbD_extractLsb', BitVec.getLsbD_signExtend]
  simp [hi]; omega

theorem simm20_mifelWord (c : BitVec 4) (o : BitVec 6) (w : BitVec 54) :
    (insnOf (mifelWord c o w)).simm20 = (w.extractLsb' 0 20).signExtend 64 := by
  unfold Insn.simm20
  simp only [insnOf]
  rw [mifelWord_low _ _ _ _ _ (by omega)]

end Sys2Proof.Machine
end

