-- ==== Sys2Proof/Laws/Sparse.lean ====
section
/-!
SUPPORT. The laws of sparse maps: a read after a write, and that a write keeps the canonical form.
-/
namespace Sys2Proof.Machine

variable {β : Type} {d : β}

@[simp] theorem smGet_smErase_same (m : List (Nat × β)) (k : Nat) : smGet d (smErase m k) k = d := by
  induction m with
  | nil => rfl
  | cons p rest ih =>
    obtain ⟨k', v'⟩ := p
    by_cases h : k' = k <;> simp [smErase, smGet, h, ih]

theorem smGet_smErase_other {m : List (Nat × β)} {k j : Nat} (h : j ≠ k) : smGet d (smErase m k) j = smGet d m j := by
  induction m with
  | nil => rfl
  | cons p rest ih =>
    obtain ⟨k', v'⟩ := p
    by_cases hk : k' = k
    · subst hk; simp [smErase, smGet, ih, Ne.symm h]
    · simp [smErase, smGet, hk, ih]

theorem smGet_smInsert_other {m : List (Nat × β)} {k j : Nat} {v : β} (h : j ≠ k) : smGet d (smInsert m k v) j = smGet d m j := by
  induction m with
  | nil => simp [smInsert, smGet, Ne.symm h]
  | cons p rest ih =>
    obtain ⟨k', v'⟩ := p
    by_cases hk : k < k' <;> simp [smInsert, smGet, hk, ih, Ne.symm h]

/-- An inserted pair is read where no lower or equal key hides it. -/
theorem smGet_smInsert_erased (m : List (Nat × β)) (k : Nat) (v : β) : smGet d (smInsert (smErase m k) k v) k = v := by
  induction m with
  | nil => simp [smErase, smInsert, smGet]
  | cons p rest ih =>
    obtain ⟨k', v'⟩ := p
    by_cases hk : k' = k
    · simp [smErase, hk, ih]
    · by_cases hl : k < k' <;> simp [smErase, smInsert, smGet, hk, hl, ih]

variable [DecidableEq β]

/-- A key reads what was last written there. -/
@[simp] theorem smGet_smSet_same (m : List (Nat × β)) (k : Nat) (v : β) : smGet d (smSet d m k v) k = v := by
  unfold smSet
  split
  · next h => simp [h]
  · exact smGet_smInsert_erased m k v

/-- A write leaves every other key alone, whatever an unlisted key is read as. -/
theorem smGet_smSet_other {e : β} {m : List (Nat × β)} {k j : Nat} {v : β} (h : j ≠ k) : smGet e (smSet d m k v) j = smGet e m j := by
  unfold smSet
  split
  · exact smGet_smErase_other h
  · rw [smGet_smInsert_other h, smGet_smErase_other h]

theorem smGet_smSet (m : List (Nat × β)) (k j : Nat) (v : β) : smGet d (smSet d m k v) j = if j = k then v else smGet d m j := by
  split
  · next h => subst h; simp
  · next h => exact smGet_smSet_other h

theorem smWfFrom_mono {m : List (Nat × β)} {a b : Nat} (h : b ≤ a) (hw : smWfFrom d a m = true) : smWfFrom d b m = true := by
  cases m with
  | nil => rfl
  | cons p rest =>
    obtain ⟨k, v⟩ := p
    simp only [smWfFrom, Bool.and_eq_true, decide_eq_true_eq] at hw ⊢
    exact ⟨⟨by omega, hw.1.2⟩, hw.2⟩

theorem smErase_wfFrom {m : List (Nat × β)} {a : Nat} (k : Nat) (hw : smWfFrom d a m = true) : smWfFrom d a (smErase m k) = true := by
  induction m generalizing a with
  | nil => rfl
  | cons p rest ih =>
    obtain ⟨k', v'⟩ := p
    simp only [smWfFrom, Bool.and_eq_true, decide_eq_true_eq] at hw
    simp only [smErase]
    split
    · exact smWfFrom_mono (by omega) (ih hw.2)
    · simp only [smWfFrom, Bool.and_eq_true, decide_eq_true_eq]
      exact ⟨hw.1, ih hw.2⟩

theorem smInsert_erased_wfFrom {m : List (Nat × β)} {a k : Nat} {v : β} (hw : smWfFrom d a m = true) (h : a ≤ k) (hv : v ≠ d) :
    smWfFrom d a (smInsert (smErase m k) k v) = true := by
  induction m generalizing a with
  | nil => simp [smErase, smInsert, smWfFrom, h, hv]
  | cons p rest ih =>
    obtain ⟨k', v'⟩ := p
    simp only [smWfFrom, Bool.and_eq_true, decide_eq_true_eq] at hw
    obtain ⟨⟨h1, h2⟩, h3⟩ := hw
    by_cases hk : k' = k
    · simp only [smErase, if_pos hk]
      exact ih (smWfFrom_mono (by omega) h3) h
    · simp only [smErase, if_neg hk, smInsert]
      split
      · simp only [smWfFrom, Bool.and_eq_true, decide_eq_true_eq]
        exact ⟨⟨h, hv⟩, ⟨by omega, h2⟩, smErase_wfFrom k h3⟩
      · simp only [smWfFrom, Bool.and_eq_true, decide_eq_true_eq]
        exact ⟨⟨h1, h2⟩, ih h3 (by omega)⟩

/-- A write keeps the canonical form. -/
theorem smSet_wf {m : List (Nat × β)} (k : Nat) (v : β) (hw : smWf d m = true) : smWf d (smSet d m k v) = true := by
  unfold smSet
  split
  · exact smErase_wfFrom k hw
  · next hv => exact smInsert_erased_wfFrom hw (Nat.zero_le k) hv

end Sys2Proof.Machine
end

