-- ==== Sys2Proof/Laws/Memory.lean ====
section
/-!
SUPPORT. The laws of pool memory: reads after writes, and that every operation on memory keeps its canonical form.
-/
namespace Sys2Proof.Machine
open Sys2Proof

/-! ### Bytes -/

/-- A byte after a write: the byte written there, or what was there before. -/
theorem smGet_writeMem (bs : List (BitVec 8)) : ∀ (m : List Host.Cell) (a b : Nat),
    smGet 0 (writeMem m a bs) b = if a ≤ b ∧ b < a + bs.length then bs.getD (b - a) 0 else smGet 0 m b := by
  induction bs with
  | nil => intro m a b; simp only [writeMem, List.length_nil]; rw [if_neg (by omega)]
  | cons x rest ih =>
    intro m a b
    rw [writeMem, ih, smGet_smSet]
    by_cases h : a = b
    · subst h; simp
    · simp only [List.length_cons]
      by_cases h1 : a + 1 ≤ b ∧ b < a + 1 + rest.length
      · rw [if_pos h1, if_pos (by omega), show b - a = (b - (a + 1)) + 1 by omega, List.getD_cons_succ]
      · rw [if_neg h1, if_neg (Ne.symm h), if_neg (by omega)]

theorem readMem_length (m : List Host.Cell) : ∀ a n, (readMem m a n).length = n
  | _, 0 => rfl
  | a, n + 1 => by rw [readMem, List.length_cons, readMem_length m (a + 1) n]

theorem readMem_eq (m : List Host.Cell) (a n : Nat) : readMem m a n = (List.range n).map (fun j => smGet 0 m (a + j)) := by
  induction n generalizing a with
  | zero => rfl
  | succ n ih =>
    rw [readMem, ih, List.range_succ_eq_map, List.map_cons, List.map_map]
    refine congrArg₂ _ rfl (List.map_congr_left fun j _ => ?_)
    show smGet 0 m (a + 1 + j) = smGet 0 m (a + (j + 1))
    congr 1; omega

/-- What is read where bytes were written. -/
theorem readMem_writeMem (m : List Host.Cell) (a : Nat) (bs : List (BitVec 8)) : readMem (writeMem m a bs) a bs.length = bs := by
  rw [readMem_eq]
  refine List.ext_getElem (by simp) (fun j h1 h2 => ?_)
  simp only [List.getElem_map, List.getElem_range, smGet_writeMem]
  rw [if_pos (by omega)]
  simp [h2]

/-! ### The canonical form -/

theorem smWfFrom_filter {β : Type} [DecidableEq β] {d : β} (p : Nat × β → Bool) :
    ∀ {m : List (Nat × β)} {lo : Nat}, smWfFrom d lo m = true → smWfFrom d lo (m.filter p) = true
  | [], _, _ => rfl
  | (k, v) :: rest, lo, h => by
    simp only [smWfFrom, Bool.and_eq_true, decide_eq_true_eq] at h
    rw [List.filter_cons]
    split
    · simp only [smWfFrom, Bool.and_eq_true, decide_eq_true_eq]
      exact ⟨h.1, smWfFrom_filter p h.2⟩
    · exact smWfFrom_mono (Nat.le_succ_of_le h.1.1) (smWfFrom_filter p h.2)

theorem Memory.wf_filter {m : List Host.Cell} (p : Host.Cell → Bool) (h : Memory.wf m = true) : Memory.wf (m.filter p) = true :=
  smWfFrom_filter p h

theorem Memory.wf_writeMem : ∀ (bs : List (BitVec 8)) (m : List Host.Cell) (a : Nat), Memory.wf m = true → Memory.wf (writeMem m a bs) = true
  | [], _, _, h => h
  | b :: rest, m, a, h => Memory.wf_writeMem rest (smSet 0 m a b) (a + 1) (smSet_wf a b h)

theorem State.wf_writePool (s : State) (frame byte : Nat) (bs : List (BitVec 8)) (h : Memory.wf s.pool.mem = true) :
    Memory.wf (s.writePool frame byte bs).pool.mem = true := Memory.wf_writeMem bs _ _ h

/-- A fold of steps that each keep the form keeps it. -/
theorem State.wf_foldl {α : Type} (f : State → α → State) (hf : ∀ s x, Memory.wf s.pool.mem = true → Memory.wf (f s x).pool.mem = true) :
    ∀ (l : List α) (s : State), Memory.wf s.pool.mem = true → Memory.wf (l.foldl f s).pool.mem = true
  | [], _, h => h
  | x :: l, s, h => State.wf_foldl f hf l (f s x) (hf s x h)

/-- A sideband write leaves the bytes of memory alone. -/
@[simp] theorem State.setSide_mem (s : State) (frame line : Nat) (v : BitVec 64) : (s.setSide frame line v).pool.mem = s.pool.mem := rfl
@[simp] theorem State.setPageState_mem (s : State) (frame v : Nat) : (s.setPageState frame v).pool.mem = s.pool.mem := rfl
@[simp] theorem State.cleanPage_mem (s : State) (frame : Nat) : (s.cleanPage frame).pool.mem = s.pool.mem := rfl

theorem State.wf_putWord (s : State) (frame line : Nat) (w : List (BitVec 8)) (h : Memory.wf s.pool.mem = true) :
    Memory.wf (s.putWord frame line w).pool.mem = true := s.wf_writePool frame (line * 64) (sliceBytes w 0 64) h

theorem State.wf_storeLine (s : State) (frame line : Nat) (data : List (BitVec 8)) (tag : Nat) (h : Memory.wf s.pool.mem = true) :
    Memory.wf (s.storeLine frame line data tag).pool.mem = true := by
  unfold State.storeLine
  split
  · exact h
  · rw [State.setSide_mem]
    exact s.wf_writePool frame (line * 64) data h

theorem State.wf_upsetOne (s : State) (f : Flip) (h : Memory.wf s.pool.mem = true) : Memory.wf (s.upsetOne f).pool.mem = true := by
  unfold State.upsetOne
  simp only []
  split
  · exact h
  · split
    · exact h
    · exact State.wf_putWord _ _ _ _ h

theorem State.wf_upset (s : State) (e : ReadErr) (h : Memory.wf s.pool.mem = true) : Memory.wf (s.upset e).pool.mem = true :=
  State.wf_foldl _ (fun s f => s.wf_upsetOne f) e.flips s h

theorem State.wf_setCtrl (s : State) (frame line ctrl : Nat) (h : Memory.wf s.pool.mem = true) :
    Memory.wf (s.setCtrl frame line ctrl).pool.mem = true := by
  unfold State.setCtrl
  split
  · rw [State.setSide_mem]
    exact s.wf_writePool frame (line * 64) _ h
  · exact h

theorem State.wf_setCheck (s : State) (frame k : Nat) (c : List (BitVec 8)) (h : Memory.wf s.pool.mem = true) :
    Memory.wf (s.setCheck frame k c).pool.mem = true := by
  unfold State.setCheck
  simp only []
  split
  · split
    · apply State.wf_foldl
      · exact fun s w h => s.wf_setCtrl frame _ _ h
      · exact h
    · exact h
  · exact s.wf_storeLine _ _ _ _ h

theorem State.wf_putChecks (s : State) (frame : Nat) (cs : List (List (BitVec 8))) (h : Memory.wf s.pool.mem = true) :
    Memory.wf (s.putChecks frame cs).pool.mem = true := by
  unfold State.putChecks
  apply State.wf_foldl
  · exact fun s c h => s.wf_setCheck frame _ _ h
  · exact h

theorem State.wf_putCode (s : State) (frame : Nat) (ls : List (Nat × List (BitVec 8))) (h : Memory.wf s.pool.mem = true) :
    Memory.wf (s.putCode frame ls).pool.mem = true := s.wf_putChecks frame _ h

theorem State.wf_streamFrame (s : State) (frame : Nat) (page : List (Nat × List (BitVec 8) × Nat)) (h : Memory.wf s.pool.mem = true) :
    Memory.wf (s.streamFrame frame page).pool.mem = true := by
  unfold State.streamFrame
  rw [State.setPageState_mem, State.cleanPage_mem]
  apply State.wf_putCode
  apply State.wf_foldl
  · exact fun s l => s.wf_storeLine frame l.1 l.2.1 l.2.2
  split
  · exact Memory.wf_filter _ h
  · apply State.wf_foldl
    · intro s l h
      rw [State.setSide_mem]
      exact h
    · exact Memory.wf_filter _ h

theorem State.wf_reset : Memory.wf State.reset.pool.mem = true := rfl

/-- Memory in canonical form is settled by what its bytes read as. -/
theorem smWf_ext {β : Type} [DecidableEq β] {d : β} : ∀ {m n : List (Nat × β)} {lo : Nat}, smWfFrom d lo m = true → smWfFrom d lo n = true →
    (∀ k, smGet d m k = smGet d n k) → m = n := by
  have low {m : List (Nat × β)} {lo k : Nat} (h : smWfFrom d lo m = true) (hk : k < lo) : smGet d m k = d := by
    induction m generalizing lo with
    | nil => rfl
    | cons x rest ih =>
      obtain ⟨k', v⟩ := x
      simp only [smWfFrom, Bool.and_eq_true, decide_eq_true_eq] at h
      rw [smGet, if_neg (by omega)]
      exact ih h.2 (by omega)
  intro m
  induction m with
  | nil =>
    rintro (_ | ⟨⟨k, v⟩, rest⟩) lo - hn h
    · rfl
    · simp only [smWfFrom, Bool.and_eq_true, decide_eq_true_eq] at hn
      have := h k
      simp only [smGet, if_pos] at this
      exact absurd this.symm hn.1.2
  | cons x m ih =>
    obtain ⟨a, u⟩ := x
    rintro (_ | ⟨⟨k, v⟩, rest⟩) lo hm hn h
    · simp only [smWfFrom, Bool.and_eq_true, decide_eq_true_eq] at hm
      have := h a
      simp only [smGet, if_pos] at this
      exact absurd this hm.1.2
    · simp only [smWfFrom, Bool.and_eq_true, decide_eq_true_eq] at hm hn
      have hk : a = k := by
        rcases Nat.lt_trichotomy a k with e | e | e
        · have := h a
          rw [smGet, if_pos rfl, smGet, if_neg (by omega), low hn.2 (by omega)] at this
          exact absurd this hm.1.2
        · exact e
        · have := h k
          rw [smGet, if_neg (by omega), low hm.2 (by omega), smGet, if_pos rfl] at this
          exact absurd this.symm hn.1.2
      subst hk
      have hv : u = v := by have := h a; simpa [smGet] using this
      subst hv
      rw [ih hm.2 hn.2 (fun j => ?_)]
      by_cases e : a = j
      · subst e; rw [low hm.2 (by omega), low hn.2 (by omega)]
      · have := h j; simpa [smGet, e] using this

end Sys2Proof.Machine
end

