-- ==== Sys2Proof/Laws/Regs.lean ====
section
/-!
SUPPORT. The laws of configuration registers: bit fields of numbers, reads after writes of registers and fields, and what a write leaves alone.
-/
namespace Sys2Proof
open Sys2Proof.Machine

/-! ### Bit fields -/

theorem bits_lt (x lo n : Nat) : bits x lo n < 2 ^ n := Nat.mod_lt _ (Nat.two_pow_pos n)

theorem bits_le (x lo n : Nat) : bits x lo n <<< lo ≤ x := by
  unfold bits
  rw [Nat.shiftLeft_eq, Nat.shiftRight_eq_div_pow]
  calc x / 2 ^ lo % 2 ^ n * 2 ^ lo ≤ x / 2 ^ lo * 2 ^ lo := Nat.mul_le_mul_right _ (Nat.mod_le _ _)
    _ ≤ x := Nat.div_mul_le_self _ _

/-- A number split around a field. -/
theorem bits_split (x lo n : Nat) : x = x % 2 ^ lo + 2 ^ lo * bits x lo n + 2 ^ (lo + n) * (x / 2 ^ (lo + n)) := by
  unfold bits
  rw [Nat.shiftRight_eq_div_pow]
  have h1 := Nat.div_add_mod x (2 ^ lo)
  have h2 := Nat.div_add_mod (x / 2 ^ lo) (2 ^ n)
  have h3 : x / 2 ^ lo / 2 ^ n = x / 2 ^ (lo + n) := by rw [Nat.div_div_eq_div_mul, Nat.pow_add]
  rw [h3] at h2
  calc x = 2 ^ lo * (x / 2 ^ lo) + x % 2 ^ lo := h1.symm
    _ = 2 ^ lo * (2 ^ n * (x / 2 ^ (lo + n)) + x / 2 ^ lo % 2 ^ n) + x % 2 ^ lo := by rw [h2]
    _ = _ := by rw [Nat.pow_add]; ring

/-- A number with a field replaced, split around the field. -/
theorem setBits_split (x lo n v : Nat) :
    setBits x lo n v = x % 2 ^ lo + 2 ^ lo * (v % 2 ^ n) + 2 ^ (lo + n) * (x / 2 ^ (lo + n)) := by
  unfold setBits
  have h := bits_split x lo n
  have hb : bits x lo n <<< lo = 2 ^ lo * bits x lo n := by rw [Nat.shiftLeft_eq, Nat.mul_comm]
  have hv : (v % 2 ^ n) <<< lo = 2 ^ lo * (v % 2 ^ n) := by rw [Nat.shiftLeft_eq, Nat.mul_comm]
  rw [hb, hv]
  omega

/-- The field that was set reads what it was set to. -/
@[simp] theorem bits_setBits_same (x lo n v : Nat) : bits (setBits x lo n v) lo n = v % 2 ^ n := by
  rw [setBits_split]
  unfold bits
  rw [Nat.shiftRight_eq_div_pow]
  have h1 : x % 2 ^ lo < 2 ^ lo := Nat.mod_lt _ (Nat.two_pow_pos lo)
  have e : x % 2 ^ lo + 2 ^ lo * (v % 2 ^ n) + 2 ^ (lo + n) * (x / 2 ^ (lo + n)) =
      x % 2 ^ lo + 2 ^ lo * (v % 2 ^ n + 2 ^ n * (x / 2 ^ (lo + n))) := by rw [Nat.pow_add]; ring
  rw [e, Nat.add_mul_div_left _ _ (Nat.two_pow_pos lo), Nat.div_eq_of_lt h1, Nat.zero_add, Nat.add_mul_mod_self_left, Nat.mod_mod]

theorem testBit_setBits (x lo n v i : Nat) :
    (setBits x lo n v).testBit i = if lo ≤ i ∧ i < lo + n then v.testBit (i - lo) else x.testBit i := by
  rw [setBits_split]
  have hpos := Nat.two_pow_pos
  by_cases h1 : i < lo
  · rw [if_neg (by omega)]
    have : x % 2 ^ lo + 2 ^ lo * (v % 2 ^ n) + 2 ^ (lo + n) * (x / 2 ^ (lo + n)) =
        2 ^ lo * (v % 2 ^ n + 2 ^ n * (x / 2 ^ (lo + n))) + x % 2 ^ lo := by rw [Nat.pow_add]; ring
    rw [this, Nat.testBit_two_pow_mul_add _ (Nat.mod_lt _ (hpos lo)), if_pos h1, Nat.testBit_mod_two_pow]
    simp [h1]
  · have : x % 2 ^ lo + 2 ^ lo * (v % 2 ^ n) + 2 ^ (lo + n) * (x / 2 ^ (lo + n)) =
        2 ^ lo * (2 ^ n * (x / 2 ^ (lo + n)) + v % 2 ^ n) + x % 2 ^ lo := by rw [Nat.pow_add]; ring
    rw [this, Nat.testBit_two_pow_mul_add _ (Nat.mod_lt _ (hpos lo)), if_neg h1,
      Nat.testBit_two_pow_mul_add _ (Nat.mod_lt _ (hpos n))]
    by_cases h2 : i < lo + n
    · rw [if_pos (by omega), if_pos (by omega), Nat.testBit_mod_two_pow]
      simp; omega
    · rw [if_neg (by omega), if_neg (by omega), Nat.testBit_div_two_pow]
      congr 1; omega

/-- Other fields are left alone. -/
theorem bits_setBits_other (x lo n v lo' n' : Nat) (h : lo' + n' ≤ lo ∨ lo + n ≤ lo') : bits (setBits x lo n v) lo' n' = bits x lo' n' := by
  apply Nat.eq_of_testBit_eq
  intro i
  unfold bits
  rw [Nat.testBit_mod_two_pow, Nat.testBit_mod_two_pow, Nat.testBit_shiftRight, Nat.testBit_shiftRight, testBit_setBits]
  by_cases hi : i < n'
  · rw [if_neg (by omega)]
  · simp [hi]

theorem setBits_lt {x lo n v w : Nat} (hx : x < 2 ^ w) (h : lo + n ≤ w) : setBits x lo n v < 2 ^ w := by
  apply Nat.lt_pow_two_of_testBit
  intro i hi
  rw [testBit_setBits, if_neg (by omega)]
  exact Nat.testBit_lt_two_pow (lt_of_lt_of_le hx (Nat.pow_le_pow_right (by omega) hi))

end Sys2Proof

namespace Sys2Proof.Machine
open Sys2Proof

/-! ### Registers -/

theorem State.regVal_lt (s : State) (r : RegName) (inst i j : Nat) : s.regVal r inst i j < 2 ^ 64 := by
  exact BitVec.isLt _

/-- A register reads what was last stored. -/
@[simp] theorem State.regVal_setReg_same (s : State) (r : RegName) (v inst i j : Nat) :
    (s.setReg r v inst i j).regVal r inst i j = v % 2 ^ 64 := by
  simp [State.regVal, State.setReg]

/-- A store leaves every register at another offset alone. -/
theorem State.regVal_setReg_other (s : State) {r r' : RegName} (v : Nat) {inst i j inst' i' j' : Nat}
    (h : r'.addr inst' i' j' ≠ r.addr inst i j) : (s.setReg r v inst i j).regVal r' inst' i' j' = s.regVal r' inst' i' j' := by
  simp [State.regVal, State.setReg, smGet_smSet_other h]

theorem State.regsBut_setReg (s : State) (r : RegName) (v inst i j : Nat) : s.regsBut (s.setReg r v inst i j) [r.addr inst i j] := by
  intro d a ha
  exact smGet_smSet_other (by simpa using ha)
theorem State.regsBut_refl (s : State) (l : List Nat) : s.regsBut s l := fun _ _ _ => rfl
theorem State.regsBut.trans {s t u : State} {l m : List Nat} (h : s.regsBut t l) (g : t.regsBut u m) : s.regsBut u (l ++ m) := by
  intro d a ha
  rw [List.mem_append, not_or] at ha
  rw [g d a ha.2, h d a ha.1]
theorem State.regsBut.mono {s t : State} {l m : List Nat} (h : s.regsBut t l) (hl : ∀ a ∈ l, a ∈ m) : s.regsBut t m :=
  fun d a ha => h d a (fun hm => ha (hl a hm))

/-- A field reads what was last stored in it. -/
theorem State.fld_setFld_same (s : State) (f : Fld) (v inst i j : Nat) (hf : f.lo + f.width ≤ 64) :
    (s.setFld f v inst i j).fld f inst i j = v % 2 ^ f.width := by
  simp only [State.fld, State.setFld, State.regVal_setReg_same]
  rw [Nat.mod_eq_of_lt (setBits_lt (State.regVal_lt _ _ _ _ _) hf), bits_setBits_same]

/-- Another field of the same register keeps its value. -/
theorem State.fld_setFld_beside (s : State) {f g : Fld} (v inst i j : Nat) (hr : g.reg = f.reg) (hf : f.lo + f.width ≤ 64)
    (h : g.lo + g.width ≤ f.lo ∨ f.lo + f.width ≤ g.lo) : (s.setFld f v inst i j).fld g inst i j = s.fld g inst i j := by
  simp only [State.fld, State.setFld, hr, State.regVal_setReg_same]
  rw [Nat.mod_eq_of_lt (setBits_lt (State.regVal_lt _ _ _ _ _) hf), bits_setBits_other _ _ _ _ _ _ h]

/-- A field of a register at another offset keeps its value. -/
theorem State.fld_setFld_other (s : State) {f g : Fld} (v : Nat) {inst i j inst' i' j' : Nat}
    (h : g.reg.addr inst' i' j' ≠ f.reg.addr inst i j) : (s.setFld f v inst i j).fld g inst' i' j' = s.fld g inst' i' j' := by
  simp only [State.fld, State.setFld, State.regVal_setReg_other s _ h]
theorem State.fld_setReg_other (s : State) {r : RegName} {g : Fld} (v : Nat) {inst i j inst' i' j' : Nat}
    (h : g.reg.addr inst' i' j' ≠ r.addr inst i j) : (s.setReg r v inst i j).fld g inst' i' j' = s.fld g inst' i' j' := by
  simp only [State.fld, State.regVal_setReg_other s _ h]

theorem State.regsBut_setFld (s : State) (f : Fld) (v inst i j : Nat) : s.regsBut (s.setFld f v inst i j) [f.reg.addr inst i j] :=
  State.regsBut_setReg _ _ _ _ _ _

/-- A count goes up by `n` and stops at its largest value. -/
theorem State.fld_count_same (s : State) (f : Fld) (n inst i j : Nat) (hf : f.lo + f.width ≤ 64) :
    (s.count f n inst i j).fld f inst i j = min (s.fld f inst i j + n) (2 ^ f.width - 1) := by
  unfold State.count
  rw [State.fld_setFld_same _ _ _ _ _ _ hf, Nat.mod_eq_of_lt]
  have := Nat.two_pow_pos f.width
  omega

/-! ### Access -/

/-- A write that is let through has its effect on the device as the access woke it. -/
theorem State.regWrite_admitted {s : State} {w : Writer} {r : RegName} {inst : Nat} (h : s.admits w r inst) (f : State → State) :
    s.regWrite w r inst f = f (s.wakeFor w) := by
  obtain ⟨h1, h2, h3⟩ := h
  simp [State.regWrite, h1, h2, h3]

end Sys2Proof.Machine
end

