-- ==== Sys2Proof/Laws/Plain.lean ====
section
/-!
SUPPORT. The laws of plain register writes: the fields of every register lie apart, so a plain write stores each writable field and keeps every other.
-/
namespace Sys2Proof.Machine
open Sys2Proof

/-- The fields of a register belong to it, lie within 64 bits, and no two of them share a bit. -/
def RegName.fieldsApart (r : RegName) : Bool :=
  r.fields.all (fun x => x.1.reg == r && decide (x.1.lo + x.1.width ≤ 64)) &&
    r.fields.zipIdx.all (fun x => r.fields.zipIdx.all (fun y =>
      x.2 == y.2 || decide (x.1.1.lo + x.1.1.width ≤ y.1.1.lo) || decide (y.1.1.lo + y.1.1.width ≤ x.1.1.lo)))

theorem RegName.fieldsApart_all (r : RegName) : r.fieldsApart = true := by cases r <;> decide +kernel

theorem RegName.fieldsApart_mem {r : RegName} {f : Fld} {a : Acc} (h : (f, a) ∈ r.fields) :
    f.reg = r ∧ f.lo + f.width ≤ 64 ∧
      ∀ g b, (g, b) ∈ r.fields → (g, b) = (f, a) ∨ f.lo + f.width ≤ g.lo ∨ g.lo + g.width ≤ f.lo := by
  have hr := RegName.fieldsApart_all r
  simp only [RegName.fieldsApart, Bool.and_eq_true, List.all_eq_true, beq_iff_eq, decide_eq_true_eq, Bool.or_eq_true] at hr
  refine ⟨(hr.1 _ h).1, (hr.1 _ h).2, fun g b hg => ?_⟩
  obtain ⟨i, hi⟩ := List.mem_iff_getElem?.mp h
  obtain ⟨j, hj⟩ := List.mem_iff_getElem?.mp hg
  rcases hr.2 ((f, a), i) (by simpa [List.mem_zipIdx_iff_getElem?] using hi) ((g, b), j)
    (by simpa [List.mem_zipIdx_iff_getElem?] using hj) with (e | e) | e
  · have e' : i = j := e
    subst e'
    exact .inl (Option.some.inj (hj.symm.trans hi))
  · exact .inr (.inl e)
  · exact .inr (.inr e)

/-- The bits of a mask are those of the fields it takes. -/
theorem RegName.mask_testBit (r : RegName) (p : Acc → Bool) (k : Nat) :
    (r.mask p).testBit k = r.fields.any (fun x => p x.2 && decide (x.1.lo ≤ k) && decide (k < x.1.lo + x.1.width)) := by
  have go (l : List (Fld × Acc)) (m : Nat) :
      (l.foldl (fun m fa => if p fa.2 then m ||| ((2 ^ fa.1.width - 1) <<< fa.1.lo) else m) m).testBit k =
        (m.testBit k || l.any (fun x => p x.2 && decide (x.1.lo ≤ k) && decide (k < x.1.lo + x.1.width))) := by
    induction l generalizing m with
    | nil => simp
    | cons x l ih =>
      simp only [List.foldl_cons, List.any_cons, ih]
      by_cases hp : p x.2
      · simp only [hp, if_true, Nat.testBit_or, Nat.testBit_shiftLeft, Nat.testBit_two_pow_sub_one, Bool.true_and, Bool.or_assoc]
        congr 2
        by_cases h1 : x.1.lo ≤ k <;> (simp [h1]; try omega)
      · simp [hp]
  simpa [RegName.mask] using go r.fields 0

/-- A field's bits in a mask: all of them where the mask takes the field, none where it does not. -/
theorem RegName.mask_field {r : RegName} {f : Fld} {a : Acc} (h : (f, a) ∈ r.fields) (p : Acc → Bool) (k : Nat) (hk : k < f.width) :
    (r.mask p).testBit (f.lo + k) = p a := by
  obtain ⟨-, -, ho⟩ := RegName.fieldsApart_mem h
  rw [RegName.mask_testBit, Bool.eq_iff_iff, List.any_eq_true]
  constructor
  · rintro ⟨⟨g, b⟩, hg, hx⟩
    simp only [Bool.and_eq_true, decide_eq_true_eq] at hx
    rcases ho g b hg with e | e | e
    · rw [← (Prod.mk.inj e).2]; exact hx.1.1
    · omega
    · omega
  · intro hp; exact ⟨(f, a), h, by simp [hp]; omega⟩

theorem bits_testBit (x lo n k : Nat) : (bits x lo n).testBit k = (decide (k < n) && x.testBit (lo + k)) := by
  simp [bits, Nat.testBit_mod_two_pow, Nat.testBit_shiftRight]

/-- What a plain write does (R4): its writable fields hold what the value has there, every other field and register is kept, it answers OK. -/
theorem State.stored_plainWrite (s : State) (r : RegName) (inst i j v : Nat) : s.stored (s.plainWrite r inst i j v) r inst i j v := by
  refine ⟨rfl, fun f a h => ?_, State.regsBut_setReg _ _ _ _ _ _⟩
  obtain ⟨hr, hb, -⟩ := RegName.fieldsApart_mem h
  have hv : (s.plainWrite r inst i j v).fld f inst i j =
      bits (((s.regVal r inst i j &&& (2 ^ 64 - 1 - r.mask accRW)) ||| (v &&& r.mask accRW)) % 2 ^ 64) f.lo f.width := by
    subst hr
    show bits (State.regVal (s.setReg f.reg _ inst i j) f.reg inst i j) f.lo f.width = _
    rw [State.regVal_setReg_same]
  have hm : r.mask accRW < 2 ^ 64 := by
    refine Nat.lt_pow_two_of_testBit _ (fun k hk => ?_)
    rw [RegName.mask_testBit, ← Bool.not_eq_true, List.any_eq_true]
    rintro ⟨⟨g, b⟩, hg, hx⟩
    have := (RegName.fieldsApart_mem hg).2.1
    simp only [Bool.and_eq_true, decide_eq_true_eq] at hx
    omega
  rw [hv]
  refine Nat.eq_of_testBit_eq (fun k => ?_)
  by_cases hk : k < f.width
  · have h64 : f.lo + k < 64 := by omega
    have hc : (2 ^ 64 - 1 - r.mask accRW).testBit (f.lo + k) = !(r.mask accRW).testBit (f.lo + k) := by
      rw [show 2 ^ 64 - 1 - r.mask accRW = 2 ^ 64 - (r.mask accRW + 1) by omega, Nat.testBit_two_pow_sub_succ hm]
      simp [h64]
    rw [bits_testBit, Nat.testBit_mod_two_pow, Nat.testBit_or, Nat.testBit_and, Nat.testBit_and, hc, RegName.mask_field h _ _ hk]
    cases ha : accRW a <;> simp [hk, h64, Fld.of, State.fld, hr, bits_testBit]
  · have : ∀ x, (bits x f.lo f.width).testBit k = false := fun x => by simp [bits_testBit, hk]
    rw [this]
    cases ha : accRW a <;> simp [Fld.of, State.fld, this]

end Sys2Proof.Machine
end

