-- ==== Sys2Proof/Laws/State.lean ====
section
/-!
SUPPORT. The laws of the updates of State: what each update leaves of every other field, and what is read where something was stored.
-/
namespace Sys2Proof.Machine
open Sys2Proof

/-! ### `State.setReg` -/

@[simp] theorem State.setReg_pending (s : State) (r : RegName) (v inst i j : Nat) : (s.setReg r v inst i j).pending = s.pending := rfl
@[simp] theorem State.setReg_now (s : State) (r : RegName) (v inst i j : Nat) : (s.setReg r v inst i j).now = s.now := rfl
@[simp] theorem State.setReg_time (s : State) (r : RegName) (v inst i j : Nat) : (s.setReg r v inst i j).time = s.time := rfl
@[simp] theorem State.setReg_links (s : State) (r : RegName) (v inst i j : Nat) : (s.setReg r v inst i j).links = s.links := rfl
@[simp] theorem State.setReg_hub (s : State) (r : RegName) (v inst i j : Nat) : (s.setReg r v inst i j).hub = s.hub := rfl
@[simp] theorem State.setReg_tl (s : State) (r : RegName) (v inst i j : Nat) : (s.setReg r v inst i j).tl = s.tl := rfl
@[simp] theorem State.setReg_intc (s : State) (r : RegName) (v inst i j : Nat) : (s.setReg r v inst i j).intc = s.intc := rfl
@[simp] theorem State.setReg_evr (s : State) (r : RegName) (v inst i j : Nat) : (s.setReg r v inst i j).evr = s.evr := rfl
@[simp] theorem State.setReg_pool (s : State) (r : RegName) (v inst i j : Nat) : (s.setReg r v inst i j).pool = s.pool := rfl
@[simp] theorem State.setReg_xlt (s : State) (r : RegName) (v inst i j : Nat) : (s.setReg r v inst i j).xlt = s.xlt := rfl
@[simp] theorem State.setReg_ord (s : State) (r : RegName) (v inst i j : Nat) : (s.setReg r v inst i j).ord = s.ord := rfl
@[simp] theorem State.setReg_ver (s : State) (r : RegName) (v inst i j : Nat) : (s.setReg r v inst i j).ver = s.ver := rfl
@[simp] theorem State.setReg_movers (s : State) (r : RegName) (v inst i j : Nat) : (s.setReg r v inst i j).movers = s.movers := rfl
@[simp] theorem State.setReg_coh (s : State) (r : RegName) (v inst i j : Nat) : (s.setReg r v inst i j).coh = s.coh := rfl
@[simp] theorem State.setReg_stks (s : State) (r : RegName) (v inst i j : Nat) : (s.setReg r v inst i j).stks = s.stks := rfl
@[simp] theorem State.setReg_stns (s : State) (r : RegName) (v inst i j : Nat) : (s.setReg r v inst i j).stns = s.stns := rfl
@[simp] theorem State.setReg_lm (s : State) (r : RegName) (v inst i j : Nat) : (s.setReg r v inst i j).lm = s.lm := rfl
@[simp] theorem State.setReg_sec (s : State) (r : RegName) (v inst i j : Nat) : (s.setReg r v inst i j).sec = s.sec := rfl
@[simp] theorem State.setReg_power (s : State) (r : RegName) (v inst i j : Nat) : (s.setReg r v inst i j).power = s.power := rfl
@[simp] theorem State.setReg_tdm (s : State) (r : RegName) (v inst i j : Nat) : (s.setReg r v inst i j).tdm = s.tdm := rfl
@[simp] theorem State.setReg_start (s : State) (r : RegName) (v inst i j : Nat) : (s.setReg r v inst i j).start = s.start := rfl
@[simp] theorem State.setReg_rsp (s : State) (r : RegName) (v inst i j : Nat) : (s.setReg r v inst i j).rsp = s.rsp := rfl
@[simp] theorem State.setReg_wire (s : State) (r : RegName) (v inst i j : Nat) : (s.setReg r v inst i j).wire = s.wire := rfl
@[simp] theorem State.setReg_free (s : State) (r : RegName) (v inst i j : Nat) : (s.setReg r v inst i j).free = s.free := rfl

/-! ### `State.setFld` -/

@[simp] theorem State.setFld_pending (s : State) (f : Fld) (v inst i j : Nat) : (s.setFld f v inst i j).pending = s.pending := rfl
@[simp] theorem State.setFld_now (s : State) (f : Fld) (v inst i j : Nat) : (s.setFld f v inst i j).now = s.now := rfl
@[simp] theorem State.setFld_time (s : State) (f : Fld) (v inst i j : Nat) : (s.setFld f v inst i j).time = s.time := rfl
@[simp] theorem State.setFld_links (s : State) (f : Fld) (v inst i j : Nat) : (s.setFld f v inst i j).links = s.links := rfl
@[simp] theorem State.setFld_hub (s : State) (f : Fld) (v inst i j : Nat) : (s.setFld f v inst i j).hub = s.hub := rfl
@[simp] theorem State.setFld_tl (s : State) (f : Fld) (v inst i j : Nat) : (s.setFld f v inst i j).tl = s.tl := rfl
@[simp] theorem State.setFld_intc (s : State) (f : Fld) (v inst i j : Nat) : (s.setFld f v inst i j).intc = s.intc := rfl
@[simp] theorem State.setFld_evr (s : State) (f : Fld) (v inst i j : Nat) : (s.setFld f v inst i j).evr = s.evr := rfl
@[simp] theorem State.setFld_pool (s : State) (f : Fld) (v inst i j : Nat) : (s.setFld f v inst i j).pool = s.pool := rfl
@[simp] theorem State.setFld_xlt (s : State) (f : Fld) (v inst i j : Nat) : (s.setFld f v inst i j).xlt = s.xlt := rfl
@[simp] theorem State.setFld_ord (s : State) (f : Fld) (v inst i j : Nat) : (s.setFld f v inst i j).ord = s.ord := rfl
@[simp] theorem State.setFld_ver (s : State) (f : Fld) (v inst i j : Nat) : (s.setFld f v inst i j).ver = s.ver := rfl
@[simp] theorem State.setFld_movers (s : State) (f : Fld) (v inst i j : Nat) : (s.setFld f v inst i j).movers = s.movers := rfl
@[simp] theorem State.setFld_coh (s : State) (f : Fld) (v inst i j : Nat) : (s.setFld f v inst i j).coh = s.coh := rfl
@[simp] theorem State.setFld_stks (s : State) (f : Fld) (v inst i j : Nat) : (s.setFld f v inst i j).stks = s.stks := rfl
@[simp] theorem State.setFld_stns (s : State) (f : Fld) (v inst i j : Nat) : (s.setFld f v inst i j).stns = s.stns := rfl
@[simp] theorem State.setFld_lm (s : State) (f : Fld) (v inst i j : Nat) : (s.setFld f v inst i j).lm = s.lm := rfl
@[simp] theorem State.setFld_sec (s : State) (f : Fld) (v inst i j : Nat) : (s.setFld f v inst i j).sec = s.sec := rfl
@[simp] theorem State.setFld_power (s : State) (f : Fld) (v inst i j : Nat) : (s.setFld f v inst i j).power = s.power := rfl
@[simp] theorem State.setFld_tdm (s : State) (f : Fld) (v inst i j : Nat) : (s.setFld f v inst i j).tdm = s.tdm := rfl
@[simp] theorem State.setFld_start (s : State) (f : Fld) (v inst i j : Nat) : (s.setFld f v inst i j).start = s.start := rfl
@[simp] theorem State.setFld_rsp (s : State) (f : Fld) (v inst i j : Nat) : (s.setFld f v inst i j).rsp = s.rsp := rfl
@[simp] theorem State.setFld_wire (s : State) (f : Fld) (v inst i j : Nat) : (s.setFld f v inst i j).wire = s.wire := rfl
@[simp] theorem State.setFld_free (s : State) (f : Fld) (v inst i j : Nat) : (s.setFld f v inst i j).free = s.free := rfl

/-! ### `State.count` -/

@[simp] theorem State.count_pending (s : State) (f : Fld) (n inst i j : Nat) : (s.count f n inst i j).pending = s.pending := rfl
@[simp] theorem State.count_now (s : State) (f : Fld) (n inst i j : Nat) : (s.count f n inst i j).now = s.now := rfl
@[simp] theorem State.count_time (s : State) (f : Fld) (n inst i j : Nat) : (s.count f n inst i j).time = s.time := rfl
@[simp] theorem State.count_links (s : State) (f : Fld) (n inst i j : Nat) : (s.count f n inst i j).links = s.links := rfl
@[simp] theorem State.count_hub (s : State) (f : Fld) (n inst i j : Nat) : (s.count f n inst i j).hub = s.hub := rfl
@[simp] theorem State.count_tl (s : State) (f : Fld) (n inst i j : Nat) : (s.count f n inst i j).tl = s.tl := rfl
@[simp] theorem State.count_intc (s : State) (f : Fld) (n inst i j : Nat) : (s.count f n inst i j).intc = s.intc := rfl
@[simp] theorem State.count_evr (s : State) (f : Fld) (n inst i j : Nat) : (s.count f n inst i j).evr = s.evr := rfl
@[simp] theorem State.count_pool (s : State) (f : Fld) (n inst i j : Nat) : (s.count f n inst i j).pool = s.pool := rfl
@[simp] theorem State.count_xlt (s : State) (f : Fld) (n inst i j : Nat) : (s.count f n inst i j).xlt = s.xlt := rfl
@[simp] theorem State.count_ord (s : State) (f : Fld) (n inst i j : Nat) : (s.count f n inst i j).ord = s.ord := rfl
@[simp] theorem State.count_ver (s : State) (f : Fld) (n inst i j : Nat) : (s.count f n inst i j).ver = s.ver := rfl
@[simp] theorem State.count_movers (s : State) (f : Fld) (n inst i j : Nat) : (s.count f n inst i j).movers = s.movers := rfl
@[simp] theorem State.count_coh (s : State) (f : Fld) (n inst i j : Nat) : (s.count f n inst i j).coh = s.coh := rfl
@[simp] theorem State.count_stks (s : State) (f : Fld) (n inst i j : Nat) : (s.count f n inst i j).stks = s.stks := rfl
@[simp] theorem State.count_stns (s : State) (f : Fld) (n inst i j : Nat) : (s.count f n inst i j).stns = s.stns := rfl
@[simp] theorem State.count_lm (s : State) (f : Fld) (n inst i j : Nat) : (s.count f n inst i j).lm = s.lm := rfl
@[simp] theorem State.count_sec (s : State) (f : Fld) (n inst i j : Nat) : (s.count f n inst i j).sec = s.sec := rfl
@[simp] theorem State.count_power (s : State) (f : Fld) (n inst i j : Nat) : (s.count f n inst i j).power = s.power := rfl
@[simp] theorem State.count_tdm (s : State) (f : Fld) (n inst i j : Nat) : (s.count f n inst i j).tdm = s.tdm := rfl
@[simp] theorem State.count_start (s : State) (f : Fld) (n inst i j : Nat) : (s.count f n inst i j).start = s.start := rfl
@[simp] theorem State.count_rsp (s : State) (f : Fld) (n inst i j : Nat) : (s.count f n inst i j).rsp = s.rsp := rfl
@[simp] theorem State.count_wire (s : State) (f : Fld) (n inst i j : Nat) : (s.count f n inst i j).wire = s.wire := rfl
@[simp] theorem State.count_free (s : State) (f : Fld) (n inst i j : Nat) : (s.count f n inst i j).free = s.free := rfl

/-! ### `State.bump` -/

@[simp] theorem State.bump_pending (s : State) (f : Fld) (n inst i j : Nat) : (s.bump f n inst i j).pending = s.pending := rfl
@[simp] theorem State.bump_now (s : State) (f : Fld) (n inst i j : Nat) : (s.bump f n inst i j).now = s.now := rfl
@[simp] theorem State.bump_time (s : State) (f : Fld) (n inst i j : Nat) : (s.bump f n inst i j).time = s.time := rfl
@[simp] theorem State.bump_links (s : State) (f : Fld) (n inst i j : Nat) : (s.bump f n inst i j).links = s.links := rfl
@[simp] theorem State.bump_hub (s : State) (f : Fld) (n inst i j : Nat) : (s.bump f n inst i j).hub = s.hub := rfl
@[simp] theorem State.bump_tl (s : State) (f : Fld) (n inst i j : Nat) : (s.bump f n inst i j).tl = s.tl := rfl
@[simp] theorem State.bump_intc (s : State) (f : Fld) (n inst i j : Nat) : (s.bump f n inst i j).intc = s.intc := rfl
@[simp] theorem State.bump_evr (s : State) (f : Fld) (n inst i j : Nat) : (s.bump f n inst i j).evr = s.evr := rfl
@[simp] theorem State.bump_pool (s : State) (f : Fld) (n inst i j : Nat) : (s.bump f n inst i j).pool = s.pool := rfl
@[simp] theorem State.bump_xlt (s : State) (f : Fld) (n inst i j : Nat) : (s.bump f n inst i j).xlt = s.xlt := rfl
@[simp] theorem State.bump_ord (s : State) (f : Fld) (n inst i j : Nat) : (s.bump f n inst i j).ord = s.ord := rfl
@[simp] theorem State.bump_ver (s : State) (f : Fld) (n inst i j : Nat) : (s.bump f n inst i j).ver = s.ver := rfl
@[simp] theorem State.bump_movers (s : State) (f : Fld) (n inst i j : Nat) : (s.bump f n inst i j).movers = s.movers := rfl
@[simp] theorem State.bump_coh (s : State) (f : Fld) (n inst i j : Nat) : (s.bump f n inst i j).coh = s.coh := rfl
@[simp] theorem State.bump_stks (s : State) (f : Fld) (n inst i j : Nat) : (s.bump f n inst i j).stks = s.stks := rfl
@[simp] theorem State.bump_stns (s : State) (f : Fld) (n inst i j : Nat) : (s.bump f n inst i j).stns = s.stns := rfl
@[simp] theorem State.bump_lm (s : State) (f : Fld) (n inst i j : Nat) : (s.bump f n inst i j).lm = s.lm := rfl
@[simp] theorem State.bump_sec (s : State) (f : Fld) (n inst i j : Nat) : (s.bump f n inst i j).sec = s.sec := rfl
@[simp] theorem State.bump_power (s : State) (f : Fld) (n inst i j : Nat) : (s.bump f n inst i j).power = s.power := rfl
@[simp] theorem State.bump_tdm (s : State) (f : Fld) (n inst i j : Nat) : (s.bump f n inst i j).tdm = s.tdm := rfl
@[simp] theorem State.bump_start (s : State) (f : Fld) (n inst i j : Nat) : (s.bump f n inst i j).start = s.start := rfl
@[simp] theorem State.bump_rsp (s : State) (f : Fld) (n inst i j : Nat) : (s.bump f n inst i j).rsp = s.rsp := rfl
@[simp] theorem State.bump_wire (s : State) (f : Fld) (n inst i j : Nat) : (s.bump f n inst i j).wire = s.wire := rfl
@[simp] theorem State.bump_free (s : State) (f : Fld) (n inst i j : Nat) : (s.bump f n inst i j).free = s.free := rfl

/-! ### `State.setLink` -/

@[simp] theorem State.setLink_pending (s : State) (p : Nat) (l : Link) : (s.setLink p l).pending = s.pending := rfl
@[simp] theorem State.setLink_regs (s : State) (p : Nat) (l : Link) : (s.setLink p l).regs = s.regs := rfl
@[simp] theorem State.setLink_now (s : State) (p : Nat) (l : Link) : (s.setLink p l).now = s.now := rfl
@[simp] theorem State.setLink_time (s : State) (p : Nat) (l : Link) : (s.setLink p l).time = s.time := rfl
@[simp] theorem State.setLink_hub (s : State) (p : Nat) (l : Link) : (s.setLink p l).hub = s.hub := rfl
@[simp] theorem State.setLink_tl (s : State) (p : Nat) (l : Link) : (s.setLink p l).tl = s.tl := rfl
@[simp] theorem State.setLink_intc (s : State) (p : Nat) (l : Link) : (s.setLink p l).intc = s.intc := rfl
@[simp] theorem State.setLink_evr (s : State) (p : Nat) (l : Link) : (s.setLink p l).evr = s.evr := rfl
@[simp] theorem State.setLink_pool (s : State) (p : Nat) (l : Link) : (s.setLink p l).pool = s.pool := rfl
@[simp] theorem State.setLink_xlt (s : State) (p : Nat) (l : Link) : (s.setLink p l).xlt = s.xlt := rfl
@[simp] theorem State.setLink_ord (s : State) (p : Nat) (l : Link) : (s.setLink p l).ord = s.ord := rfl
@[simp] theorem State.setLink_ver (s : State) (p : Nat) (l : Link) : (s.setLink p l).ver = s.ver := rfl
@[simp] theorem State.setLink_movers (s : State) (p : Nat) (l : Link) : (s.setLink p l).movers = s.movers := rfl
@[simp] theorem State.setLink_coh (s : State) (p : Nat) (l : Link) : (s.setLink p l).coh = s.coh := rfl
@[simp] theorem State.setLink_stks (s : State) (p : Nat) (l : Link) : (s.setLink p l).stks = s.stks := rfl
@[simp] theorem State.setLink_stns (s : State) (p : Nat) (l : Link) : (s.setLink p l).stns = s.stns := rfl
@[simp] theorem State.setLink_lm (s : State) (p : Nat) (l : Link) : (s.setLink p l).lm = s.lm := rfl
@[simp] theorem State.setLink_sec (s : State) (p : Nat) (l : Link) : (s.setLink p l).sec = s.sec := rfl
@[simp] theorem State.setLink_power (s : State) (p : Nat) (l : Link) : (s.setLink p l).power = s.power := rfl
@[simp] theorem State.setLink_tdm (s : State) (p : Nat) (l : Link) : (s.setLink p l).tdm = s.tdm := rfl
@[simp] theorem State.setLink_start (s : State) (p : Nat) (l : Link) : (s.setLink p l).start = s.start := rfl
@[simp] theorem State.setLink_rsp (s : State) (p : Nat) (l : Link) : (s.setLink p l).rsp = s.rsp := rfl
@[simp] theorem State.setLink_wire (s : State) (p : Nat) (l : Link) : (s.setLink p l).wire = s.wire := rfl
@[simp] theorem State.setLink_free (s : State) (p : Nat) (l : Link) : (s.setLink p l).free = s.free := rfl

/-! ### `State.setHub` -/

@[simp] theorem State.setHub_pending (s : State) (x : Hub) : (s.setHub x).pending = s.pending := rfl
@[simp] theorem State.setHub_regs (s : State) (x : Hub) : (s.setHub x).regs = s.regs := rfl
@[simp] theorem State.setHub_now (s : State) (x : Hub) : (s.setHub x).now = s.now := rfl
@[simp] theorem State.setHub_time (s : State) (x : Hub) : (s.setHub x).time = s.time := rfl
@[simp] theorem State.setHub_links (s : State) (x : Hub) : (s.setHub x).links = s.links := rfl
@[simp] theorem State.setHub_tl (s : State) (x : Hub) : (s.setHub x).tl = s.tl := rfl
@[simp] theorem State.setHub_intc (s : State) (x : Hub) : (s.setHub x).intc = s.intc := rfl
@[simp] theorem State.setHub_evr (s : State) (x : Hub) : (s.setHub x).evr = s.evr := rfl
@[simp] theorem State.setHub_pool (s : State) (x : Hub) : (s.setHub x).pool = s.pool := rfl
@[simp] theorem State.setHub_xlt (s : State) (x : Hub) : (s.setHub x).xlt = s.xlt := rfl
@[simp] theorem State.setHub_ord (s : State) (x : Hub) : (s.setHub x).ord = s.ord := rfl
@[simp] theorem State.setHub_ver (s : State) (x : Hub) : (s.setHub x).ver = s.ver := rfl
@[simp] theorem State.setHub_movers (s : State) (x : Hub) : (s.setHub x).movers = s.movers := rfl
@[simp] theorem State.setHub_coh (s : State) (x : Hub) : (s.setHub x).coh = s.coh := rfl
@[simp] theorem State.setHub_stks (s : State) (x : Hub) : (s.setHub x).stks = s.stks := rfl
@[simp] theorem State.setHub_stns (s : State) (x : Hub) : (s.setHub x).stns = s.stns := rfl
@[simp] theorem State.setHub_lm (s : State) (x : Hub) : (s.setHub x).lm = s.lm := rfl
@[simp] theorem State.setHub_sec (s : State) (x : Hub) : (s.setHub x).sec = s.sec := rfl
@[simp] theorem State.setHub_power (s : State) (x : Hub) : (s.setHub x).power = s.power := rfl
@[simp] theorem State.setHub_tdm (s : State) (x : Hub) : (s.setHub x).tdm = s.tdm := rfl
@[simp] theorem State.setHub_start (s : State) (x : Hub) : (s.setHub x).start = s.start := rfl
@[simp] theorem State.setHub_rsp (s : State) (x : Hub) : (s.setHub x).rsp = s.rsp := rfl
@[simp] theorem State.setHub_wire (s : State) (x : Hub) : (s.setHub x).wire = s.wire := rfl
@[simp] theorem State.setHub_free (s : State) (x : Hub) : (s.setHub x).free = s.free := rfl
@[simp] theorem State.setHub_hub (s : State) (x : Hub) : (s.setHub x).hub = x := rfl

/-! ### `State.setTl` -/

@[simp] theorem State.setTl_pending (s : State) (x : Tl) : (s.setTl x).pending = s.pending := rfl
@[simp] theorem State.setTl_regs (s : State) (x : Tl) : (s.setTl x).regs = s.regs := rfl
@[simp] theorem State.setTl_now (s : State) (x : Tl) : (s.setTl x).now = s.now := rfl
@[simp] theorem State.setTl_time (s : State) (x : Tl) : (s.setTl x).time = s.time := rfl
@[simp] theorem State.setTl_links (s : State) (x : Tl) : (s.setTl x).links = s.links := rfl
@[simp] theorem State.setTl_hub (s : State) (x : Tl) : (s.setTl x).hub = s.hub := rfl
@[simp] theorem State.setTl_intc (s : State) (x : Tl) : (s.setTl x).intc = s.intc := rfl
@[simp] theorem State.setTl_evr (s : State) (x : Tl) : (s.setTl x).evr = s.evr := rfl
@[simp] theorem State.setTl_pool (s : State) (x : Tl) : (s.setTl x).pool = s.pool := rfl
@[simp] theorem State.setTl_xlt (s : State) (x : Tl) : (s.setTl x).xlt = s.xlt := rfl
@[simp] theorem State.setTl_ord (s : State) (x : Tl) : (s.setTl x).ord = s.ord := rfl
@[simp] theorem State.setTl_ver (s : State) (x : Tl) : (s.setTl x).ver = s.ver := rfl
@[simp] theorem State.setTl_movers (s : State) (x : Tl) : (s.setTl x).movers = s.movers := rfl
@[simp] theorem State.setTl_coh (s : State) (x : Tl) : (s.setTl x).coh = s.coh := rfl
@[simp] theorem State.setTl_stks (s : State) (x : Tl) : (s.setTl x).stks = s.stks := rfl
@[simp] theorem State.setTl_stns (s : State) (x : Tl) : (s.setTl x).stns = s.stns := rfl
@[simp] theorem State.setTl_lm (s : State) (x : Tl) : (s.setTl x).lm = s.lm := rfl
@[simp] theorem State.setTl_sec (s : State) (x : Tl) : (s.setTl x).sec = s.sec := rfl
@[simp] theorem State.setTl_power (s : State) (x : Tl) : (s.setTl x).power = s.power := rfl
@[simp] theorem State.setTl_tdm (s : State) (x : Tl) : (s.setTl x).tdm = s.tdm := rfl
@[simp] theorem State.setTl_start (s : State) (x : Tl) : (s.setTl x).start = s.start := rfl
@[simp] theorem State.setTl_rsp (s : State) (x : Tl) : (s.setTl x).rsp = s.rsp := rfl
@[simp] theorem State.setTl_wire (s : State) (x : Tl) : (s.setTl x).wire = s.wire := rfl
@[simp] theorem State.setTl_free (s : State) (x : Tl) : (s.setTl x).free = s.free := rfl
@[simp] theorem State.setTl_tl (s : State) (x : Tl) : (s.setTl x).tl = x := rfl

/-! ### `State.queueMsg` -/

@[simp] theorem State.queueMsg_pending (s : State) (m : HostMsg) : (s.queueMsg m).pending = s.pending := rfl
@[simp] theorem State.queueMsg_regs (s : State) (m : HostMsg) : (s.queueMsg m).regs = s.regs := rfl
@[simp] theorem State.queueMsg_now (s : State) (m : HostMsg) : (s.queueMsg m).now = s.now := rfl
@[simp] theorem State.queueMsg_time (s : State) (m : HostMsg) : (s.queueMsg m).time = s.time := rfl
@[simp] theorem State.queueMsg_links (s : State) (m : HostMsg) : (s.queueMsg m).links = s.links := rfl
@[simp] theorem State.queueMsg_hub (s : State) (m : HostMsg) : (s.queueMsg m).hub = s.hub := rfl
@[simp] theorem State.queueMsg_intc (s : State) (m : HostMsg) : (s.queueMsg m).intc = s.intc := rfl
@[simp] theorem State.queueMsg_evr (s : State) (m : HostMsg) : (s.queueMsg m).evr = s.evr := rfl
@[simp] theorem State.queueMsg_pool (s : State) (m : HostMsg) : (s.queueMsg m).pool = s.pool := rfl
@[simp] theorem State.queueMsg_xlt (s : State) (m : HostMsg) : (s.queueMsg m).xlt = s.xlt := rfl
@[simp] theorem State.queueMsg_ord (s : State) (m : HostMsg) : (s.queueMsg m).ord = s.ord := rfl
@[simp] theorem State.queueMsg_ver (s : State) (m : HostMsg) : (s.queueMsg m).ver = s.ver := rfl
@[simp] theorem State.queueMsg_movers (s : State) (m : HostMsg) : (s.queueMsg m).movers = s.movers := rfl
@[simp] theorem State.queueMsg_coh (s : State) (m : HostMsg) : (s.queueMsg m).coh = s.coh := rfl
@[simp] theorem State.queueMsg_stks (s : State) (m : HostMsg) : (s.queueMsg m).stks = s.stks := rfl
@[simp] theorem State.queueMsg_stns (s : State) (m : HostMsg) : (s.queueMsg m).stns = s.stns := rfl
@[simp] theorem State.queueMsg_lm (s : State) (m : HostMsg) : (s.queueMsg m).lm = s.lm := rfl
@[simp] theorem State.queueMsg_sec (s : State) (m : HostMsg) : (s.queueMsg m).sec = s.sec := rfl
@[simp] theorem State.queueMsg_power (s : State) (m : HostMsg) : (s.queueMsg m).power = s.power := rfl
@[simp] theorem State.queueMsg_tdm (s : State) (m : HostMsg) : (s.queueMsg m).tdm = s.tdm := rfl
@[simp] theorem State.queueMsg_start (s : State) (m : HostMsg) : (s.queueMsg m).start = s.start := rfl
@[simp] theorem State.queueMsg_rsp (s : State) (m : HostMsg) : (s.queueMsg m).rsp = s.rsp := rfl
@[simp] theorem State.queueMsg_wire (s : State) (m : HostMsg) : (s.queueMsg m).wire = s.wire := rfl
@[simp] theorem State.queueMsg_free (s : State) (m : HostMsg) : (s.queueMsg m).free = s.free := rfl

/-! ### `State.setIntc` -/

@[simp] theorem State.setIntc_pending (s : State) (x : Intc) : (s.setIntc x).pending = s.pending := rfl
@[simp] theorem State.setIntc_regs (s : State) (x : Intc) : (s.setIntc x).regs = s.regs := rfl
@[simp] theorem State.setIntc_now (s : State) (x : Intc) : (s.setIntc x).now = s.now := rfl
@[simp] theorem State.setIntc_time (s : State) (x : Intc) : (s.setIntc x).time = s.time := rfl
@[simp] theorem State.setIntc_links (s : State) (x : Intc) : (s.setIntc x).links = s.links := rfl
@[simp] theorem State.setIntc_hub (s : State) (x : Intc) : (s.setIntc x).hub = s.hub := rfl
@[simp] theorem State.setIntc_tl (s : State) (x : Intc) : (s.setIntc x).tl = s.tl := rfl
@[simp] theorem State.setIntc_evr (s : State) (x : Intc) : (s.setIntc x).evr = s.evr := rfl
@[simp] theorem State.setIntc_pool (s : State) (x : Intc) : (s.setIntc x).pool = s.pool := rfl
@[simp] theorem State.setIntc_xlt (s : State) (x : Intc) : (s.setIntc x).xlt = s.xlt := rfl
@[simp] theorem State.setIntc_ord (s : State) (x : Intc) : (s.setIntc x).ord = s.ord := rfl
@[simp] theorem State.setIntc_ver (s : State) (x : Intc) : (s.setIntc x).ver = s.ver := rfl
@[simp] theorem State.setIntc_movers (s : State) (x : Intc) : (s.setIntc x).movers = s.movers := rfl
@[simp] theorem State.setIntc_coh (s : State) (x : Intc) : (s.setIntc x).coh = s.coh := rfl
@[simp] theorem State.setIntc_stks (s : State) (x : Intc) : (s.setIntc x).stks = s.stks := rfl
@[simp] theorem State.setIntc_stns (s : State) (x : Intc) : (s.setIntc x).stns = s.stns := rfl
@[simp] theorem State.setIntc_lm (s : State) (x : Intc) : (s.setIntc x).lm = s.lm := rfl
@[simp] theorem State.setIntc_sec (s : State) (x : Intc) : (s.setIntc x).sec = s.sec := rfl
@[simp] theorem State.setIntc_power (s : State) (x : Intc) : (s.setIntc x).power = s.power := rfl
@[simp] theorem State.setIntc_tdm (s : State) (x : Intc) : (s.setIntc x).tdm = s.tdm := rfl
@[simp] theorem State.setIntc_start (s : State) (x : Intc) : (s.setIntc x).start = s.start := rfl
@[simp] theorem State.setIntc_rsp (s : State) (x : Intc) : (s.setIntc x).rsp = s.rsp := rfl
@[simp] theorem State.setIntc_wire (s : State) (x : Intc) : (s.setIntc x).wire = s.wire := rfl
@[simp] theorem State.setIntc_free (s : State) (x : Intc) : (s.setIntc x).free = s.free := rfl
@[simp] theorem State.setIntc_intc (s : State) (x : Intc) : (s.setIntc x).intc = x := rfl

/-! ### `State.setEvr` -/

@[simp] theorem State.setEvr_pending (s : State) (x : Evr) : (s.setEvr x).pending = s.pending := rfl
@[simp] theorem State.setEvr_regs (s : State) (x : Evr) : (s.setEvr x).regs = s.regs := rfl
@[simp] theorem State.setEvr_now (s : State) (x : Evr) : (s.setEvr x).now = s.now := rfl
@[simp] theorem State.setEvr_time (s : State) (x : Evr) : (s.setEvr x).time = s.time := rfl
@[simp] theorem State.setEvr_links (s : State) (x : Evr) : (s.setEvr x).links = s.links := rfl
@[simp] theorem State.setEvr_hub (s : State) (x : Evr) : (s.setEvr x).hub = s.hub := rfl
@[simp] theorem State.setEvr_tl (s : State) (x : Evr) : (s.setEvr x).tl = s.tl := rfl
@[simp] theorem State.setEvr_intc (s : State) (x : Evr) : (s.setEvr x).intc = s.intc := rfl
@[simp] theorem State.setEvr_pool (s : State) (x : Evr) : (s.setEvr x).pool = s.pool := rfl
@[simp] theorem State.setEvr_xlt (s : State) (x : Evr) : (s.setEvr x).xlt = s.xlt := rfl
@[simp] theorem State.setEvr_ord (s : State) (x : Evr) : (s.setEvr x).ord = s.ord := rfl
@[simp] theorem State.setEvr_ver (s : State) (x : Evr) : (s.setEvr x).ver = s.ver := rfl
@[simp] theorem State.setEvr_movers (s : State) (x : Evr) : (s.setEvr x).movers = s.movers := rfl
@[simp] theorem State.setEvr_coh (s : State) (x : Evr) : (s.setEvr x).coh = s.coh := rfl
@[simp] theorem State.setEvr_stks (s : State) (x : Evr) : (s.setEvr x).stks = s.stks := rfl
@[simp] theorem State.setEvr_stns (s : State) (x : Evr) : (s.setEvr x).stns = s.stns := rfl
@[simp] theorem State.setEvr_lm (s : State) (x : Evr) : (s.setEvr x).lm = s.lm := rfl
@[simp] theorem State.setEvr_sec (s : State) (x : Evr) : (s.setEvr x).sec = s.sec := rfl
@[simp] theorem State.setEvr_power (s : State) (x : Evr) : (s.setEvr x).power = s.power := rfl
@[simp] theorem State.setEvr_tdm (s : State) (x : Evr) : (s.setEvr x).tdm = s.tdm := rfl
@[simp] theorem State.setEvr_start (s : State) (x : Evr) : (s.setEvr x).start = s.start := rfl
@[simp] theorem State.setEvr_rsp (s : State) (x : Evr) : (s.setEvr x).rsp = s.rsp := rfl
@[simp] theorem State.setEvr_wire (s : State) (x : Evr) : (s.setEvr x).wire = s.wire := rfl
@[simp] theorem State.setEvr_free (s : State) (x : Evr) : (s.setEvr x).free = s.free := rfl
@[simp] theorem State.setEvr_evr (s : State) (x : Evr) : (s.setEvr x).evr = x := rfl

/-! ### `State.setPool` -/

@[simp] theorem State.setPool_pending (s : State) (x : Pool) : (s.setPool x).pending = s.pending := rfl
@[simp] theorem State.setPool_regs (s : State) (x : Pool) : (s.setPool x).regs = s.regs := rfl
@[simp] theorem State.setPool_now (s : State) (x : Pool) : (s.setPool x).now = s.now := rfl
@[simp] theorem State.setPool_time (s : State) (x : Pool) : (s.setPool x).time = s.time := rfl
@[simp] theorem State.setPool_links (s : State) (x : Pool) : (s.setPool x).links = s.links := rfl
@[simp] theorem State.setPool_hub (s : State) (x : Pool) : (s.setPool x).hub = s.hub := rfl
@[simp] theorem State.setPool_tl (s : State) (x : Pool) : (s.setPool x).tl = s.tl := rfl
@[simp] theorem State.setPool_intc (s : State) (x : Pool) : (s.setPool x).intc = s.intc := rfl
@[simp] theorem State.setPool_evr (s : State) (x : Pool) : (s.setPool x).evr = s.evr := rfl
@[simp] theorem State.setPool_xlt (s : State) (x : Pool) : (s.setPool x).xlt = s.xlt := rfl
@[simp] theorem State.setPool_ord (s : State) (x : Pool) : (s.setPool x).ord = s.ord := rfl
@[simp] theorem State.setPool_ver (s : State) (x : Pool) : (s.setPool x).ver = s.ver := rfl
@[simp] theorem State.setPool_movers (s : State) (x : Pool) : (s.setPool x).movers = s.movers := rfl
@[simp] theorem State.setPool_coh (s : State) (x : Pool) : (s.setPool x).coh = s.coh := rfl
@[simp] theorem State.setPool_stks (s : State) (x : Pool) : (s.setPool x).stks = s.stks := rfl
@[simp] theorem State.setPool_stns (s : State) (x : Pool) : (s.setPool x).stns = s.stns := rfl
@[simp] theorem State.setPool_lm (s : State) (x : Pool) : (s.setPool x).lm = s.lm := rfl
@[simp] theorem State.setPool_sec (s : State) (x : Pool) : (s.setPool x).sec = s.sec := rfl
@[simp] theorem State.setPool_power (s : State) (x : Pool) : (s.setPool x).power = s.power := rfl
@[simp] theorem State.setPool_tdm (s : State) (x : Pool) : (s.setPool x).tdm = s.tdm := rfl
@[simp] theorem State.setPool_start (s : State) (x : Pool) : (s.setPool x).start = s.start := rfl
@[simp] theorem State.setPool_rsp (s : State) (x : Pool) : (s.setPool x).rsp = s.rsp := rfl
@[simp] theorem State.setPool_wire (s : State) (x : Pool) : (s.setPool x).wire = s.wire := rfl
@[simp] theorem State.setPool_free (s : State) (x : Pool) : (s.setPool x).free = s.free := rfl
@[simp] theorem State.setPool_pool (s : State) (x : Pool) : (s.setPool x).pool = x := rfl

/-! ### `State.writePool` -/

@[simp] theorem State.writePool_pending (s : State) (frame byte : Nat) (bs : List (BitVec 8)) : (s.writePool frame byte bs).pending = s.pending := rfl
@[simp] theorem State.writePool_regs (s : State) (frame byte : Nat) (bs : List (BitVec 8)) : (s.writePool frame byte bs).regs = s.regs := rfl
@[simp] theorem State.writePool_now (s : State) (frame byte : Nat) (bs : List (BitVec 8)) : (s.writePool frame byte bs).now = s.now := rfl
@[simp] theorem State.writePool_time (s : State) (frame byte : Nat) (bs : List (BitVec 8)) : (s.writePool frame byte bs).time = s.time := rfl
@[simp] theorem State.writePool_links (s : State) (frame byte : Nat) (bs : List (BitVec 8)) : (s.writePool frame byte bs).links = s.links := rfl
@[simp] theorem State.writePool_hub (s : State) (frame byte : Nat) (bs : List (BitVec 8)) : (s.writePool frame byte bs).hub = s.hub := rfl
@[simp] theorem State.writePool_tl (s : State) (frame byte : Nat) (bs : List (BitVec 8)) : (s.writePool frame byte bs).tl = s.tl := rfl
@[simp] theorem State.writePool_intc (s : State) (frame byte : Nat) (bs : List (BitVec 8)) : (s.writePool frame byte bs).intc = s.intc := rfl
@[simp] theorem State.writePool_evr (s : State) (frame byte : Nat) (bs : List (BitVec 8)) : (s.writePool frame byte bs).evr = s.evr := rfl
@[simp] theorem State.writePool_xlt (s : State) (frame byte : Nat) (bs : List (BitVec 8)) : (s.writePool frame byte bs).xlt = s.xlt := rfl
@[simp] theorem State.writePool_ord (s : State) (frame byte : Nat) (bs : List (BitVec 8)) : (s.writePool frame byte bs).ord = s.ord := rfl
@[simp] theorem State.writePool_ver (s : State) (frame byte : Nat) (bs : List (BitVec 8)) : (s.writePool frame byte bs).ver = s.ver := rfl
@[simp] theorem State.writePool_movers (s : State) (frame byte : Nat) (bs : List (BitVec 8)) : (s.writePool frame byte bs).movers = s.movers := rfl
@[simp] theorem State.writePool_coh (s : State) (frame byte : Nat) (bs : List (BitVec 8)) : (s.writePool frame byte bs).coh = s.coh := rfl
@[simp] theorem State.writePool_stks (s : State) (frame byte : Nat) (bs : List (BitVec 8)) : (s.writePool frame byte bs).stks = s.stks := rfl
@[simp] theorem State.writePool_stns (s : State) (frame byte : Nat) (bs : List (BitVec 8)) : (s.writePool frame byte bs).stns = s.stns := rfl
@[simp] theorem State.writePool_lm (s : State) (frame byte : Nat) (bs : List (BitVec 8)) : (s.writePool frame byte bs).lm = s.lm := rfl
@[simp] theorem State.writePool_sec (s : State) (frame byte : Nat) (bs : List (BitVec 8)) : (s.writePool frame byte bs).sec = s.sec := rfl
@[simp] theorem State.writePool_power (s : State) (frame byte : Nat) (bs : List (BitVec 8)) : (s.writePool frame byte bs).power = s.power := rfl
@[simp] theorem State.writePool_tdm (s : State) (frame byte : Nat) (bs : List (BitVec 8)) : (s.writePool frame byte bs).tdm = s.tdm := rfl
@[simp] theorem State.writePool_start (s : State) (frame byte : Nat) (bs : List (BitVec 8)) : (s.writePool frame byte bs).start = s.start := rfl
@[simp] theorem State.writePool_rsp (s : State) (frame byte : Nat) (bs : List (BitVec 8)) : (s.writePool frame byte bs).rsp = s.rsp := rfl
@[simp] theorem State.writePool_wire (s : State) (frame byte : Nat) (bs : List (BitVec 8)) : (s.writePool frame byte bs).wire = s.wire := rfl
@[simp] theorem State.writePool_free (s : State) (frame byte : Nat) (bs : List (BitVec 8)) : (s.writePool frame byte bs).free = s.free := rfl

/-! ### `State.setOrd` -/

@[simp] theorem State.setOrd_pending (s : State) (x : Ord) : (s.setOrd x).pending = s.pending := rfl
@[simp] theorem State.setOrd_regs (s : State) (x : Ord) : (s.setOrd x).regs = s.regs := rfl
@[simp] theorem State.setOrd_now (s : State) (x : Ord) : (s.setOrd x).now = s.now := rfl
@[simp] theorem State.setOrd_time (s : State) (x : Ord) : (s.setOrd x).time = s.time := rfl
@[simp] theorem State.setOrd_links (s : State) (x : Ord) : (s.setOrd x).links = s.links := rfl
@[simp] theorem State.setOrd_hub (s : State) (x : Ord) : (s.setOrd x).hub = s.hub := rfl
@[simp] theorem State.setOrd_tl (s : State) (x : Ord) : (s.setOrd x).tl = s.tl := rfl
@[simp] theorem State.setOrd_intc (s : State) (x : Ord) : (s.setOrd x).intc = s.intc := rfl
@[simp] theorem State.setOrd_evr (s : State) (x : Ord) : (s.setOrd x).evr = s.evr := rfl
@[simp] theorem State.setOrd_pool (s : State) (x : Ord) : (s.setOrd x).pool = s.pool := rfl
@[simp] theorem State.setOrd_xlt (s : State) (x : Ord) : (s.setOrd x).xlt = s.xlt := rfl
@[simp] theorem State.setOrd_ver (s : State) (x : Ord) : (s.setOrd x).ver = s.ver := rfl
@[simp] theorem State.setOrd_movers (s : State) (x : Ord) : (s.setOrd x).movers = s.movers := rfl
@[simp] theorem State.setOrd_coh (s : State) (x : Ord) : (s.setOrd x).coh = s.coh := rfl
@[simp] theorem State.setOrd_stks (s : State) (x : Ord) : (s.setOrd x).stks = s.stks := rfl
@[simp] theorem State.setOrd_stns (s : State) (x : Ord) : (s.setOrd x).stns = s.stns := rfl
@[simp] theorem State.setOrd_lm (s : State) (x : Ord) : (s.setOrd x).lm = s.lm := rfl
@[simp] theorem State.setOrd_sec (s : State) (x : Ord) : (s.setOrd x).sec = s.sec := rfl
@[simp] theorem State.setOrd_power (s : State) (x : Ord) : (s.setOrd x).power = s.power := rfl
@[simp] theorem State.setOrd_tdm (s : State) (x : Ord) : (s.setOrd x).tdm = s.tdm := rfl
@[simp] theorem State.setOrd_start (s : State) (x : Ord) : (s.setOrd x).start = s.start := rfl
@[simp] theorem State.setOrd_rsp (s : State) (x : Ord) : (s.setOrd x).rsp = s.rsp := rfl
@[simp] theorem State.setOrd_wire (s : State) (x : Ord) : (s.setOrd x).wire = s.wire := rfl
@[simp] theorem State.setOrd_free (s : State) (x : Ord) : (s.setOrd x).free = s.free := rfl
@[simp] theorem State.setOrd_ord (s : State) (x : Ord) : (s.setOrd x).ord = x := rfl

/-! ### `State.setRegion` -/

@[simp] theorem State.setRegion_pending (s : State) (r : Nat) (x : RegionSt) : (s.setRegion r x).pending = s.pending := rfl
@[simp] theorem State.setRegion_regs (s : State) (r : Nat) (x : RegionSt) : (s.setRegion r x).regs = s.regs := rfl
@[simp] theorem State.setRegion_now (s : State) (r : Nat) (x : RegionSt) : (s.setRegion r x).now = s.now := rfl
@[simp] theorem State.setRegion_time (s : State) (r : Nat) (x : RegionSt) : (s.setRegion r x).time = s.time := rfl
@[simp] theorem State.setRegion_links (s : State) (r : Nat) (x : RegionSt) : (s.setRegion r x).links = s.links := rfl
@[simp] theorem State.setRegion_hub (s : State) (r : Nat) (x : RegionSt) : (s.setRegion r x).hub = s.hub := rfl
@[simp] theorem State.setRegion_tl (s : State) (r : Nat) (x : RegionSt) : (s.setRegion r x).tl = s.tl := rfl
@[simp] theorem State.setRegion_intc (s : State) (r : Nat) (x : RegionSt) : (s.setRegion r x).intc = s.intc := rfl
@[simp] theorem State.setRegion_evr (s : State) (r : Nat) (x : RegionSt) : (s.setRegion r x).evr = s.evr := rfl
@[simp] theorem State.setRegion_pool (s : State) (r : Nat) (x : RegionSt) : (s.setRegion r x).pool = s.pool := rfl
@[simp] theorem State.setRegion_xlt (s : State) (r : Nat) (x : RegionSt) : (s.setRegion r x).xlt = s.xlt := rfl
@[simp] theorem State.setRegion_ord (s : State) (r : Nat) (x : RegionSt) : (s.setRegion r x).ord = s.ord := rfl
@[simp] theorem State.setRegion_movers (s : State) (r : Nat) (x : RegionSt) : (s.setRegion r x).movers = s.movers := rfl
@[simp] theorem State.setRegion_coh (s : State) (r : Nat) (x : RegionSt) : (s.setRegion r x).coh = s.coh := rfl
@[simp] theorem State.setRegion_stks (s : State) (r : Nat) (x : RegionSt) : (s.setRegion r x).stks = s.stks := rfl
@[simp] theorem State.setRegion_stns (s : State) (r : Nat) (x : RegionSt) : (s.setRegion r x).stns = s.stns := rfl
@[simp] theorem State.setRegion_lm (s : State) (r : Nat) (x : RegionSt) : (s.setRegion r x).lm = s.lm := rfl
@[simp] theorem State.setRegion_sec (s : State) (r : Nat) (x : RegionSt) : (s.setRegion r x).sec = s.sec := rfl
@[simp] theorem State.setRegion_power (s : State) (r : Nat) (x : RegionSt) : (s.setRegion r x).power = s.power := rfl
@[simp] theorem State.setRegion_tdm (s : State) (r : Nat) (x : RegionSt) : (s.setRegion r x).tdm = s.tdm := rfl
@[simp] theorem State.setRegion_start (s : State) (r : Nat) (x : RegionSt) : (s.setRegion r x).start = s.start := rfl
@[simp] theorem State.setRegion_rsp (s : State) (r : Nat) (x : RegionSt) : (s.setRegion r x).rsp = s.rsp := rfl
@[simp] theorem State.setRegion_wire (s : State) (r : Nat) (x : RegionSt) : (s.setRegion r x).wire = s.wire := rfl
@[simp] theorem State.setRegion_free (s : State) (r : Nat) (x : RegionSt) : (s.setRegion r x).free = s.free := rfl

/-! ### `State.setMover` -/

@[simp] theorem State.setMover_pending (s : State) (q k : Nat) (m : Mover) : (s.setMover q k m).pending = s.pending := rfl
@[simp] theorem State.setMover_regs (s : State) (q k : Nat) (m : Mover) : (s.setMover q k m).regs = s.regs := rfl
@[simp] theorem State.setMover_now (s : State) (q k : Nat) (m : Mover) : (s.setMover q k m).now = s.now := rfl
@[simp] theorem State.setMover_time (s : State) (q k : Nat) (m : Mover) : (s.setMover q k m).time = s.time := rfl
@[simp] theorem State.setMover_links (s : State) (q k : Nat) (m : Mover) : (s.setMover q k m).links = s.links := rfl
@[simp] theorem State.setMover_hub (s : State) (q k : Nat) (m : Mover) : (s.setMover q k m).hub = s.hub := rfl
@[simp] theorem State.setMover_tl (s : State) (q k : Nat) (m : Mover) : (s.setMover q k m).tl = s.tl := rfl
@[simp] theorem State.setMover_intc (s : State) (q k : Nat) (m : Mover) : (s.setMover q k m).intc = s.intc := rfl
@[simp] theorem State.setMover_evr (s : State) (q k : Nat) (m : Mover) : (s.setMover q k m).evr = s.evr := rfl
@[simp] theorem State.setMover_pool (s : State) (q k : Nat) (m : Mover) : (s.setMover q k m).pool = s.pool := rfl
@[simp] theorem State.setMover_xlt (s : State) (q k : Nat) (m : Mover) : (s.setMover q k m).xlt = s.xlt := rfl
@[simp] theorem State.setMover_ord (s : State) (q k : Nat) (m : Mover) : (s.setMover q k m).ord = s.ord := rfl
@[simp] theorem State.setMover_ver (s : State) (q k : Nat) (m : Mover) : (s.setMover q k m).ver = s.ver := rfl
@[simp] theorem State.setMover_coh (s : State) (q k : Nat) (m : Mover) : (s.setMover q k m).coh = s.coh := rfl
@[simp] theorem State.setMover_stks (s : State) (q k : Nat) (m : Mover) : (s.setMover q k m).stks = s.stks := rfl
@[simp] theorem State.setMover_stns (s : State) (q k : Nat) (m : Mover) : (s.setMover q k m).stns = s.stns := rfl
@[simp] theorem State.setMover_lm (s : State) (q k : Nat) (m : Mover) : (s.setMover q k m).lm = s.lm := rfl
@[simp] theorem State.setMover_sec (s : State) (q k : Nat) (m : Mover) : (s.setMover q k m).sec = s.sec := rfl
@[simp] theorem State.setMover_power (s : State) (q k : Nat) (m : Mover) : (s.setMover q k m).power = s.power := rfl
@[simp] theorem State.setMover_tdm (s : State) (q k : Nat) (m : Mover) : (s.setMover q k m).tdm = s.tdm := rfl
@[simp] theorem State.setMover_start (s : State) (q k : Nat) (m : Mover) : (s.setMover q k m).start = s.start := rfl
@[simp] theorem State.setMover_rsp (s : State) (q k : Nat) (m : Mover) : (s.setMover q k m).rsp = s.rsp := rfl
@[simp] theorem State.setMover_wire (s : State) (q k : Nat) (m : Mover) : (s.setMover q k m).wire = s.wire := rfl
@[simp] theorem State.setMover_free (s : State) (q k : Nat) (m : Mover) : (s.setMover q k m).free = s.free := rfl

/-! ### `State.setCoh` -/

@[simp] theorem State.setCoh_pending (s : State) (x : Coh) : (s.setCoh x).pending = s.pending := rfl
@[simp] theorem State.setCoh_regs (s : State) (x : Coh) : (s.setCoh x).regs = s.regs := rfl
@[simp] theorem State.setCoh_now (s : State) (x : Coh) : (s.setCoh x).now = s.now := rfl
@[simp] theorem State.setCoh_time (s : State) (x : Coh) : (s.setCoh x).time = s.time := rfl
@[simp] theorem State.setCoh_links (s : State) (x : Coh) : (s.setCoh x).links = s.links := rfl
@[simp] theorem State.setCoh_hub (s : State) (x : Coh) : (s.setCoh x).hub = s.hub := rfl
@[simp] theorem State.setCoh_tl (s : State) (x : Coh) : (s.setCoh x).tl = s.tl := rfl
@[simp] theorem State.setCoh_intc (s : State) (x : Coh) : (s.setCoh x).intc = s.intc := rfl
@[simp] theorem State.setCoh_evr (s : State) (x : Coh) : (s.setCoh x).evr = s.evr := rfl
@[simp] theorem State.setCoh_pool (s : State) (x : Coh) : (s.setCoh x).pool = s.pool := rfl
@[simp] theorem State.setCoh_xlt (s : State) (x : Coh) : (s.setCoh x).xlt = s.xlt := rfl
@[simp] theorem State.setCoh_ord (s : State) (x : Coh) : (s.setCoh x).ord = s.ord := rfl
@[simp] theorem State.setCoh_ver (s : State) (x : Coh) : (s.setCoh x).ver = s.ver := rfl
@[simp] theorem State.setCoh_movers (s : State) (x : Coh) : (s.setCoh x).movers = s.movers := rfl
@[simp] theorem State.setCoh_stks (s : State) (x : Coh) : (s.setCoh x).stks = s.stks := rfl
@[simp] theorem State.setCoh_stns (s : State) (x : Coh) : (s.setCoh x).stns = s.stns := rfl
@[simp] theorem State.setCoh_lm (s : State) (x : Coh) : (s.setCoh x).lm = s.lm := rfl
@[simp] theorem State.setCoh_sec (s : State) (x : Coh) : (s.setCoh x).sec = s.sec := rfl
@[simp] theorem State.setCoh_power (s : State) (x : Coh) : (s.setCoh x).power = s.power := rfl
@[simp] theorem State.setCoh_tdm (s : State) (x : Coh) : (s.setCoh x).tdm = s.tdm := rfl
@[simp] theorem State.setCoh_start (s : State) (x : Coh) : (s.setCoh x).start = s.start := rfl
@[simp] theorem State.setCoh_rsp (s : State) (x : Coh) : (s.setCoh x).rsp = s.rsp := rfl
@[simp] theorem State.setCoh_wire (s : State) (x : Coh) : (s.setCoh x).wire = s.wire := rfl
@[simp] theorem State.setCoh_free (s : State) (x : Coh) : (s.setCoh x).free = s.free := rfl
@[simp] theorem State.setCoh_coh (s : State) (x : Coh) : (s.setCoh x).coh = x := rfl

/-! ### `State.setStk` -/

@[simp] theorem State.setStk_pending (s : State) (x : Nat) (k : Stk) : (s.setStk x k).pending = s.pending := rfl
@[simp] theorem State.setStk_regs (s : State) (x : Nat) (k : Stk) : (s.setStk x k).regs = s.regs := rfl
@[simp] theorem State.setStk_now (s : State) (x : Nat) (k : Stk) : (s.setStk x k).now = s.now := rfl
@[simp] theorem State.setStk_time (s : State) (x : Nat) (k : Stk) : (s.setStk x k).time = s.time := rfl
@[simp] theorem State.setStk_links (s : State) (x : Nat) (k : Stk) : (s.setStk x k).links = s.links := rfl
@[simp] theorem State.setStk_hub (s : State) (x : Nat) (k : Stk) : (s.setStk x k).hub = s.hub := rfl
@[simp] theorem State.setStk_tl (s : State) (x : Nat) (k : Stk) : (s.setStk x k).tl = s.tl := rfl
@[simp] theorem State.setStk_intc (s : State) (x : Nat) (k : Stk) : (s.setStk x k).intc = s.intc := rfl
@[simp] theorem State.setStk_evr (s : State) (x : Nat) (k : Stk) : (s.setStk x k).evr = s.evr := rfl
@[simp] theorem State.setStk_pool (s : State) (x : Nat) (k : Stk) : (s.setStk x k).pool = s.pool := rfl
@[simp] theorem State.setStk_xlt (s : State) (x : Nat) (k : Stk) : (s.setStk x k).xlt = s.xlt := rfl
@[simp] theorem State.setStk_ord (s : State) (x : Nat) (k : Stk) : (s.setStk x k).ord = s.ord := rfl
@[simp] theorem State.setStk_ver (s : State) (x : Nat) (k : Stk) : (s.setStk x k).ver = s.ver := rfl
@[simp] theorem State.setStk_movers (s : State) (x : Nat) (k : Stk) : (s.setStk x k).movers = s.movers := rfl
@[simp] theorem State.setStk_coh (s : State) (x : Nat) (k : Stk) : (s.setStk x k).coh = s.coh := rfl
@[simp] theorem State.setStk_stns (s : State) (x : Nat) (k : Stk) : (s.setStk x k).stns = s.stns := rfl
@[simp] theorem State.setStk_lm (s : State) (x : Nat) (k : Stk) : (s.setStk x k).lm = s.lm := rfl
@[simp] theorem State.setStk_sec (s : State) (x : Nat) (k : Stk) : (s.setStk x k).sec = s.sec := rfl
@[simp] theorem State.setStk_power (s : State) (x : Nat) (k : Stk) : (s.setStk x k).power = s.power := rfl
@[simp] theorem State.setStk_tdm (s : State) (x : Nat) (k : Stk) : (s.setStk x k).tdm = s.tdm := rfl
@[simp] theorem State.setStk_start (s : State) (x : Nat) (k : Stk) : (s.setStk x k).start = s.start := rfl
@[simp] theorem State.setStk_rsp (s : State) (x : Nat) (k : Stk) : (s.setStk x k).rsp = s.rsp := rfl
@[simp] theorem State.setStk_wire (s : State) (x : Nat) (k : Stk) : (s.setStk x k).wire = s.wire := rfl
@[simp] theorem State.setStk_free (s : State) (x : Nat) (k : Stk) : (s.setStk x k).free = s.free := rfl

/-! ### `State.setStn` -/

@[simp] theorem State.setStn_pending (s : State) (k : Nat) (t : Stn) : (s.setStn k t).pending = s.pending := rfl
@[simp] theorem State.setStn_regs (s : State) (k : Nat) (t : Stn) : (s.setStn k t).regs = s.regs := rfl
@[simp] theorem State.setStn_now (s : State) (k : Nat) (t : Stn) : (s.setStn k t).now = s.now := rfl
@[simp] theorem State.setStn_time (s : State) (k : Nat) (t : Stn) : (s.setStn k t).time = s.time := rfl
@[simp] theorem State.setStn_links (s : State) (k : Nat) (t : Stn) : (s.setStn k t).links = s.links := rfl
@[simp] theorem State.setStn_hub (s : State) (k : Nat) (t : Stn) : (s.setStn k t).hub = s.hub := rfl
@[simp] theorem State.setStn_tl (s : State) (k : Nat) (t : Stn) : (s.setStn k t).tl = s.tl := rfl
@[simp] theorem State.setStn_intc (s : State) (k : Nat) (t : Stn) : (s.setStn k t).intc = s.intc := rfl
@[simp] theorem State.setStn_evr (s : State) (k : Nat) (t : Stn) : (s.setStn k t).evr = s.evr := rfl
@[simp] theorem State.setStn_pool (s : State) (k : Nat) (t : Stn) : (s.setStn k t).pool = s.pool := rfl
@[simp] theorem State.setStn_xlt (s : State) (k : Nat) (t : Stn) : (s.setStn k t).xlt = s.xlt := rfl
@[simp] theorem State.setStn_ord (s : State) (k : Nat) (t : Stn) : (s.setStn k t).ord = s.ord := rfl
@[simp] theorem State.setStn_ver (s : State) (k : Nat) (t : Stn) : (s.setStn k t).ver = s.ver := rfl
@[simp] theorem State.setStn_movers (s : State) (k : Nat) (t : Stn) : (s.setStn k t).movers = s.movers := rfl
@[simp] theorem State.setStn_coh (s : State) (k : Nat) (t : Stn) : (s.setStn k t).coh = s.coh := rfl
@[simp] theorem State.setStn_stks (s : State) (k : Nat) (t : Stn) : (s.setStn k t).stks = s.stks := rfl
@[simp] theorem State.setStn_lm (s : State) (k : Nat) (t : Stn) : (s.setStn k t).lm = s.lm := rfl
@[simp] theorem State.setStn_sec (s : State) (k : Nat) (t : Stn) : (s.setStn k t).sec = s.sec := rfl
@[simp] theorem State.setStn_power (s : State) (k : Nat) (t : Stn) : (s.setStn k t).power = s.power := rfl
@[simp] theorem State.setStn_tdm (s : State) (k : Nat) (t : Stn) : (s.setStn k t).tdm = s.tdm := rfl
@[simp] theorem State.setStn_start (s : State) (k : Nat) (t : Stn) : (s.setStn k t).start = s.start := rfl
@[simp] theorem State.setStn_rsp (s : State) (k : Nat) (t : Stn) : (s.setStn k t).rsp = s.rsp := rfl
@[simp] theorem State.setStn_wire (s : State) (k : Nat) (t : Stn) : (s.setStn k t).wire = s.wire := rfl
@[simp] theorem State.setStn_free (s : State) (k : Nat) (t : Stn) : (s.setStn k t).free = s.free := rfl

/-! ### `State.setLm` -/

@[simp] theorem State.setLm_pending (s : State) (x : Looms) : (s.setLm x).pending = s.pending := rfl
@[simp] theorem State.setLm_regs (s : State) (x : Looms) : (s.setLm x).regs = s.regs := rfl
@[simp] theorem State.setLm_now (s : State) (x : Looms) : (s.setLm x).now = s.now := rfl
@[simp] theorem State.setLm_time (s : State) (x : Looms) : (s.setLm x).time = s.time := rfl
@[simp] theorem State.setLm_links (s : State) (x : Looms) : (s.setLm x).links = s.links := rfl
@[simp] theorem State.setLm_hub (s : State) (x : Looms) : (s.setLm x).hub = s.hub := rfl
@[simp] theorem State.setLm_tl (s : State) (x : Looms) : (s.setLm x).tl = s.tl := rfl
@[simp] theorem State.setLm_intc (s : State) (x : Looms) : (s.setLm x).intc = s.intc := rfl
@[simp] theorem State.setLm_evr (s : State) (x : Looms) : (s.setLm x).evr = s.evr := rfl
@[simp] theorem State.setLm_pool (s : State) (x : Looms) : (s.setLm x).pool = s.pool := rfl
@[simp] theorem State.setLm_xlt (s : State) (x : Looms) : (s.setLm x).xlt = s.xlt := rfl
@[simp] theorem State.setLm_ord (s : State) (x : Looms) : (s.setLm x).ord = s.ord := rfl
@[simp] theorem State.setLm_ver (s : State) (x : Looms) : (s.setLm x).ver = s.ver := rfl
@[simp] theorem State.setLm_movers (s : State) (x : Looms) : (s.setLm x).movers = s.movers := rfl
@[simp] theorem State.setLm_coh (s : State) (x : Looms) : (s.setLm x).coh = s.coh := rfl
@[simp] theorem State.setLm_stks (s : State) (x : Looms) : (s.setLm x).stks = s.stks := rfl
@[simp] theorem State.setLm_stns (s : State) (x : Looms) : (s.setLm x).stns = s.stns := rfl
@[simp] theorem State.setLm_sec (s : State) (x : Looms) : (s.setLm x).sec = s.sec := rfl
@[simp] theorem State.setLm_power (s : State) (x : Looms) : (s.setLm x).power = s.power := rfl
@[simp] theorem State.setLm_tdm (s : State) (x : Looms) : (s.setLm x).tdm = s.tdm := rfl
@[simp] theorem State.setLm_start (s : State) (x : Looms) : (s.setLm x).start = s.start := rfl
@[simp] theorem State.setLm_rsp (s : State) (x : Looms) : (s.setLm x).rsp = s.rsp := rfl
@[simp] theorem State.setLm_wire (s : State) (x : Looms) : (s.setLm x).wire = s.wire := rfl
@[simp] theorem State.setLm_free (s : State) (x : Looms) : (s.setLm x).free = s.free := rfl
@[simp] theorem State.setLm_lm (s : State) (x : Looms) : (s.setLm x).lm = x := rfl

/-! ### `State.setSec` -/

@[simp] theorem State.setSec_pending (s : State) (x : Sec) : (s.setSec x).pending = s.pending := rfl
@[simp] theorem State.setSec_regs (s : State) (x : Sec) : (s.setSec x).regs = s.regs := rfl
@[simp] theorem State.setSec_now (s : State) (x : Sec) : (s.setSec x).now = s.now := rfl
@[simp] theorem State.setSec_time (s : State) (x : Sec) : (s.setSec x).time = s.time := rfl
@[simp] theorem State.setSec_links (s : State) (x : Sec) : (s.setSec x).links = s.links := rfl
@[simp] theorem State.setSec_hub (s : State) (x : Sec) : (s.setSec x).hub = s.hub := rfl
@[simp] theorem State.setSec_tl (s : State) (x : Sec) : (s.setSec x).tl = s.tl := rfl
@[simp] theorem State.setSec_intc (s : State) (x : Sec) : (s.setSec x).intc = s.intc := rfl
@[simp] theorem State.setSec_evr (s : State) (x : Sec) : (s.setSec x).evr = s.evr := rfl
@[simp] theorem State.setSec_pool (s : State) (x : Sec) : (s.setSec x).pool = s.pool := rfl
@[simp] theorem State.setSec_xlt (s : State) (x : Sec) : (s.setSec x).xlt = s.xlt := rfl
@[simp] theorem State.setSec_ord (s : State) (x : Sec) : (s.setSec x).ord = s.ord := rfl
@[simp] theorem State.setSec_ver (s : State) (x : Sec) : (s.setSec x).ver = s.ver := rfl
@[simp] theorem State.setSec_movers (s : State) (x : Sec) : (s.setSec x).movers = s.movers := rfl
@[simp] theorem State.setSec_coh (s : State) (x : Sec) : (s.setSec x).coh = s.coh := rfl
@[simp] theorem State.setSec_stks (s : State) (x : Sec) : (s.setSec x).stks = s.stks := rfl
@[simp] theorem State.setSec_stns (s : State) (x : Sec) : (s.setSec x).stns = s.stns := rfl
@[simp] theorem State.setSec_lm (s : State) (x : Sec) : (s.setSec x).lm = s.lm := rfl
@[simp] theorem State.setSec_power (s : State) (x : Sec) : (s.setSec x).power = s.power := rfl
@[simp] theorem State.setSec_tdm (s : State) (x : Sec) : (s.setSec x).tdm = s.tdm := rfl
@[simp] theorem State.setSec_start (s : State) (x : Sec) : (s.setSec x).start = s.start := rfl
@[simp] theorem State.setSec_rsp (s : State) (x : Sec) : (s.setSec x).rsp = s.rsp := rfl
@[simp] theorem State.setSec_wire (s : State) (x : Sec) : (s.setSec x).wire = s.wire := rfl
@[simp] theorem State.setSec_free (s : State) (x : Sec) : (s.setSec x).free = s.free := rfl
@[simp] theorem State.setSec_sec (s : State) (x : Sec) : (s.setSec x).sec = x := rfl

/-! ### `State.setPower` -/

@[simp] theorem State.setPower_pending (s : State) (x : Power) : (s.setPower x).pending = s.pending := rfl
@[simp] theorem State.setPower_regs (s : State) (x : Power) : (s.setPower x).regs = s.regs := rfl
@[simp] theorem State.setPower_now (s : State) (x : Power) : (s.setPower x).now = s.now := rfl
@[simp] theorem State.setPower_time (s : State) (x : Power) : (s.setPower x).time = s.time := rfl
@[simp] theorem State.setPower_links (s : State) (x : Power) : (s.setPower x).links = s.links := rfl
@[simp] theorem State.setPower_hub (s : State) (x : Power) : (s.setPower x).hub = s.hub := rfl
@[simp] theorem State.setPower_tl (s : State) (x : Power) : (s.setPower x).tl = s.tl := rfl
@[simp] theorem State.setPower_intc (s : State) (x : Power) : (s.setPower x).intc = s.intc := rfl
@[simp] theorem State.setPower_evr (s : State) (x : Power) : (s.setPower x).evr = s.evr := rfl
@[simp] theorem State.setPower_pool (s : State) (x : Power) : (s.setPower x).pool = s.pool := rfl
@[simp] theorem State.setPower_xlt (s : State) (x : Power) : (s.setPower x).xlt = s.xlt := rfl
@[simp] theorem State.setPower_ord (s : State) (x : Power) : (s.setPower x).ord = s.ord := rfl
@[simp] theorem State.setPower_ver (s : State) (x : Power) : (s.setPower x).ver = s.ver := rfl
@[simp] theorem State.setPower_movers (s : State) (x : Power) : (s.setPower x).movers = s.movers := rfl
@[simp] theorem State.setPower_coh (s : State) (x : Power) : (s.setPower x).coh = s.coh := rfl
@[simp] theorem State.setPower_stks (s : State) (x : Power) : (s.setPower x).stks = s.stks := rfl
@[simp] theorem State.setPower_stns (s : State) (x : Power) : (s.setPower x).stns = s.stns := rfl
@[simp] theorem State.setPower_lm (s : State) (x : Power) : (s.setPower x).lm = s.lm := rfl
@[simp] theorem State.setPower_sec (s : State) (x : Power) : (s.setPower x).sec = s.sec := rfl
@[simp] theorem State.setPower_tdm (s : State) (x : Power) : (s.setPower x).tdm = s.tdm := rfl
@[simp] theorem State.setPower_start (s : State) (x : Power) : (s.setPower x).start = s.start := rfl
@[simp] theorem State.setPower_rsp (s : State) (x : Power) : (s.setPower x).rsp = s.rsp := rfl
@[simp] theorem State.setPower_wire (s : State) (x : Power) : (s.setPower x).wire = s.wire := rfl
@[simp] theorem State.setPower_free (s : State) (x : Power) : (s.setPower x).free = s.free := rfl
@[simp] theorem State.setPower_power (s : State) (x : Power) : (s.setPower x).power = x := rfl

/-! ### `State.setTdm` -/

@[simp] theorem State.setTdm_pending (s : State) (x : Tandem) : (s.setTdm x).pending = s.pending := rfl
@[simp] theorem State.setTdm_regs (s : State) (x : Tandem) : (s.setTdm x).regs = s.regs := rfl
@[simp] theorem State.setTdm_now (s : State) (x : Tandem) : (s.setTdm x).now = s.now := rfl
@[simp] theorem State.setTdm_time (s : State) (x : Tandem) : (s.setTdm x).time = s.time := rfl
@[simp] theorem State.setTdm_links (s : State) (x : Tandem) : (s.setTdm x).links = s.links := rfl
@[simp] theorem State.setTdm_hub (s : State) (x : Tandem) : (s.setTdm x).hub = s.hub := rfl
@[simp] theorem State.setTdm_tl (s : State) (x : Tandem) : (s.setTdm x).tl = s.tl := rfl
@[simp] theorem State.setTdm_intc (s : State) (x : Tandem) : (s.setTdm x).intc = s.intc := rfl
@[simp] theorem State.setTdm_evr (s : State) (x : Tandem) : (s.setTdm x).evr = s.evr := rfl
@[simp] theorem State.setTdm_pool (s : State) (x : Tandem) : (s.setTdm x).pool = s.pool := rfl
@[simp] theorem State.setTdm_xlt (s : State) (x : Tandem) : (s.setTdm x).xlt = s.xlt := rfl
@[simp] theorem State.setTdm_ord (s : State) (x : Tandem) : (s.setTdm x).ord = s.ord := rfl
@[simp] theorem State.setTdm_ver (s : State) (x : Tandem) : (s.setTdm x).ver = s.ver := rfl
@[simp] theorem State.setTdm_movers (s : State) (x : Tandem) : (s.setTdm x).movers = s.movers := rfl
@[simp] theorem State.setTdm_coh (s : State) (x : Tandem) : (s.setTdm x).coh = s.coh := rfl
@[simp] theorem State.setTdm_stks (s : State) (x : Tandem) : (s.setTdm x).stks = s.stks := rfl
@[simp] theorem State.setTdm_stns (s : State) (x : Tandem) : (s.setTdm x).stns = s.stns := rfl
@[simp] theorem State.setTdm_lm (s : State) (x : Tandem) : (s.setTdm x).lm = s.lm := rfl
@[simp] theorem State.setTdm_sec (s : State) (x : Tandem) : (s.setTdm x).sec = s.sec := rfl
@[simp] theorem State.setTdm_power (s : State) (x : Tandem) : (s.setTdm x).power = s.power := rfl
@[simp] theorem State.setTdm_start (s : State) (x : Tandem) : (s.setTdm x).start = s.start := rfl
@[simp] theorem State.setTdm_rsp (s : State) (x : Tandem) : (s.setTdm x).rsp = s.rsp := rfl
@[simp] theorem State.setTdm_wire (s : State) (x : Tandem) : (s.setTdm x).wire = s.wire := rfl
@[simp] theorem State.setTdm_free (s : State) (x : Tandem) : (s.setTdm x).free = s.free := rfl
@[simp] theorem State.setTdm_tdm (s : State) (x : Tandem) : (s.setTdm x).tdm = x := rfl

/-! ### `State.setStart` -/

@[simp] theorem State.setStart_pending (s : State) (x : Start) : (s.setStart x).pending = s.pending := rfl
@[simp] theorem State.setStart_regs (s : State) (x : Start) : (s.setStart x).regs = s.regs := rfl
@[simp] theorem State.setStart_now (s : State) (x : Start) : (s.setStart x).now = s.now := rfl
@[simp] theorem State.setStart_time (s : State) (x : Start) : (s.setStart x).time = s.time := rfl
@[simp] theorem State.setStart_links (s : State) (x : Start) : (s.setStart x).links = s.links := rfl
@[simp] theorem State.setStart_hub (s : State) (x : Start) : (s.setStart x).hub = s.hub := rfl
@[simp] theorem State.setStart_tl (s : State) (x : Start) : (s.setStart x).tl = s.tl := rfl
@[simp] theorem State.setStart_intc (s : State) (x : Start) : (s.setStart x).intc = s.intc := rfl
@[simp] theorem State.setStart_evr (s : State) (x : Start) : (s.setStart x).evr = s.evr := rfl
@[simp] theorem State.setStart_pool (s : State) (x : Start) : (s.setStart x).pool = s.pool := rfl
@[simp] theorem State.setStart_xlt (s : State) (x : Start) : (s.setStart x).xlt = s.xlt := rfl
@[simp] theorem State.setStart_ord (s : State) (x : Start) : (s.setStart x).ord = s.ord := rfl
@[simp] theorem State.setStart_ver (s : State) (x : Start) : (s.setStart x).ver = s.ver := rfl
@[simp] theorem State.setStart_movers (s : State) (x : Start) : (s.setStart x).movers = s.movers := rfl
@[simp] theorem State.setStart_coh (s : State) (x : Start) : (s.setStart x).coh = s.coh := rfl
@[simp] theorem State.setStart_stks (s : State) (x : Start) : (s.setStart x).stks = s.stks := rfl
@[simp] theorem State.setStart_stns (s : State) (x : Start) : (s.setStart x).stns = s.stns := rfl
@[simp] theorem State.setStart_lm (s : State) (x : Start) : (s.setStart x).lm = s.lm := rfl
@[simp] theorem State.setStart_sec (s : State) (x : Start) : (s.setStart x).sec = s.sec := rfl
@[simp] theorem State.setStart_power (s : State) (x : Start) : (s.setStart x).power = s.power := rfl
@[simp] theorem State.setStart_tdm (s : State) (x : Start) : (s.setStart x).tdm = s.tdm := rfl
@[simp] theorem State.setStart_rsp (s : State) (x : Start) : (s.setStart x).rsp = s.rsp := rfl
@[simp] theorem State.setStart_wire (s : State) (x : Start) : (s.setStart x).wire = s.wire := rfl
@[simp] theorem State.setStart_free (s : State) (x : Start) : (s.setStart x).free = s.free := rfl
@[simp] theorem State.setStart_start (s : State) (x : Start) : (s.setStart x).start = x := rfl

/-! ### `State.respond` -/

@[simp] theorem State.respond_pending (s : State) (st : Status) (d : BitVec 64) : (s.respond st d).pending = s.pending := rfl
@[simp] theorem State.respond_regs (s : State) (st : Status) (d : BitVec 64) : (s.respond st d).regs = s.regs := rfl
@[simp] theorem State.respond_now (s : State) (st : Status) (d : BitVec 64) : (s.respond st d).now = s.now := rfl
@[simp] theorem State.respond_time (s : State) (st : Status) (d : BitVec 64) : (s.respond st d).time = s.time := rfl
@[simp] theorem State.respond_links (s : State) (st : Status) (d : BitVec 64) : (s.respond st d).links = s.links := rfl
@[simp] theorem State.respond_hub (s : State) (st : Status) (d : BitVec 64) : (s.respond st d).hub = s.hub := rfl
@[simp] theorem State.respond_tl (s : State) (st : Status) (d : BitVec 64) : (s.respond st d).tl = s.tl := rfl
@[simp] theorem State.respond_intc (s : State) (st : Status) (d : BitVec 64) : (s.respond st d).intc = s.intc := rfl
@[simp] theorem State.respond_evr (s : State) (st : Status) (d : BitVec 64) : (s.respond st d).evr = s.evr := rfl
@[simp] theorem State.respond_pool (s : State) (st : Status) (d : BitVec 64) : (s.respond st d).pool = s.pool := rfl
@[simp] theorem State.respond_xlt (s : State) (st : Status) (d : BitVec 64) : (s.respond st d).xlt = s.xlt := rfl
@[simp] theorem State.respond_ord (s : State) (st : Status) (d : BitVec 64) : (s.respond st d).ord = s.ord := rfl
@[simp] theorem State.respond_ver (s : State) (st : Status) (d : BitVec 64) : (s.respond st d).ver = s.ver := rfl
@[simp] theorem State.respond_movers (s : State) (st : Status) (d : BitVec 64) : (s.respond st d).movers = s.movers := rfl
@[simp] theorem State.respond_coh (s : State) (st : Status) (d : BitVec 64) : (s.respond st d).coh = s.coh := rfl
@[simp] theorem State.respond_stks (s : State) (st : Status) (d : BitVec 64) : (s.respond st d).stks = s.stks := rfl
@[simp] theorem State.respond_stns (s : State) (st : Status) (d : BitVec 64) : (s.respond st d).stns = s.stns := rfl
@[simp] theorem State.respond_lm (s : State) (st : Status) (d : BitVec 64) : (s.respond st d).lm = s.lm := rfl
@[simp] theorem State.respond_sec (s : State) (st : Status) (d : BitVec 64) : (s.respond st d).sec = s.sec := rfl
@[simp] theorem State.respond_power (s : State) (st : Status) (d : BitVec 64) : (s.respond st d).power = s.power := rfl
@[simp] theorem State.respond_tdm (s : State) (st : Status) (d : BitVec 64) : (s.respond st d).tdm = s.tdm := rfl
@[simp] theorem State.respond_start (s : State) (st : Status) (d : BitVec 64) : (s.respond st d).start = s.start := rfl
@[simp] theorem State.respond_wire (s : State) (st : Status) (d : BitVec 64) : (s.respond st d).wire = s.wire := rfl
@[simp] theorem State.respond_free (s : State) (st : Status) (d : BitVec 64) : (s.respond st d).free = s.free := rfl

/-! ### `State.emit` -/

@[simp] theorem State.emit_pending (s : State) (e : Emission) : (s.emit e).pending = s.pending := rfl
@[simp] theorem State.emit_regs (s : State) (e : Emission) : (s.emit e).regs = s.regs := rfl
@[simp] theorem State.emit_now (s : State) (e : Emission) : (s.emit e).now = s.now := rfl
@[simp] theorem State.emit_time (s : State) (e : Emission) : (s.emit e).time = s.time := rfl
@[simp] theorem State.emit_links (s : State) (e : Emission) : (s.emit e).links = s.links := rfl
@[simp] theorem State.emit_hub (s : State) (e : Emission) : (s.emit e).hub = s.hub := rfl
@[simp] theorem State.emit_tl (s : State) (e : Emission) : (s.emit e).tl = s.tl := rfl
@[simp] theorem State.emit_intc (s : State) (e : Emission) : (s.emit e).intc = s.intc := rfl
@[simp] theorem State.emit_evr (s : State) (e : Emission) : (s.emit e).evr = s.evr := rfl
@[simp] theorem State.emit_pool (s : State) (e : Emission) : (s.emit e).pool = s.pool := rfl
@[simp] theorem State.emit_xlt (s : State) (e : Emission) : (s.emit e).xlt = s.xlt := rfl
@[simp] theorem State.emit_ord (s : State) (e : Emission) : (s.emit e).ord = s.ord := rfl
@[simp] theorem State.emit_ver (s : State) (e : Emission) : (s.emit e).ver = s.ver := rfl
@[simp] theorem State.emit_movers (s : State) (e : Emission) : (s.emit e).movers = s.movers := rfl
@[simp] theorem State.emit_coh (s : State) (e : Emission) : (s.emit e).coh = s.coh := rfl
@[simp] theorem State.emit_stks (s : State) (e : Emission) : (s.emit e).stks = s.stks := rfl
@[simp] theorem State.emit_stns (s : State) (e : Emission) : (s.emit e).stns = s.stns := rfl
@[simp] theorem State.emit_lm (s : State) (e : Emission) : (s.emit e).lm = s.lm := rfl
@[simp] theorem State.emit_sec (s : State) (e : Emission) : (s.emit e).sec = s.sec := rfl
@[simp] theorem State.emit_power (s : State) (e : Emission) : (s.emit e).power = s.power := rfl
@[simp] theorem State.emit_tdm (s : State) (e : Emission) : (s.emit e).tdm = s.tdm := rfl
@[simp] theorem State.emit_start (s : State) (e : Emission) : (s.emit e).start = s.start := rfl
@[simp] theorem State.emit_rsp (s : State) (e : Emission) : (s.emit e).rsp = s.rsp := rfl
@[simp] theorem State.emit_free (s : State) (e : Emission) : (s.emit e).free = s.free := rfl

/-! ### Stored values -/

@[simp] theorem State.link_setLink_same (s : State) (p : Nat) (l : Link) : (s.setLink p l).link p = l := smGet_smSet_same _ _ _
theorem State.link_setLink_other (s : State) {p q : Nat} (l : Link) (h : q ≠ p) : (s.setLink p l).link q = s.link q := smGet_smSet_other h
@[simp] theorem State.stk_setStk_same (s : State) (x : Nat) (k : Stk) : (s.setStk x k).stk x = k := smGet_smSet_same _ _ _
theorem State.stk_setStk_other (s : State) {x y : Nat} (k : Stk) (h : y ≠ x) : (s.setStk x k).stk y = s.stk y := smGet_smSet_other h
@[simp] theorem State.region_setRegion_same (s : State) (r : Nat) (x : RegionSt) : (s.setRegion r x).region r = x := smGet_smSet_same _ _ _
theorem State.region_setRegion_other (s : State) {r q : Nat} (x : RegionSt) (h : q ≠ r) : (s.setRegion r x).region q = s.region q :=
  smGet_smSet_other h
@[simp] theorem State.mover_setMover_same (s : State) (q k : Nat) (m : Mover) : (s.setMover q k m).mover q k = m := smGet_smSet_same _ _ _
@[simp] theorem State.respond_rsp (s : State) (st : Status) (d : BitVec 64) : (s.respond st d).rsp = (st, d) := rfl
@[simp] theorem State.emit_wire (s : State) (e : Emission) : (s.emit e).wire = s.wire ++ [e] := rfl

end Sys2Proof.Machine
end

