-- ==== Sys2Proof/Laws/Stn.lean ====
section
/-!
SUPPORT. The laws of stations: what an instruction at issue can do, and reads after writes of a station's machine state.
-/
namespace Sys2Proof.Machine
open Sys2Proof

/-! ### A station in the state -/

@[simp] theorem State.stn_setStn_same (s : State) (k : Nat) (t : Stn) : (s.setStn k t).stn k = t := by
  simp [State.stn, State.setStn]
theorem State.stn_setStn_other (s : State) {k j : Nat} (t : Stn) (h : j ≠ k) : (s.setStn k t).stn j = s.stn j := by
  simp [State.stn, State.setStn, smGet_smSet_other h]
theorem State.onlyStn_setStn (s : State) (k : Nat) (t : Stn) : s.onlyStn (s.setStn k t) k :=
  ⟨rfl, fun _ h => State.stn_setStn_other s t h⟩

/-! ### Machine state of a station -/

theorem Stn.sreg_setS (t : Stn) (d n : Nat) (v : BitVec 64) : (t.setS d v).sreg n = if n = d ∧ n ≠ 0 then v else t.sreg n := by
  unfold Stn.setS Stn.sreg
  by_cases hn : n = 0 <;> by_cases hd : d = 0 <;> simp_all [smGet_smSet]
theorem Stn.setS_eq (t : Stn) (d : Nat) (v : BitVec 64) : t.setS d v = { t with s := (t.setS d v).s } := by
  unfold Stn.setS; split <;> rfl
theorem Stn.preg_setP (t : Stn) (d n : Nat) (v : BitVec 64) : (t.setP d v).preg n = if n = d ∧ n ≠ 0 then v else t.preg n := by
  unfold Stn.setP Stn.preg
  by_cases hn : n = 0 <;> by_cases hd : d = 0 <;> simp_all [smGet_smSet]
theorem Stn.setP_eq (t : Stn) (d : Nat) (v : BitVec 64) : t.setP d v = { t with p := (t.setP d v).p } := by
  unfold Stn.setP; split <;> rfl

/-- Folding conditional lane writes keeps everything but the lanes, and writes the lanes of the list whose guard is 1. -/
theorem Stn.foldl_setLane (l : List Nat) (r : Nat) (g : BitVec 64) (f : Nat → BitVec 32) (t : Stn) (hl : ∀ k ∈ l, k < 64) :
    let u := l.foldl (fun t k => if g.getLsbD k then t.setLane r k (f k) else t) t
    u = { t with v := u.v } ∧
      ∀ r' k, k < 64 → u.lane r' k = if r' = r ∧ k ∈ l ∧ g.getLsbD k = true then f k else t.lane r' k := by
  induction l generalizing t with
  | nil => exact ⟨rfl, by simp⟩
  | cons a l ih =>
    have ha : a < 64 := hl a (by simp)
    obtain ⟨h1, h2⟩ := ih (if g.getLsbD a then t.setLane r a (f a) else t) (fun k hk => hl k (by simp [hk]))
    refine ⟨?_, fun r' k hk => ?_⟩
    · simp only [List.foldl_cons]
      rw [h1]; split <;> rfl
    · simp only [List.foldl_cons]
      rw [h2 r' k hk]
      by_cases hm : r' = r ∧ k ∈ l ∧ g.getLsbD k = true
      · simp [hm]
      · rw [if_neg hm]
        by_cases hga : g.getLsbD a = true
        · simp only [hga, if_true]
          simp only [Stn.lane, Stn.setLane, smGet_smSet]
          by_cases hk2 : 64 * r' + k = 64 * r + a
          · have hr : r' = r := by omega
            have hka : k = a := by omega
            subst hr; subst hka; simp [hga]
          · rw [if_neg hk2]
            have : ¬(r' = r ∧ k ∈ a :: l ∧ g.getLsbD k = true) := by
              rintro ⟨rfl, hk3, hk4⟩
              rcases List.mem_cons.1 hk3 with rfl | hk5
              · exact hk2 rfl
              · exact hm ⟨rfl, hk5, hk4⟩
            rw [if_neg this]
        · have : ¬(r' = r ∧ k ∈ a :: l ∧ g.getLsbD k = true) := by
            rintro ⟨rfl, hk3, hk4⟩
            rcases List.mem_cons.1 hk3 with rfl | hk5
            · exact hga hk4
            · exact hm ⟨rfl, hk5, hk4⟩
          rw [if_neg this, if_neg hga]

theorem Stn.lane_putLanes (t : Stn) (r : Nat) (g : BitVec 64) (f : Nat → BitVec 32) (r' k : Nat) (hk : k < 64) :
    (t.putLanes r g f).lane r' k = if r' = r ∧ g.getLsbD k = true then f k else t.lane r' k := by
  have := (Stn.foldl_setLane (List.range 64) r g f t (by simp)).2 r' k hk
  simpa [Stn.putLanes, hk] using this
theorem Stn.putLanes_eq (t : Stn) (r : Nat) (g : BitVec 64) (f : Nat → BitVec 32) :
    t.putLanes r g f = { t with v := (t.putLanes r g f).v } :=
  (Stn.foldl_setLane (List.range 64) r g f t (by simp)).1

/-- A store keeps everything but the local store and its written bits, and writes its bytes. -/
theorem Stn.lsWrite_law (t : Stn) (a : Nat) (bs : List (BitVec 8)) :
    t.lsWrite a bs = { t with ls := (t.lsWrite a bs).ls, written := (t.lsWrite a bs).written } ∧
      ∀ b, (t.lsWrite a bs).lsByte b = if a ≤ b ∧ b < a + bs.length then bs.getD (b - a) 0 else t.lsByte b := by
  induction bs generalizing t a with
  | nil => exact ⟨rfl, fun b => by simp [Stn.lsWrite]⟩
  | cons x bs ih =>
    obtain ⟨h1, h2⟩ := ih ({ t with ls := smSet 0 t.ls a x, written := smSet false t.written (a / 1024) true } : Stn) (a + 1)
    refine ⟨?_, fun b => ?_⟩
    · simp only [Stn.lsWrite]; rw [h1]
    · simp only [Stn.lsWrite]
      rw [h2 b]
      by_cases hb : a + 1 ≤ b ∧ b < a + 1 + bs.length
      · rw [if_pos hb, if_pos (by simp; omega)]
        obtain ⟨c, rfl⟩ : ∃ c, b = a + 1 + c := ⟨b - (a + 1), by omega⟩
        have e1 : a + 1 + c - (a + 1) = c := by omega
        have e2 : a + 1 + c - a = c + 1 := by omega
        rw [e1, e2]; simp
      · rw [if_neg hb]
        simp only [Stn.lsByte, smGet_smSet]
        by_cases hb2 : b = a
        · subst hb2; simp
        · rw [if_neg hb2, if_neg (by simp; omega)]

/-! ### Issue -/

theorem State.issue_idle (s : State) (x : SiteId) (word : BitVec 64) (h : Shape) (bad : Bool) (f : State → Nat → Stn → Insn → Issue)
    (hc : s.canIssue (siteKey x) word = false) : s.issue x word h bad f = s := by
  simp [State.issue, hc]

theorem State.issueReg_idle (s : State) (x : SiteId) (word : BitVec 64) (h : Shape) (bad : Bool) (f : Stn → Insn → Stn)
    (hc : s.canIssue (siteKey x) word = false) : s.issueReg x word h bad f = s := State.issue_idle _ _ _ _ _ _ hc

theorem State.issue_illegal (s : State) (x : SiteId) (word : BitVec 64) (h : Shape) (bad : Bool) (f : State → Nat → Stn → Insn → Issue)
    (hc : s.canIssue (siteKey x) word = true) (hi : (h.illegal (insnOf word) || bad) = true) :
    s.issue x word h bad f = s.trapStn (siteKey x) 1 0 0 0 word (s.stn (siteKey x)).pc := by
  simp [State.issue, hc, hi]

theorem State.issue_guarded (s : State) (x : SiteId) (word : BitVec 64) (h : Shape) (bad : Bool) (f : State → Nat → Stn → Insn → Issue)
    (hc : s.canIssue (siteKey x) word = true) (hi : (h.illegal (insnOf word) || bad) = false) (hl : h.lanes = false)
    (hg : ((s.stn (siteKey x)).guard (insnOf word)).getLsbD 0 = false) :
    s.issue x word h bad f = s.setStn (siteKey x) (s.stn (siteKey x)).advance := by
  simp only [State.issue, hc, hi, hl, hg]
  simp

theorem State.issue_awaiting (s : State) (x : SiteId) (word : BitVec 64) (h : Shape) (bad : Bool) (f : State → Nat → Stn → Insn → Issue)
    (hc : s.canIssue (siteKey x) word = true) (hi : (h.illegal (insnOf word) || bad) = false)
    (hg : (h.lanes || ((s.stn (siteKey x)).guard (insnOf word)).getLsbD 0) = true)
    (ha : (s.stn (siteKey x)).awaits (h.scalars (insnOf word)) = true) :
    s.issue x word h bad f = s.blockStn (siteKey x) := by
  have hg' : (!h.lanes && !((s.stn (siteKey x)).guard (insnOf word)).getLsbD 0) = false := by
    rcases Bool.eq_false_or_eq_true h.lanes with h1 | h1 <;> simp_all
  simp only [State.issue, hc, hi, hg', ha]
  simp

theorem State.issue_ready (s : State) (x : SiteId) (word : BitVec 64) (h : Shape) (bad : Bool) (f : State → Nat → Stn → Insn → Issue)
    (hr : s.ready x word h = true) (hb : bad = false) :
    s.issue x word h bad f = s.apply (siteKey x) word (f s (siteKey x) (s.stn (siteKey x)) (insnOf word)) := by
  simp only [State.ready, Bool.and_eq_true, Bool.not_eq_true', Bool.or_eq_true] at hr
  obtain ⟨⟨⟨h1, h2⟩, h3⟩, h4⟩ := hr
  have hg' : (!h.lanes && !((s.stn (siteKey x)).guard (insnOf word)).getLsbD 0) = false := by
    rcases h3 with h3 | h3 <;> simp [h3]
  simp only [State.issue, h1, h2, hb, hg', h4]
  simp

/-- What a command that only issues its word does, by cases. -/
theorem State.issues_of_issue {s : State} {c : Instr} {x : SiteId} {word : BitVec 64} {h : Shape} {bad : Bool}
    {f : State → Nat → Stn → Insn → Issue} {p : State → Prop}
    (he : exec c s = .next (s.issue x word h bad f))
    (hp : s.ready x word h = true → bad = false → p (s.apply (siteKey x) word (f s (siteKey x) (s.stn (siteKey x)) (insnOf word)))) :
    s.issues c x word h bad p := by
  refine ⟨fun hc => ?_, fun hc hi => ?_, fun hc hi hl hg => ?_, fun hc hi hg ha => ?_, fun hr hb => ?_⟩
  · rw [he, State.issue_idle _ _ _ _ _ _ hc]
  · rw [he, State.issue_illegal _ _ _ _ _ _ hc hi]
  · rw [he, State.issue_guarded _ _ _ _ _ _ hc hi hl hg]
    refine ⟨_, rfl, State.onlyStn_setStn _ _ _, ?_⟩
    simp [Stn.movedOn, Stn.advance]
  · rw [he, State.issue_awaiting _ _ _ _ _ _ hc hi hg ha]
  · exact ⟨_, by rw [he, State.issue_ready _ _ _ _ _ _ hr hb], hp hr hb⟩

/-- The same for an instruction that only changes its station. -/
theorem State.issuesReg_of_issueReg {s : State} {c : Instr} {x : SiteId} {word : BitVec 64} {h : Shape} {bad : Bool}
    {f : Stn → Insn → Stn} {q : Stn → Insn → Stn → Prop}
    (he : exec c s = .next (s.issueReg x word h bad f))
    (hq : ∀ t, q t (insnOf word) (f t (insnOf word)).advance) : s.issuesReg c x word h bad q := by
  refine State.issues_of_issue he (fun _ _ => ?_)
  exact ⟨State.onlyStn_setStn _ _ _, by simpa [State.apply] using hq (s.stn (siteKey x))⟩

theorem Stn.wroteS_putS (t : Stn) (i : Insn) (v : BitVec 64) : t.wroteS (t.putS i v).advance i.rd.toNat v := by
  refine ⟨?_, fun n => ?_⟩
  · unfold Stn.movedOn Stn.advance Stn.putS sN
    rw [Stn.setS_eq]
  · exact Stn.sreg_setS t i.rd.toNat n v

theorem Stn.wroteP_putP (t : Stn) (i : Insn) (v : BitVec 64) : t.wroteP (t.putP i v).advance (i.rd.toNat - 52) v := by
  refine ⟨?_, fun n => ?_⟩
  · unfold Stn.movedOn Stn.advance Stn.putP pN
    rw [Stn.setP_eq]
  · exact Stn.preg_setP t (i.rd.toNat - 52) n v

theorem Stn.wroteV_putLanes (t : Stn) (d : Nat) (g : BitVec 64) (f : Nat → BitVec 32) : t.wroteV (t.putLanes d g f).advance d g f := by
  refine ⟨?_, fun r k hk => ?_⟩
  · unfold Stn.movedOn Stn.advance
    rw [Stn.putLanes_eq]
  · exact Stn.lane_putLanes t d g f r k hk

/-! ### Reads and stores of many bytes -/

theorem Stn.lsRead_go (m : List Host.Cell) (a n : Nat) : Stn.lsRead.go m a n = (List.range n).map (fun j => smGet 0 m (a + j)) := by
  induction n generalizing a with
  | zero => rfl
  | succ n ih =>
    rw [Stn.lsRead.go, ih, List.range_succ_eq_map]
    simp only [List.map_cons, List.map_map, Nat.add_zero]
    congr 1
    apply List.map_congr_left
    intro j _
    simp only [Function.comp]
    congr 1
    omega

/-- Reading the local store is reading its bytes. -/
theorem Stn.lsRead_eq (t : Stn) (a n : Nat) : t.lsRead a n = (List.range n).map (fun j => t.lsByte (a + j)) := Stn.lsRead_go t.ls a n

theorem toBytes_length (n v : Nat) : (toBytes n v).length = n := by
  induction n generalizing v with
  | zero => rfl
  | succ n ih => simp [toBytes, ih]

/-- Folding conditional stores of `n` bytes each at `a + n · j` keeps everything but the local store and its written bits. -/
theorem Stn.foldl_lsWrite (l : List Nat) (g : BitVec 64) (a n : Nat) (f : Nat → Nat) (t : Stn) (hn : 0 < n) :
    let u := l.foldl (fun t j => if g.getLsbD j then t.lsWrite (a + n * j) (toBytes n (f j)) else t) t
    u = { t with ls := u.ls, written := u.written } ∧
      ∀ b, u.lsByte b = if a ≤ b ∧ (b - a) / n ∈ l ∧ g.getLsbD ((b - a) / n) = true then (toBytes n (f ((b - a) / n))).getD ((b - a) % n) 0
        else t.lsByte b := by
  induction l generalizing t with
  | nil => exact ⟨rfl, by simp⟩
  | cons j l ih =>
    obtain ⟨h1, h2⟩ := ih (if g.getLsbD j then t.lsWrite (a + n * j) (toBytes n (f j)) else t)
    refine ⟨?_, fun b => ?_⟩
    · simp only [List.foldl_cons]
      rw [h1]
      split
      · rw [(Stn.lsWrite_law t (a + n * j) (toBytes n (f j))).1]
      · rfl
    · simp only [List.foldl_cons]
      rw [h2 b]
      by_cases hm : a ≤ b ∧ (b - a) / n ∈ l ∧ g.getLsbD ((b - a) / n) = true
      · rw [if_pos hm, if_pos ⟨hm.1, List.mem_cons_of_mem _ hm.2.1, hm.2.2⟩]
      · rw [if_neg hm]
        by_cases hg : g.getLsbD j = true
        · simp only [hg, if_true]
          rw [(Stn.lsWrite_law t (a + n * j) (toBytes n (f j))).2 b, toBytes_length]
          by_cases hb : a + n * j ≤ b ∧ b < a + n * j + n
          · have hq : (b - a) / n = j := by
              rw [Nat.div_eq_iff hn]
              have : j * n = n * j := Nat.mul_comm _ _
              omega
            have hr : (b - a) % n = b - (a + n * j) := by
              have := Nat.div_add_mod (b - a) n
              rw [hq] at this
              omega
            rw [if_pos hb, if_pos ⟨by omega, by rw [hq]; simp, by rw [hq]; exact hg⟩, hq, hr]
          · rw [if_neg hb, if_neg]
            rintro ⟨h3, h4, h5⟩
            rcases List.mem_cons.1 h4 with h6 | h6
            · apply hb
              have := Nat.div_add_mod (b - a) n
              have hlt := Nat.mod_lt (b - a) hn
              rw [h6] at this
              omega
            · exact hm ⟨h3, h6, h5⟩
        · rw [if_neg hg, if_neg]
          rintro ⟨h3, h4, h5⟩
          rcases List.mem_cons.1 h4 with h6 | h6
          · rw [h6] at h5; exact hg h5
          · exact hm ⟨h3, h6, h5⟩

/-- Setting bits of a predicate under a mask. -/
theorem maskBits_foldl (l : List Nat) (g : BitVec 64) (f : Nat → Bool) (p : BitVec 64) (k : Nat) (hk : k < 64) (hl : ∀ j ∈ l, j < 64) :
    (l.foldl (fun p k => if g.getLsbD k then (p &&& ~~~ BitVec.ofNat 64 (2 ^ k)) ||| (if f k then BitVec.ofNat 64 (2 ^ k) else 0) else p) p).getLsbD k =
      if k ∈ l ∧ g.getLsbD k = true then f k else p.getLsbD k := by
  induction l generalizing p with
  | nil => simp
  | cons j l ih =>
    have hj : j < 64 := hl j (by simp)
    simp only [List.foldl_cons]
    rw [ih _ (fun i hi => hl i (by simp [hi]))]
    by_cases hm : k ∈ l ∧ g.getLsbD k = true
    · rw [if_pos hm, if_pos ⟨List.mem_cons_of_mem _ hm.1, hm.2⟩]
    · rw [if_neg hm]
      have e (i : Nat) (hi : i < 64) : (BitVec.ofNat 64 (2 ^ i)).getLsbD k = decide (k = i) := by
        simp only [BitVec.getLsbD_ofNat, hk, decide_true, Bool.true_and, Nat.testBit_two_pow]
        exact decide_eq_decide.2 eq_comm
      have z : (0 : BitVec 64).getLsbD k = false := by simp
      have one : (if g.getLsbD j then (p &&& ~~~ BitVec.ofNat 64 (2 ^ j)) ||| (if f j then BitVec.ofNat 64 (2 ^ j) else 0) else p).getLsbD k =
          if k = j ∧ g.getLsbD j = true then f k else p.getLsbD k := by
        cases hg : g.getLsbD j with
        | false => simp
        | true =>
          simp only [if_true, BitVec.getLsbD_or, BitVec.getLsbD_and, BitVec.getLsbD_not, e j hj, hk, decide_true, Bool.true_and, and_true]
          by_cases hkj : k = j
          · cases hf : f j with
            | false => simp [hkj, hf]
            | true => subst hkj; simp only [if_true, e k hk, decide_true, Bool.not_true, Bool.and_false, Bool.or_true, hf]
          · cases hf : f j with
            | false => simp only [hkj, decide_false, Bool.not_false, Bool.and_true, if_false, Bool.false_eq_true, z, Bool.or_false]
            | true => simp only [if_true, e j hj, hkj, decide_false, Bool.not_false, Bool.and_true, Bool.or_false, if_false]
      rw [one]
      by_cases hkj : k = j ∧ g.getLsbD j = true
      · rw [if_pos hkj, if_pos ⟨by simp [hkj.1], by rw [hkj.1]; exact hkj.2⟩]
      · rw [if_neg hkj, if_neg]
        rintro ⟨h1, h2⟩
        rcases List.mem_cons.1 h1 with h3 | h3
        · exact hkj ⟨h3, by rw [← h3]; exact h2⟩
        · exact hm ⟨h3, h2⟩

theorem maskBits_bit (old g : BitVec 64) (f : Nat → Bool) (k : Nat) (hk : k < 64) :
    (maskBits old g f).getLsbD k = if g.getLsbD k = true then f k else old.getLsbD k := by
  have := maskBits_foldl (List.range 64) g f old k hk (by simp)
  simpa [maskBits, hk] using this

end Sys2Proof.Machine
end

