-- ==== Sys2Proof/WellFormed.lean ====
section
/-!
DEFINITION. Commands whose operands the hardware can present: what the operand types leave open is bounded here by the widths of the fields the
operands stand for (Tables 5-4, 6-9, 10-3, 10-7, 14-10). The machine is total on ill-formed commands too.
-/
namespace Sys2Proof

/-- A packet carries at most 192 bytes inline or 8 data flits of 256 bytes (R281), and LEN fits its field. -/
def Packet.wf (k : Packet) : Bool := decide (k.payload.length ≤ 2048)

/-- A capability block names a port 0 to 13 (R268). -/
def CapBlock.wf (c : CapBlock) : Bool := decide (c.port.toNat < 14)

/-- A flit's body holds at most 256 bytes, and its packet is one (R270). -/
def FlitBody.wf : FlitBody → Bool
  | .header k => k.wf
  | .data bs => decide (bs.length ≤ 256)
  | .audit cs => cs.length == 8
  | .cap c => c.wf
  | _ => true

/-- Results of start-up training fit the registers that report them (Tables 5-4 and 5-17). -/
def StackTrain.wf (r : StackTrain) : Bool :=
  decide (r.dies < 32) && decide (r.gib < 256) && decide (r.temp < 256) && decide (r.lanesRep < 256) && decide (r.margin < 256)

/-- Results of a training pass fit the registers that report them. -/
def TrainPass.wf (r : TrainPass) : Bool := decide (r.temp < 256) && decide (r.margin < 256)

/-- A quarter has four controllers and four stacks; Table 6-9 has eight tests. -/
def QuarterUp.wf (r : QuarterUp) : Bool :=
  r.tests.length == 4 && r.tests.all (fun t => decide (t ≤ 8)) && r.temps.length == 4 && r.temps.all (fun t => decide (t < 256))

/-- A sample of the recorder fits its record (Table 14-10). -/
def Sample.wf : Sample → Bool
  | .stkTemp _ t => decide (t < 256)
  | .supply mv v => mv.length == 48 && mv.all (fun x => decide (x < 65536)) && decide (v < 8192)
  | .power p => decide (p < 4096)

/-- The cells a read finds changed lie in frames of a stack (Table 5-1). -/
def ReadErr.wf (e : ReadErr) : Bool := e.flips.all (fun f => decide (f.page.toNat < 1572864))

/-- Well-formed commands. -/
def Instr.wf : Instr → Bool
  | .rd _ k | .wr _ k | .rdata _ k | .cmplPacket _ k | .abort _ k | .hint _ k | .vopOpen _ k | .vopClose _ k | .vopBegin _ k | .vopPublish _ k
  | .vopDiscard _ k | .vrd _ k | .vwr _ k | .rdshared _ k | .rdown _ k | .upgrade _ k | .call _ k => k.wf
  | .evclean _ k | .wbdirty _ k | .rspi _ k | .rspdata _ k | .rspok _ k | .stashack _ k | .stashref _ k | .binv _ k | .back _ k | .dead _ k
  | .mwr _ k | .mcall _ k | .mrep _ k | .sync _ k | .followUp _ k | .cfgRd _ k | .cfgWr _ k | .hwack _ k | .hrdata _ k | .attReq _ k | .kexCt _ k
  | .fwApply _ k | .auth _ k | .extend _ k | .endSession _ k | .evrClear _ k => k.wf
  | .fwStage _ k _ => k.wf
  | .cap _ c => c.wf
  | .retrainEnd _ c => c.wf
  | .trainingEnd _ r => match r.cap with | some c => c.wf | none => true
  | .flitReceive _ f _ => f.body.wf
  | .audit _ cs => cs.length == 8
  | .stackTrainingEnd _ r => r.wf
  | .periodicRetrain _ r | .tempDriftRetrain _ r | .trainingStartCmd _ _ r => r.wf
  | .selfRefreshExitEnd _ t => decide (t < 256)
  | .stackRequestArrival _ _ e | .columnCommandIssue _ _ e | .migrationCopyEnd _ _ e => e.wf
  | .codeRebuild _ e | .foldAgeFlush _ e | .rebuildUnitEnd _ e | .scrubPage _ e => e.wf
  | .quarterReturn _ r => r.wf
  | .evrSample x => x.wf
  | _ => true

end Sys2Proof
end

