-- ==== Sys2Proof/Tests/Slice0.lean ====
section
/-!
SUPPORT. The tests: ill-formed commands that the well-formedness check refuses, words written out from the tables of the spec, small steps with
results computed by hand from the spec, and for every statement with hypotheses a state and operands that meet them.
-/
open Sys2Proof Sys2Proof.Machine

/-! ### Small states -/

/-- Site 0 of quarter 0. -/
def T.x : SiteId := ⟨0, 0⟩
/-- The device out of power-on reset. -/
def T.up : State := { power := { porst := false } }
/-- The station of site 0 runs a program of one word, on top of the station `t`. -/
def T.run (word : BitVec 64) (t : Stn := {}) : State := (T.up.setStn 0 { t with run := true, code := [word] }).setSiteState 0 3
/-- The low bits of a word: its register fields, MOD and IMM. -/
def T.w (rd ra rb rc : Nat) (imm : Nat := 0) (mod : Nat := 0) : BitVec 54 :=
  BitVec.ofNat 54 (imm + 2 ^ 20 * rc + 2 ^ 26 * rb + 2 ^ 32 * ra + 2 ^ 38 * rd + 2 ^ 44 * mod)
/-- The word of class `c`, operation `o` and low bits `w`, issued by a station `t`, is ready. -/
def T.ok (c o : Nat) (w : BitVec 54) (h : Shape) (t : Stn := {}) : Bool :=
  let word := mifelWord (BitVec.ofNat 4 c) (BitVec.ofNat 6 o) w
  (T.run word t).ready T.x word h
/-- The word of class `c`, operation `o` and low bits `w` can be issued, and is illegal. -/
def T.bad (c o : Nat) (w : BitVec 54) (h : Shape) : Bool :=
  let word := mifelWord (BitVec.ofNat 4 c) (BitVec.ofNat 6 o) w
  (T.run word).canIssue 0 word && h.illegal (insnOf word)

/-- The next state a command answers. -/
def T.after (o : Host.Outcome State Fault Refusal) : State := match o with | .next u => u | _ => {}

/-! ### Ill-formed commands -/

theorem test_packet_payload_bound :
    (Instr.rd 12 { payload := List.replicate 2049 0 }).wf = false ∧ (Instr.rd 12 { payload := List.replicate 2048 0 }).wf = true := by decide +kernel
theorem test_cap_port_bound : ∀ c : CapBlock, c.port = 14 → (Instr.cap 0 c).wf = false := by
  intro c h; simp [Instr.wf, CapBlock.wf, h]
theorem test_flit_data_bound : ∀ f : Flit, f.body = .data (List.replicate 257 0) → (Instr.flitReceive 0 f ⟨0, false, true⟩).wf = false := by
  intro f h; simp only [Instr.wf, h, FlitBody.wf, List.length_replicate]; decide
theorem test_flit_header_bound : ∀ (f : Flit) (k : Packet), f.body = .header k → k.wf = false → (Instr.flitReceive 0 f ⟨0, false, true⟩).wf = false := by
  intro f k h hk; simp only [Instr.wf, h, FlitBody.wf, hk]
theorem test_audit_has_eight_counts : (Instr.audit 0 [1, 2, 3]).wf = false ∧ (Instr.audit 0 (List.replicate 8 5)).wf = true := by decide +kernel
theorem test_stack_training_bounds : (Instr.stackTrainingEnd 0 ⟨true, 32, 4, 40, true, 0, 0, 0, none⟩).wf = false := by decide +kernel
theorem test_training_pass_bounds : (Instr.periodicRetrain 0 ⟨256, 0, 0⟩).wf = false := by decide +kernel
theorem test_quarter_return_bounds : (Instr.quarterReturn 0 ⟨true, [0, 0, 0], [0, 0, 0, 0]⟩).wf = false ∧
    (Instr.quarterReturn 0 ⟨true, [0, 9, 0, 0], [0, 0, 0, 0]⟩).wf = false := by decide +kernel
theorem test_sample_bounds : (Instr.evrSample (.stkTemp 0 256)).wf = false ∧ (Instr.evrSample (.power 4096)).wf = false ∧
    (Instr.evrSample (.supply [] 0)).wf = false := by decide +kernel
theorem test_self_refresh_temperature_bound : (Instr.selfRefreshExitEnd 0 256).wf = false := by decide +kernel
theorem test_rebuild_page_bound : (Instr.rebuildUnitEnd 0 ⟨[{ x := 0, page := 1572864, line := 0, sym := 0, v := 1 }]⟩).wf = false := by decide +kernel

/-! ### Words, and hypotheses of the statements about station instructions -/

-- Table 8-2: CLASS 63:60, OP 59:54, PN 53, PG 52:50, MOD 49:44, RD 43:38, RA 37:32, RB 31:26, RC 25:20, IMM 19:0.
theorem test_word_of_mmaz : mifelInstr T.x 0x4041BC0059700002#64 = .mmaz T.x 0x1BC0059700002#54 := by decide +kernel
theorem test_word_of_add : mifelInstr T.x (0b0000#4 ++ 0b000000#6 ++ T.w 3 1 2 0) = .add T.x (T.w 3 1 2 0) := by decide +kernel
theorem test_word_of_pget : mifelInstr T.x (0b0110#4 ++ 0b000000#6 ++ T.w 1 2 3 0 15) = .pget T.x (T.w 1 2 3 0 15) := by decide +kernel
theorem test_add_wraps :
    let u := T.after (exec (.add T.x (T.w 3 1 2 0)) (T.run (0x0#4 ++ 0x00#6 ++ T.w 3 1 2 0) { s := [(1, 5), (2, 0xFFFFFFFFFFFFFFFF)] }))
    (u.stn 0).sreg 3 = 4 ∧ (u.stn 0).pc = 1 := by and_intros <;> decide +kernel

theorem wit_MifelOnlyTheWordAtThePcActs :
    mifelCode (.add T.x 1) = some (T.x, 1) ∧ (T.run 0).canIssue (siteKey T.x) 1 = false := by and_intros <;> decide +kernel
theorem wit_ScalarRegisterInstructions : (∀ op ∈ List.range 14, T.ok 0 op (T.w 31 1 2 0) { rd := some .s, ra := some .s, rb := some .s, formT := true } = true) ∧
    T.bad 0 0 (T.w 32 1 2 0) { rd := some .s, ra := some .s, rb := some .s, formT := true } = true := by and_intros <;> decide +kernel
theorem wit_ScalarImmediateInstructions :
    (∀ op ∈ [0x10, 0x11, 0x12, 0x13, 0x14, 0x15, 0x16], T.ok 0 op (T.w 3 1 63 63 0xFFFFF) { rd := some .s, ra := some .s, formI := true } = true) ∧
    T.ok 0 0x17 (T.w 3 0 63 0 7) { rd := some .s, formI := true } = true ∧ T.ok 0 0x18 (T.w 3 0 0 63 7) { rd := some .s, formI := true } = true ∧
    T.ok 0 0x2D (T.w 3 59 0 0) { rd := some .s, ra := some .p, formT := true } = true := by and_intros <;> decide +kernel
theorem wit_PredicateInstructions :
    (∀ op ∈ [0x28, 0x29, 0x2A], T.ok 0 op (T.w 53 52 59 0) { rd := some .p, ra := some .p, rb := some .p, formT := true } = true) ∧
    T.ok 0 0x2B (T.w 53 52 0 0) { rd := some .p, ra := some .p, formT := true } = true ∧
    T.ok 0 0x2C (T.w 53 1 0 0) { rd := some .p, ra := some .s, formT := true } = true ∧
    (∀ cc ∈ [0, 5], T.ok 0 0x20 (T.w 53 1 2 0 0 cc) { rd := some .p, ra := some .s, rb := some .s, mods := 7, formT := true } = true ∧
      T.ok 0 0x21 (T.w 53 1 0 0 9 cc) { rd := some .p, ra := some .s, mods := 7, formI := true } = true) ∧
    (6 ≤ (insnOf (mifelWord 0 0x20 (T.w 53 1 2 0 0 6))).modBits 0 3) := by and_intros <;> decide +kernel
theorem wit_BranchInstructions : T.ok 1 0 (T.w 0 0 0 0) { formI := true } = true ∧ T.ok 1 1 (T.w 4 0 0 0 1) { rd := some .s, formI := true } = true ∧
    T.ok 1 2 (T.w 0 1 0 0) { ra := some .s, formT := true } { s := [(1, 0)] } = true := by and_intros <;> decide +kernel
theorem wit_LocalStoreLoads : T.ok 2 0 (T.w 3 1 0 0) { rd := some .s, ra := some .s } { s := [(1, 2097144)] } = true ∧
    T.ok 2 1 (T.w 3 1 0 0) { rd := some .s, ra := some .s } = true ∧ T.ok 2 4 (T.w 33 1 0 0) { rd := some .v, ra := some .s, lanes := true } = true ∧
    T.ok 2 6 (T.w 47 1 0 0) { rd := some .v, ra := some .s, lanes := true } = true ∧ Stn.readStalls {} 2097144 8 = false := by and_intros <;> decide +kernel
theorem wit_LocalStoreStores : T.ok 2 2 (T.w 0 1 3 0) { ra := some .s, rb := some .s } { s := [(1, 2097144)] } = true ∧
    T.ok 2 3 (T.w 0 1 3 0) { ra := some .s, rb := some .s } = true ∧ T.ok 2 5 (T.w 0 1 33 0) { ra := some .s, rb := some .v, lanes := true } = true ∧
    T.ok 2 7 (T.w 0 1 33 0) { ra := some .s, rb := some .v, lanes := true } = true ∧ Stn.writeStalls {} 2097144 8 = false := by and_intros <;> decide +kernel
theorem wit_VectorLaneInstructions :
    (∀ op ∈ [0x00, 0x01, 0x02, 0x04, 0x05, 0x12, 0x13, 0x14, 0x15, 0x16],
      T.ok 3 op (T.w 32 33 47 0) { rd := some .v, ra := some .v, rb := some .v, formT := true, lanes := true } = true) ∧
    (∀ op ∈ [0x06, 0x07, 0x08, 0x09, 0x0A], T.ok 3 op (T.w 32 33 0 0) { rd := some .v, ra := some .v, formT := true, lanes := true } = true) ∧
    T.ok 3 0x03 (T.w 32 33 34 35) { rd := some .v, ra := some .v, rb := some .v, rc := some .v, formT := true, lanes := true } = true ∧
    T.ok 3 0x0C (T.w 32 33 34 53) { rd := some .v, ra := some .v, rb := some .v, rc := some .p, formT := true, lanes := true } = true ∧
    T.ok 3 0x0D (T.w 32 5 0 0) { rd := some .v, ra := some .s, formT := true, lanes := true } = true ∧
    T.ok 3 0x0F (T.w 32 0 0 0) { rd := some .v, formT := true, lanes := true } = true ∧
    T.ok 3 0x17 (T.w 32 33 0 0 0 4) { rd := some .v, ra := some .v, mods := 7, formT := true, lanes := true } = true := by and_intros <;> decide +kernel
theorem wit_VectorReductionsAndTests : T.ok 3 0x0E (T.w 3 33 0 0 63) { rd := some .s, ra := some .v } = true ∧
    T.ok 3 0x10 (T.w 3 33 0 0) { rd := some .s, ra := some .v, formT := true, lanes := true } = true ∧
    T.ok 3 0x11 (T.w 3 33 0 0) { rd := some .s, ra := some .v, formT := true, lanes := true } = true ∧
    T.ok 3 0x0B (T.w 53 33 34 0 0 3) { rd := some .p, ra := some .v, rb := some .v, mods := 7, formT := true, lanes := true } = true := by and_intros <;> decide +kernel
/-- An mma of length 32 into accumulator 0. -/
def T.mma : MmaOp := { serial := 0, acc := 0, zero := true, fa := 1, fw := 1, a := 0, w := 0, len := 32, au := false, wu := false, wt := false, stride := 0 }
theorem wit_ArrayQueueInstructions :
    (∀ op ∈ [0, 1], T.ok 4 op (T.w 48 1 2 3) { rd := some .acc, ra := some .s, rb := some .s, rc := some .s, mods := 63, rsvd := 0xF8 }
      { s := [(3, 32)] } = true) ∧
    ((T.run 0 { queue := [T.mma] }).stn (siteKey T.x)).queue = [T.mma] := by and_intros <;> decide +kernel
theorem wit_AccumulatorInstructions : T.ok 4 2 (T.w 51 0 0 0) { rd := some .acc } = true ∧
    T.ok 4 4 (T.w 33 48 0 0 15) { rd := some .v, ra := some .acc } = true ∧ T.ok 4 5 (T.w 48 33 0 0 15) { rd := some .acc, ra := some .v } = true ∧
    T.ok 4 3 (T.w 0 1 48 0) { ra := some .s, rb := some .acc, mods := 15 } = true ∧
    T.ok 4 2 (T.w 48 0 0 0) { rd := some .acc } { queue := [T.mma] } = true := by and_intros <;> decide +kernel
theorem wit_WeftSends :
    T.ok 5 0 (T.w 0 1 2 0 3) { ra := some .s, rb := some .s } { s := [(2, 65536)], routes := [(3, 0x8000000000000000)] } = true ∧
    (Stn.route { routes := [(3, 0x8000000000000000)] } 3).testBit 63 = true ∧ (Stn.route { routes := [(3, 0x8000000000000000)] } 3).testBit 62 = false ∧
    T.ok 5 2 (T.w 0 1 0 0 3) { ra := some .s } { routes := [(3, 0x8000000000000000)] } = true := by and_intros <;> decide +kernel
theorem wit_WeftReceives :
    T.ok 5 1 (T.w 0 1 2 0 3) { ra := some .s, rb := some .s } { s := [(2, 32)], routes := [(3, 0xC000000000000000)] } = true ∧
    (Stn.route { routes := [(3, 0xC000000000000000)] } 3).testBit 62 = true ∧ (∀ p, p < 5 → smGet ([] : List WFlit) (Stn.sw {}) p = []) ∧
    T.ok 5 3 (T.w 4 0 0 0 3) { rd := some .s } { routes := [(3, 0xC000000000000000)] } = true := by and_intros <;> decide +kernel
theorem wit_PoolInstructionsIssue :
    (∀ op ∈ [0], T.ok 6 op (T.w 1 2 3 0 15) { rd := some .s, ra := some .s, rb := some .s, mods := 7 } { s := [(3, 8)] } = true) ∧
    T.ok 6 2 (T.w 1 2 3 4 14) { rd := some .s, ra := some .s, rb := some .s, rc := some .s, mods := 7 } { s := [(3, 262144)] } = true ∧
    T.ok 6 1 (T.w 1 2 3 4 0 0x17) { rd := some .s, ra := some .s, rb := some .s, rc := some .s, mods := 31 } { s := [(3, 8)] } = true ∧
    T.ok 6 3 (T.w 1 2 3 4) { rd := some .s, ra := some .s, rb := some .s, rc := some .s, mods := 7 } { s := [(3, 8)] } = true ∧
    (∀ sub ∈ List.range 5, T.ok 6 4 (T.w 0 2 3 0 (16 * sub)) { ra := some .s, rb := some .s, mods := 7 } = true ∧
      (insnOf (mifelWord 6 4 (T.w 0 2 3 0 (16 * sub)))).imm.toNat / 16 % 8 = sub) ∧
    5 ≤ (insnOf (mifelWord 6 4 (T.w 0 2 3 0 (16 * 5)))).imm.toNat / 16 % 8 ∧
    T.ok 6 6 (T.w 0 2 3 0 0x30) { ra := some .s, rb := some .s, mods := 7 } { s := [(3, 8)] } = true := by and_intros <;> decide +kernel
/-- A read of 8 bytes by a station, not sent yet; with ticket 3. -/
def T.op : PoolOp := { serial := 0, ticket := 3, ch := 0, kind := .read, len := 8 }
theorem wit_AbortInstruction :
    T.ok 6 5 (T.w 0 0 0 0 (4 + 16 * 3)) {} { ops := [T.op], tickets := [(3, { op := some 0 })] } = true ∧ T.op.req = none ∧
    Stn.ticketBusy { ops := [T.op], tickets := [(3, { op := some 0 })] } 4 = false ∧
    T.ok 6 5 (T.w 0 0 0 0 (4 + 16 * 15)) {} = true ∧ T.ok 6 5 (T.w 0 0 0 0 (4 + 16 * 3)) {} = true ∧
    (let r : Req := { id := 7, chan := ⟨3, siteEng 0, 0⟩, tag := 9, kind := .read, seg := 0, addr := 0, len := 8, dest := .station 0 0 }
     let o : PoolOp := { T.op with req := some 7 }
     let s : State := { T.run 0 { ops := [o], tickets := [(3, { op := some 0 }), (4, { op := some 5 })] } with ord := { reqs := [r] } }
     ((s.stn 0).ticket 3).op.bind (fun m => (s.stn 0).ops.find? (fun o => o.serial == m)) = some o ∧ s.req 7 = some r ∧ s.req 8 = none ∧
       (smGet {} ((s.abort r.chan r.tag).2.stn 0).tickets 4).op = some 5) := by and_intros <;> decide +kernel
/-- A completed request of the station of site 0. -/
def T.done (d : Dest) (st : Status) : Done :=
  { dest := d, out := ⟨0, 0, false, st, st, false, 0, 0⟩, failed := [], data := List.replicate 8 0 }
theorem wit_StationPoolCompletions :
    (let s := { (T.run 0 { ops := [T.op] }) with ord := { done := [T.done (.station 0 0) .ok] } }
     s.ord.done = [] ++ T.done (.station 0 0) .ok :: [] ∧ (T.done (.station 0 0) .ok).dest = .station (siteKey T.x) 0 ∧
       (s.stn 0).ops.find? (fun o => o.serial == 0) = some T.op ∧ s.isRefusal 0 T.op (T.done (.station 0 0) .ok).out = false) ∧
    ((T.run 0 { ops := [T.op] }).setFld F.XLT_SEG_ATTR_REMOTE 1 0 0 0).isRefusal 0 T.op (T.done (.station 0 0) .busy).out = true ∧ T.op.tries < 15 ∧
    (((T.run 0 { ops := [T.op] }).stn 0).ops.filter (fun o => o.ch == 0)).filter (fun o => o.req.isNone) = [T.op] ∧
    (let s := T.run 0
     (s.stn 0).refill = none ∧ s.siteState 0 = 3 ∧ (s.stn 0).run = true ∧ (s.stn 0).pc < (s.stn 0).code.length) ∧
    (let s := { (T.run 0 { refill := some 0 }) with ord := { done := [T.done (.refill 0) .ok] } }
     (s.stn 0).refill = some 0 ∧ s.ord.done.find? (fun d => d.dest == .refill 0) = some (T.done (.refill 0) .ok) ∧ 32 * 0 ≤ (s.stn 0).code.length) := by
  and_intros <;> decide +kernel
theorem wit_HandleAndSystemReads :
    (∀ op ∈ [8, 9], T.ok 6 op (T.w 3 1 53 0) { rd := some .s, ra := some .s, rb := some .p } = true) ∧
    T.ok 7 9 (T.w 3 0 0 0 7) { rd := some .s } = true := by and_intros <;> decide +kernel
theorem wit_WaitInstructions : T.ok 7 0 (T.w 0 0 0 0) {} = true ∧
    (∀ op ∈ [(1, 1), (3, 0), (4, 0)], T.ok 7 op.1 (T.w 3 0 0 0 14) { rd := some .s, mods := op.2 } = true) ∧
    T.ok 7 1 (T.w 3 0 0 0 2 1) { rd := some .s, mods := 1 } { tickets := [(2, { status := .poison })] } = true ∧
    T.ok 7 2 (T.w 3 0 0 0 7 1) { rd := some .s, mods := 1 } { chst := [(7, .poison)] } = true ∧
    T.ok 7 2 (T.w 3 0 0 0 0) { rd := some .s, mods := 1 } { ops := [{ T.op with ticket := 15 }] } = true ∧
    T.ok 7 5 (T.w 0 0 0 0 15) {} = true ∧ T.ok 7 5 (T.w 0 0 0 0 1) {} { queue := [T.mma] } = true := by and_intros <;> decide +kernel
/-- A call of draft 0 of loom 0 that waits for the station of site 0. -/
def T.call : Call := { loom := 0, entry := 0, tag := 0, ch := 0, arg := 0, rmode := 0, failv := false, repEp := 0, failEp := 0, jid := 0, slots := 0
                       draft := 0, pcsel := 0, wait := [0] }
/-- Loom 0 with one draft of one site. -/
def T.loom (run : Option Call) : LoomSt :=
  { drafts := [{ q := 0, row := 0, col := 0, rows := 1, cols := 1, run := run }], stns := [⟨0, 0, 1, 0, [0]⟩], sites := [0] }
/-- Loom 0 runs a call on the station of site 0, whose program is one word. -/
def T.calls (word : BitVec 64) (t : Stn := {}) : State :=
  { (T.run word { t with loom := some 0 }) with lm := { looms := [(0, T.loom (some T.call))] } }
theorem wit_BeatCompletionAndHalt :
    (∀ pausing ∈ [true, false], (T.calls (mifelWord 7 6 0) { pausing := pausing }).ready T.x (mifelWord 7 6 0) {} = true) ∧
    (T.calls (mifelWord 7 7 (T.w 0 1 2 0))).ready T.x (mifelWord 7 7 (T.w 0 1 2 0)) { ra := some .s, rb := some .s } = true ∧
    (T.calls (mifelWord 7 7 (T.w 0 1 2 0))).callOf 0 = some (0, 0, T.call) ∧ T.call.cmpl = none ∧
    (T.calls (mifelWord 7 8 0)).ready T.x (mifelWord 7 8 0) {} = true := by and_intros <;> decide +kernel
theorem wit_TrapRecordsAndStops :
    (let word : BitVec 64 := mifelWord 9 0 (T.w 0 0 0 0 0xA5)
     (T.run word).canIssue 0 word = true ∧ mifelInstr T.x word = .trap T.x word ∧ (insnOf word).cls = 9 ∧ (insnOf word).op = 0 ∧ (insnOf word).mod = 0 ∧
       (insnOf word).rd.toNat < 60 ∧ (insnOf word).ra.toNat < 60 ∧
       (Stn.guard {} (insnOf word)).getLsbD 0 = true) ∧
    (let word : BitVec 64 := 0xF000000000000000
     (T.run word).canIssue 0 word = true ∧ mifelInstr T.x word = .trap T.x word ∧ (insnOf word).cls ≠ 9) := by and_intros <;> decide +kernel
theorem wit_GenerationInstructions : T.ok 8 0 (T.w 32 0 0 0) { rd := some .v } = true ∧
    (∀ op ∈ [2, 3], T.ok 8 op (T.w 48 33 0 0) { rd := some .acc, ra := some .v } = true) ∧ T.ok 8 7 (T.w 32 0 0 0) { rd := some .v } = true ∧
    T.ok 8 8 (T.w 0 1 0 0) { ra := some .s } = true ∧ T.ok 8 5 (T.w 32 33 1 0) { rd := some .v, ra := some .v, rb := some .s } = true ∧
    T.ok 8 6 (T.w 32 33 1 2) { rd := some .v, ra := some .v, rb := some .s, rc := some .s } = true := by and_intros <;> decide +kernel
theorem wit_SoftmaxUpdateAndTreeMasks : T.ok 8 1 (T.w 32 48 33 1 1) { rd := some .v, ra := some .acc, rb := some .v, rc := some .s } = true ∧
    T.ok 8 4 (T.w 32 1 2 3 (1 + 32 * 16)) { rd := some .v, ra := some .s, rb := some .s, rc := some .s } { ls := [(0, 1)] } = true ∧
    treeOk (1 :: List.replicate 23 0) = true := by and_intros <;> decide +kernel

/-! ### Hypotheses of the statements about links and the hub -/

/-- Port 0 is enabled and in state `st` of Table 10-2, its link as `l`. -/
def T.port (st : Nat) (l : Link := {}) (p : Nat := 0) : State :=
  ((T.up.setFld F.PORT_CTL_EN 1 p).setFld F.PORT_LNK_STAT_STATE st p).setLink p l
/-- A capability block of version 1. -/
def T.cap : CapBlock := ⟨7, 3, 1, false, false, false, false, 5, 0x0202020202020202, 0, true, 0, 0⟩
/-- A NULL flit with SEQ `n`. -/
def T.flit (n : Nat) (b : FlitBody := .null) : Flit := ⟨BitVec.ofNat 12 n, 0, false, 0, false, false, 0, 0, 0, b⟩

theorem wit_PortConfigurationWritesStore :
    T.up.admits .tl0 .PORT_CTL 13 ∧ T.up.admits .coreQ0 .PORT_CRD_CFG 0 ∧
    (∀ st ∈ [3, 7], ((T.port st).wakeFor .tl0).portState 0 = st ∧ (T.port st).admits .tl0 .PORT_CTL 0) ∧ F.PORT_CTL_EN.of 0x28144BD7 = 1 ∧
    (T.up.wakeFor .tl0).role 0 = F.PORT_CTL_ROLE.of (T.up.regVal .PORT_CTL 0) ∧ 4 ≤ F.PORT_CTL_ROLE.of (T.up.regVal .PORT_CTL 0 ||| 14) := by
  simp only [State.admits]; and_intros <;> decide +kernel
theorem wit_RetrainsLeaveUpWithTheirCause :
    (T.port 3).portUp 0 = true ∧ (T.port 3).quarterDown (portQuarter 0) = false ∧
    (let s : State := { T.port 3 with now := 1000 }; (s.link 0).goodAt + 1000 ≤ s.now) ∧
    (let s : State := { (T.port 3).setFld F.PORT_CRD_STAT_PEND 1 0 with now := 100000000 }
     s.flag F.PORT_CRD_STAT_PEND 0 = true ∧ (s.link 0).queues = [] ∧ (s.link 0).unacked = [] ∧ (s.link 0).busyAt + 1000 ≤ s.now ∧
       (s.link 0).leakAt + 100000000 ≤ s.now ∧ s.portUp 0 = true) ∧
    T.up.portUp 0 = false ∧ (T.port 3).now < ((T.port 3).link 0).goodAt + 1000 ∧ (T.port 3).flag F.PORT_CRD_STAT_PEND 0 = false ∧
    (T.port 3 {} 13).admits .tl1 .PORT_TRN_CMD 13 ∧ ((T.port 3 {} 13).wakeFor .tl1).portUp 13 = true ∧
    ((T.port 3 {} 13).wakeFor .tl1).quarterDown (portQuarter 13) = false := by
  simp only [State.admits]; and_intros <;> decide +kernel
theorem wit_FullTrainingsStart :
    (∀ st ∈ [0, 1], (T.port st).flag F.PORT_CTL_EN 0 = true ∧ (T.port st).quarterDown (portQuarter 0) = false ∧ (T.port st).portState 0 = st) ∧
    (let s : State := { T.port 7 with now := 10000000 }; s.portState 0 = 7 ∧ (s.link 0).downAt + 10000000 ≤ s.now) ∧
    (let s : State := { T.port 7 with now := 9999999 }; s.now < (s.link 0).downAt + 10000000) ∧
    (T.port 7).admits .tl0 .PORT_TRN_CMD 0 ∧ ((T.port 7).wakeFor .tl0).portState 0 = 7 ∧ ((T.port 7).wakeFor .tl0).flag F.PORT_CTL_EN 0 = true ∧
    T.up.flag F.PORT_CTL_EN 0 = false ∧ (T.port 6).portState 0 ∈ [2, 3, 4, 5, 6] := by
  simp only [State.admits]; and_intros <;> decide +kernel
theorem wit_TrainingsEndUpOrDown :
    (T.port 3).portState 0 ≠ 2 ∧ (T.port 2).portState 0 = 2 ∧ (T.port 2).flag F.PORT_CTL_W4_EN 0 = true ∧
    (0x7E#8).toNat % 16 ≠ 15 ∧ (0x7E#8).toNat / 16 ≠ 15 ∧ ((T.port 2).link 0).capSeen = none ∧ T.cap.ver = 1 ∧ { T.cap with ver := 2 }.ver ≠ 1 ∧
    (let l : Link := { echoes := List.replicate 16 100 }
     (T.port 2 l 11).portState 11 = 2 ∧ (((T.port 2 l 11).link 11).echoes).length = 16 ∧ (T.port 2 l 11).quarterDown (portQuarter 11) = false ∧
       fibreUnits (l.echoes.foldl (· + ·) 0) ≤ 200) := by and_intros <;> decide +kernel
theorem wit_LinkControlBlocksAndEchoes :
    (T.port 2).portState 0 = 2 ∧ (∀ st ∈ [4, 6], (T.port st { pincarn := 5 }).portState 0 = st) ∧
    T.cap.deviceId.toNat ≠ (T.port 4).regVal .PORT_PARTNER_ID 0 ∧ T.cap.rsync = true ∧
    (let s := (T.port 4 { pincarn := 5 }).setReg .PORT_PARTNER_ID 7 0
     T.cap.deviceId.toNat = s.regVal .PORT_PARTNER_ID 0 ∧ T.cap.incarn = (s.link 0).pincarn ∧ (s.link 0).unacked = [] ∧ s.portState 0 = 4 ∧
       s.quarterDown (portQuarter 0) = false) ∧
    ((T.port 2 { echoes := List.replicate 15 9 }).link 0).echoes.length < 16 ∧
    (let s := (T.port 1).setFld F.PORT_CTL_BEACON 1 0; s.flag F.PORT_CTL_BEACON 0 = true ∧ s.portState 0 ∈ [1, 7] ∧ (s.link 0).beaconAt = 0) ∧
    (let s : State := { T.port 4 with now := 655350000 }
     (s.link 0).retrainAt + s.fld1 F.PORT_CTL_RTRN_TMO 0 * 10000 ≤ s.now ∧ s.fld F.PORT_LNK_STAT_RT_FAILS 0 < 2) ∧
    2 ≤ ((T.port 4).setFld F.PORT_LNK_STAT_RT_FAILS 2 0).fld F.PORT_LNK_STAT_RT_FAILS 0 := by and_intros <;> decide +kernel
theorem wit_LinksGoDownAndAuditsFindLostCredits :
    (T.port 2).admits .tl0 .PORT_TRN_CMD 0 ∧ (∀ st ∈ [2, 3, 4, 5, 6, 0, 1, 7], ((T.port st).wakeFor .tl0).portState 0 = st) ∧
    ((T.port 2).wakeFor .tl0).quarterDown (portQuarter 0) = false ∧
    (let s : State := { T.port 3 with now := 255000000 }; (s.link 0).goodAt + max 1 (s.fld F.PORT_CTL_LOSS_MS 0) * 1000000 ≤ s.now) ∧
    (let s : State := { T.port 3 with now := 10000000000 }
     s.portUp 0 = true ∧ s.fld F.PORT_TIMERS_AUDIT 0 ≠ 0 ∧ (s.link 0).auditAt + s.fld F.PORT_TIMERS_AUDIT 0 * 10000 ≤ s.now ∧
       (s.link 0).unacked.length < 2048 ∧ (s.link 0).unitsUsed < 4096) ∧
    (T.port 4).portState 0 ∈ [3, 4] ∧ (T.port 5).portState 0 ∉ [3, 4] := by
  simp only [State.admits]; and_intros <;> decide +kernel
theorem wit_PortsSleepAndWake :
    (T.port 3).portUp 0 = true ∧ (T.port 3).power.deep ≠ 1 ∧ ((T.port 3).link 0).queues = [] ∧ ((T.port 3).link 0).unacked = [] ∧
    ((T.port 3 { queues := [(511, [⟨{}, 0⟩])] }).link 0).queues ≠ [] ∧ ((T.port 3 { sleepReq := true }).link 0).sleepReq = true ∧
    (T.port 3 { sleepReq := true }).portUp 0 = true ∧ (T.port 3 { sleepReq := true }).power.deep = 0 ∧
    (let s := T.port 3 { sleepReq := true }; let s : State := { s with power := { s.power with deep := 2 } }
     s.portUp 0 = true ∧ s.power.deep ≠ 1 ∧ s.power.deep ≠ 0 ∧ (s.link 0).sleepReq = true) ∧
    (let s := T.port 5 { queues := [(511, [⟨{}, 0⟩])] }; s.portState 0 = 5 ∧ (s.link 0).queues ≠ []) ∧
    (∀ st ∈ [5, 6, 3], (T.port st).portState 0 = st) ∧ (T.port 5).power.deep = 0 := by and_intros <;> decide +kernel
theorem wit_FlitsAreAcceptedInSequence :
    (T.port 3).portState 0 = 3 ∧ (T.flit 0 (.lctl 0 0)).body = .lctl 0 0 ∧ (T.flit 0).seq.toNat = ((T.port 3).link 0).expect ∧
    (T.flit 4095).seq.toNat ≠ ((T.port 3).link 0).expect ∧ (0 + 4096 - (T.flit 4095).seq.toNat) % 4096 = 1 ∧
    (let s : State := { T.port 3 { unacked := [T.flit 0] } with now := 65535 }
     s.portUp 0 = true ∧ (s.link 0).unacked ≠ [] ∧ (s.link 0).replayAt + max 1 (s.fld F.PORT_TIMERS_REPLAY_TMO 0) ≤ s.now ∧
       (s.link 0).replays + 1 < max 1 (s.fld F.PORT_CTL_REPLAY_MAX 0)) := by and_intros <;> decide +kernel
theorem wit_RoutingVersionsAreEditedWhileIdle :
    (∀ r ∈ [RegName.HUB_RT_OP, .HUB_MC_OP], T.up.admits .tl0 r 0) ∧
    (let s := (T.up.setFld F.HUB_RT_STAT_BUSY 1).wakeFor .tl0; s.flag F.HUB_RT_STAT_BUSY = true) ∧
    (let s := (T.up.setFld F.HUB_RT_INDEX_VER 1).wakeFor .tl0
     s.flag F.HUB_RT_STAT_BUSY = false ∧ s.fld F.HUB_RT_INDEX_VER ≠ s.epoch.toNat ∧ s.flag F.HUB_RT_STAT_LOCK = false ∧
       s.rtOk 1 (s.fld F.HUB_RT_INDEX_INDEX) (s.regVal .HUB_RT_DATA) = true) ∧
    (T.up.wakeFor .tl0).fld F.HUB_RT_INDEX_VER = (T.up.wakeFor .tl0).epoch.toNat ∧
    ((T.up.setFld F.HUB_MC_INDEX_VER 1).wakeFor .tl0).fld F.HUB_MC_INDEX_VER ≠ (T.up.wakeFor .tl0).epoch.toNat ∧
    ((T.up.setFld F.HUB_RT_STAT_LOCK 1).wakeFor .tl0).flag F.HUB_RT_STAT_LOCK = true ∧
    (let s : State := { T.up with hub := { opEnd := some 0 } }; s.hub.opEnd = some 0 ∧ 0 ≤ s.now) := by
  simp only [State.admits]; and_intros <;> decide +kernel
/-- A route of endpoint 5 to port 2, with port 3 as its alternate. -/
def T.route : BitVec 64 := BitVec.ofNat 64 (5 + 2 ^ 21 * 2 + 2 ^ 25 * 3 + 2 ^ 29 + 2 ^ 63)
theorem wit_FlipsChangeTheEpochAndDrain :
    (let s : State := { T.port 3 with hub := { heldCoh := [(0, 506, {})] } }; s.portLive 0 = true ∧ s.hub.heldCoh = [(0, 506, {})]) ∧
    ((T.up.setFld F.HUB_TIME_CTL_SRC 2).fld F.HUB_TIME_CTL_SRC = 2 ∧ (T.up.setFld F.HUB_TIME_CTL_SRC 2).fld F.HUB_TIME_CTL_SRC_PORT = 0) ∧
    T.up.admits .sideband .HUB_RT_CMD 0 ∧ (T.up.wakeFor .sideband).flag F.HUB_RT_STAT_LOCK = false ∧
    ((T.up.setFld F.HUB_RT_STAT_LOCK 1).wakeFor .sideband).flag F.HUB_RT_STAT_LOCK = true ∧
    (let s : State := { T.up.setFld F.HUB_RT_STAT_LOCK 1 with now := 70000000 }
     s.flag F.HUB_RT_STAT_LOCK = true ∧ s.flag F.HUB_RT_STAT_TMO = false ∧ s.heldOld = 0 ∧
       s.hub.oldAt + max 1 (s.fld F.HUB_CTL_DRAIN_QUIET) * 1000 ≤ s.now ∧ s.hub.flipAt + max 1 (s.fld F.HUB_CTL_DRAIN_TMO) * 1000 ≤ s.now) ∧
    (let s := ((T.port 7 {} 2).setFld F.HUB_CTL_AUTO_ALT 1)
     let u : State := { s with hub := { rt := [(0, T.route)] } }
     s.flag F.HUB_CTL_AUTO_ALT = true ∧ s.fld F.TDM_ROLE_MODE ≠ 2 ∧ s.flag F.HUB_RT_STAT_LOCK = false ∧ s.flag F.HUB_RT_STAT_BUSY = false ∧
       s.hub.copyDue = false ∧ s.portState 2 = 7 ∧ s.altHits 2 = [] ∧ u.altHits 2 ≠ []) ∧
    (let s : State := { (T.up.setFld F.HUB_CTL_AUTO_ALT 1).setFld F.HUB_RT_STAT_DRAINED 1 with hub := { copyDue := true } }
     s.hub.copyDue = true ∧ s.flag F.HUB_RT_STAT_DRAINED = true) := by
  simp only [State.admits]; and_intros <;> decide +kernel
/-- A packet of type `t` to endpoint 5. -/
def T.pkt (t : Nat) (vc : Nat := 0) : Packet := { dst := 5, typ := BitVec.ofNat 8 t, vc := BitVec.ofNat 3 vc }
/-- A packet that port `p` delivered to the device. -/
def T.got (p : Nat) (k : Packet) (s : State := T.up) : State := { s with hub := { s.hub with delivered := [(p, k)] } }
/-- Port 0 is UP and accepts any source endpoint; a route leads to endpoint 5 by port 2, which is UP. -/
def T.hub (k : Packet) : State :=
  let s := ((((T.port 3 { ingress := [k] }).setFld F.PORT_AUTH_CTL_ANY 1 0).setFld F.PORT_CTL_ROLE 1 0).setFld F.PORT_LNK_STAT_STATE 3 2)
  { s with hub := { rt := [(0, T.route)] } }
theorem wit_PacketsAreForwardedAndSent :
    T.up.nextIngress 0 0 = none ∧ (T.hub (T.pkt 0x01)).nextIngress 0 0 = some (T.pkt 0x01) ∧
    ((T.hub (T.pkt 0x01)).flag F.HUB_RT_STAT_LOCK && (T.pkt 0x01).epoch != (T.hub (T.pkt 0x01)).epoch) = false ∧
    (T.hub (T.pkt 0x01)).authOk 0 (T.pkt 0x01) = true ∧ ((T.port 3).setFld F.PORT_AUTH_CTL_ANY 0 0).authOk 0 (T.pkt 0x01) = false ∧
    (T.pkt 0x01).isRequest = true ∧ (T.pkt 0x40 1).isRequest = false ∧
    max 1 ((T.hub (T.pkt 0x01)).fld F.HUB_CTL_HOP_MAX) ≤ { T.pkt 0x01 with hops := 31 }.hops.toNat ∧
    (T.pkt 0x01).hops.toNat < max 1 ((T.hub (T.pkt 0x01)).fld F.HUB_CTL_HOP_MAX) ∧ (T.pkt 0x01).oneHop = false ∧ (T.pkt 0x01).isMulticast = false ∧
    (T.pkt 0x01).typN ∉ [0x10, 0x11] ∧ (T.hub (T.pkt 0x01)).role 0 ∈ [1, 2] ∧ (T.hub (T.pkt 0x01)).flag F.GLB_STAT_WAIT_IMG = false ∧
    (T.hub (T.pkt 0x01)).lookup ((T.hub (T.pkt 0x01)).routeVer false).1 5 = some 2 ∧ (T.hub (T.pkt 0x01)).portLive 2 = true := by and_intros <;> decide +kernel
/-- Port 0 is UP with one packet on queue 511, whose gate class is open, and credits for it. -/
def T.egress : State := T.port 3 { queues := [(511, [⟨T.pkt 0x68 7, 0⟩])], cred := [(7, 16)] }
/-- Gate list 0 of port 0 has two entries of 100 ns, and entry `e` is in force until 100 ns. -/
def T.gates (e : Nat) : State :=
  let s := ((((T.up.setFld F.PORT_GATE_CTL_LEN0 2 0).setFld F.PORT_GATE_LIST_DUR_NS 100 0 0 0).setFld F.PORT_GATE_LIST_DUR_NS 100 0 0 1).setFld
    F.PORT_GATE_STAT_ENTRY e 0).setLink 0 { gateEnd := 100 }
  { s with now := 100 }
theorem wit_PacketsAreForwardedAndSent_gates :
    T.egress.portUp 0 = true ∧ (T.egress.schedule 0).map (·.1) = some 511 ∧ (T.pkt 0x68 7).vc ≠ 1 ∧
    (∀ e ∈ [0, 1], (T.gates e).flag F.PORT_GATE_CTL_PEND 0 = false ∧ ((T.gates e).link 0).gateEnd ≠ 0 ∧
      ((T.gates e).link 0).gateEnd ≤ (T.gates e).gateTime ∧ ((T.gates e).link 0).gateHold = false) ∧
    ((T.gates 0).gateEntries 0 ((T.gates 0).fld F.PORT_GATE_CTL_ACT 0)).find? (fun e => decide (0 < e.1)) = some (1, 0, 100) ∧
    ((T.gates 1).gateEntries 0 ((T.gates 1).fld F.PORT_GATE_CTL_ACT 0)).find? (fun e => decide (1 < e.1)) = none := by and_intros <;> decide +kernel
/-- Group 5 names port 2, which is UP. -/
def T.group (k : Packet) : State :=
  let s := T.got 0 k (T.port 3 {} 2)
  { s with hub := { s.hub with mc := [(5, BitVec.ofNat 64 (2 ^ 15 + 4))] } }
theorem wit_MulticastRequestsAndReports :
    (∀ ty ∈ [0x60, 0x61], let k := { T.pkt ty 5 with hops := 1 }
      (0, k) ∈ (T.group k).hub.delivered ∧ k.typN = ty ∧ k.dstN < 1024 ∧
      ((T.group k).mcEntry ((T.group k).routeVer k.epoch).1 k.dstN).toNat = 2 ^ 15 + 4 ∧ k.hops ≠ 0 ∧ (T.group k).freeRid = some 0 ∧
      (T.group k).portUp 2 = true ∧ ((T.group k).regVal .HUB_MC_FMASK 0 5).testBit 2 = false) ∧
    (∀ b, b < 15 → (2 ^ 15 + 4).testBit b = decide (b = 2)) ∧
    (0, T.pkt 0x60 5) ∈ (T.got 0 (T.pkt 0x60 5)).hub.delivered ∧ (T.pkt 0x60 5).hops = 0 ∧
    ((T.got 0 (T.pkt 0x60 5)).mcEntry 0 5).toNat.testBit 15 = false ∧ (0, T.pkt 0x62) ∈ (T.got 0 (T.pkt 0x62)).hub.delivered ∧ (T.pkt 0x62).typN = 0x62 ∧
    (let r : Report := ⟨0, 5, 0, T.pkt 0x60, none, [], 0, 1, 0, 0, 0, 0⟩
     let s : State := { T.up with hub := { reports := [r] } }
     s.hub.reports.find? (fun r => r.rid == 0) = some r ∧ r.wait = [] ∧ r.locals = 0) := by and_intros <;> decide +kernel
theorem wit_NetworkTimeAndQueueSettings :
    (∀ r ∈ [RegName.HUB_TIME_SET, .PORT_Q_CFG, .HUB_POL_CFG, .HUB_QSEL], T.up.admits .tl0 r 0) ∧
    ((T.up.setFld F.HUB_TIME_CTL_SRC 1).wakeFor .tl0).fld F.HUB_TIME_CTL_SRC = 1 ∧ (T.up.wakeFor .tl0).fld F.HUB_TIME_CTL_SRC ≠ 1 ∧
    (let s := T.got 0 (T.pkt 0x68 7) (T.up.setFld F.HUB_TIME_CTL_SRC 2)
     (0, T.pkt 0x68 7) ∈ s.hub.delivered ∧ (T.pkt 0x68 7).typN = 0x68 ∧ s.fld F.HUB_TIME_CTL_SRC = 2 ∧ s.fld F.HUB_TIME_CTL_SRC_PORT = 0 ∧
       (T.pkt 0x68 7).w3.toNat % 256 = s.fld F.HUB_TIME_CTL_DOMAIN) ∧
    (let s : State := { T.got 0 (T.pkt 0x69 7) (T.up.setFld F.HUB_TIME_CTL_SRC 2) with time := { sync := some (0, 0, 9) } }
     (0, T.pkt 0x69 7) ∈ s.hub.delivered ∧ (T.pkt 0x69 7).typN = 0x69 ∧ s.time.sync = some ((T.pkt 0x69 7).w3.toNat % 256, (T.pkt 0x69 7).tagN, 9)) ∧
    (1000 < (1001 : Int).natAbs) ∧ ((T.port 3).portUp 0 = true ∧ ((T.port 3).link 0).syncAt = 0) ∧
    (495 < (0x1F0#64).toNat % 512) ∧ ¬(495 < (0x1EF#64).toNat % 512 ∨ 495 < (0x1EF#64).toNat / 2 ^ 16 % 512) ∧
    (let s : State := { T.up.setFld F.PORT_EGR_CTL_SAMPLE 1 0 with now := 100 }
     s.fld F.PORT_EGR_CTL_SAMPLE 0 ≠ 0 ∧ (s.link 0).sampleAt + s.fld F.PORT_EGR_CTL_SAMPLE 0 * 100 ≤ s.now) := by
  simp only [State.admits]; and_intros <;> decide +kernel

/-! ### Hypotheses of the statements about register accesses, start-up, power and management -/

theorem wit_ConfigurationAccessesReachTheirRegister :
    State.reset.heldReset = true ∧ (T.up.wakeFor .tl0).heldReset = false ∧ regAt 0x2400000 = .outside ∧
    (∀ r ∈ [RegName.GLB_SCRATCH, .XLT_CTL, .COH_CTL, .STN_MEND_CTL, .PORT_TIMERS, .HUB_CTL, .TL_CTL, .EVR_CTL, .PWR_CTL, .STK_BKT_OVF, .STK_LAYOUT],
      regAt (r.addr 0 0 0) = .reg ⟨r, r.home 0, 0, 0⟩ ∧ (T.up.wakeFor .tl0).windowShut (r.addr 0 0 0) = false ∧ (T.up.wakeFor .tl0).blockOpen r (r.home 0) = true ∧
      r.home 0 = r.home (r.home 0) ∧ (T.up.wakeFor .tl0).barred .tl0 = false) ∧ (T.up.wakeFor .coreQ3).barred .coreQ3 = true ∧
    (T.up.setFld F.GLB_STAT_QRST 1).windowShut (RegName.XLT_CTL.addr 0 0 0) = true ∧
    (0x5A5A5A59 &&& RegName.STK_LAYOUT.mask (fun a => a == .rwl)) ≠ T.up.regVal .STK_LAYOUT ∧ T.up.fld F.SEC_LEDGER_LAYOUT_LEFT ≠ 0 := by and_intros <;> decide +kernel
theorem wit_ConfigurationPacketsAndSidebandFramesAnswer :
    (∀ ty ∈ [0x70, 0x71], let k : Packet := { T.pkt ty 7 with addr := 0x10, len := 8, payload := toBytes 8 7 }
      let s := T.got 12 k (T.port 3 {} 12)
      (12, k) ∈ s.hub.delivered ∧ k.typN = ty ∧ k.addr.toNat < 2 ^ 26 ∧ k.addr.toNat % 8 = 0 ∧ k.lenN = 8 ∧ s.portLive 12 = true ∧
        ({ s with hub := { s.hub with delivered := s.hub.delivered.erase (12, k) } }.cfgRead (portWriter 12) 16).portLive 12 = true ∧
        ({ s with hub := { s.hub with delivered := s.hub.delivered.erase (12, k) } }.writeAt (portWriter 12) 16 7).portLive 12 = true) ∧
    ¬({ T.pkt 0x70 7 with addr := 0x14 }.addr.toNat % 8 = 0) ∧ T.up.heldReset = false ∧ State.reset.heldReset = true := by and_intros <;> decide +kernel
theorem wit_ResetsLeaveWhatSurvivesThem :
    State.reset.power.porst = true ∧ T.up.power.porst = false ∧ T.up.heldReset = false ∧ T.up.admits .tl0 .GLB_RST_CMD 0 ∧
    (T.up.wakeFor .tl0).start.cmdAt ≠ some (T.up.wakeFor .tl0).now ∧
    (let s : State := { T.up with start := { cmdAt := some 0 } }; (s.wakeFor .tl0).start.cmdAt = some (s.wakeFor .tl0).now) ∧
    ((T.up.setFld F.GLB_STAT_READY 1).wakeFor .tl0).flag F.GLB_STAT_READY = true ∧ (T.up.wakeFor .tl0).flag F.GLB_STAT_READY = false ∧
    (((T.up.setFld F.GLB_STAT_READY 1).setFld F.GLB_STAT_QRST 4).wakeFor .tl0).quarterDown 2 = true ∧
    (let s : State := { T.up with start := { warm := true } }; s.start.warm = true ∧ s.heldReset = false ∧ s.scopeQuiet (fun _ => true) = true) ∧
    T.up.power.bridgeDown.testBit 3 = false ∧ smGet 0 T.up.power.bridgeFails 3 + 1 < 3 ∧
    (let s : State := { T.up with power := { porst := false, bridgeFails := [(3, 2)] } }; 3 ≤ smGet 0 s.power.bridgeFails 3 + 1) := by
  simp only [State.admits]; and_intros <;> decide +kernel
/-- An image of one entry: `w0` and the value `v`. -/
def T.img (w0 v : Nat) : ImgRun := { bytes := List.replicate 64 0 ++ toBytes 8 w0 ++ toBytes 8 v, next := 0, pollAt := none, kept := false }
theorem wit_StartUpVerifiesLoadsAndReturns :
    (let s : State := { T.up.setFld F.GLB_STAT_STEP 3 with tdm := { up := 3, verified := 1 } }
     s.heldReset = false ∧ s.fld F.GLB_STAT_STEP = 3 ∧ s.tdm.up.testBit 1 = true ∧ s.tdm.verified.testBit 1 = false ∧ s.tdm.up = s.tdm.verified ||| 2 ^ 1) ∧
    T.up.admits .sideband .GLB_IMG_CMD 0 ∧
    (∀ st ∈ [6, 7, 8], ((T.up.setFld F.GLB_STAT_STEP st).wakeFor .sideband).fld F.GLB_STAT_STEP = st ∧
      ((T.up.setFld F.GLB_STAT_STEP st).wakeFor .sideband).start.run = none) ∧
    (let s := ((T.up.setFld F.GLB_STAT_STEP 7).setFld F.GLB_IMG_LEN_AUTO 1).setFld F.GLB_RST_STAT_PKG_CAUSE 4
     s.fld F.GLB_STAT_STEP = 7 ∧ s.start.run = none ∧ s.flag F.GLB_STAT_WAIT_IMG = false ∧ s.autoLoad = true) ∧
    (let r : ImgRun := { T.img 0 0 with pollAt := some (0, 5) }
     let s : State := { T.up with start := { run := some r }, now := 5 }
     s.start.run = some r ∧ r.pollAt = some (0, 5) ∧ 5 ≤ s.now) ∧
    (let s : State := { T.up.setFld F.GLB_STAT_WAIT_IMG 1 with now := 1000000000 }
     s.flag F.GLB_STAT_WAIT_IMG = true ∧ s.start.waitAt + 1000000000 ≤ s.now) ∧
    (let r := T.img (RegName.GLB_SCRATCH.addr 0 0 0) 5
     let w0 := (imgEntry r.bytes 0).1
     w0 / 2 ^ 26 % 4 = 0 ∧ imgRefused (w0 % 2 ^ 26) = false ∧ (T.up.imgWrite (w0 % 2 ^ 26) (imgEntry r.bytes 0).2).rsp.1 = .ok) ∧
    imgRefused (RegName.GLB_RST_CMD.addr 0 0 0) = true ∧
    (let s := (T.up.setFld F.GLB_STAT_QRST 2)
     s.awaited 1 = true ∧ s.start.prep.testBit 1 = false ∧ s.start.warm = false ∧ smGet 0 s.start.fails 1 + 1 < 3) := by
  simp only [State.admits]; and_intros <;> decide +kernel
theorem wit_RailsInputTemperaturesAndClocksAct :
    State.reset.heldReset = true ∧ T.up.heldReset = false ∧
    (let n := railNominal 47; let set := max (n * 9 / 10) (min (n * 11 / 10) (T.up.fld F.PWR_RAIL_SET_MV 0 47)); n * 20 ≥ set * 19 ∧ ¬(set * 21 < n * 20) ∧ 0 * 20 < set * 19) ∧
    (2699 < 2700) ∧ (4501 < 2 ^ 13) ∧
    (let s : State := { (T.up.setFld F.GLB_RST_STAT_PKG_CAUSE 1) with power := { porst := false, off := true } }
     s.power.off = true ∧ s.power.porst = false ∧ s.fld F.GLB_RST_STAT_PKG_CAUSE = 1) ∧
    (T.up.fld F.TDM_ROLE_MODE = 0 ∧ (T.up.setFld F.GLB_STAT_READY 1).flag F.GLB_STAT_READY = true) ∧ T.up.capW < 4095 ∧
    (let s : State := { T.up with now := 100000 }; s.power.loopAt + max 1 (s.fld F.PWR_CTL_PERIOD_US) * 1000 ≤ s.now) ∧
    min 2100 (T.up.fld F.PWR_LIMIT_MAX_W) < 2200 ∧ 0 + 100 < min 2100 (T.up.fld F.PWR_LIMIT_MAX_W) ∧
    (let u := T.up.readTemps 255 0 0 255; min 115 (u.fld F.PWR_THERM_DIE_TRIP_C) < 255 ∧ u.flag F.PWR_LEVEL_TRIP = false) ∧
    (let u := T.up.readTemps 40 0 0 40; 40 + 10 ≤ min 115 (u.fld F.PWR_THERM_DIE_TRIP_C) ∧ u.fld F.PWR_TEMP_STK_MAX + 10 ≤ min 105 (u.fld F.PWR_THERM_STK_TRIP_C)) ∧
    T.up.flag F.CLK_STAT_HOLDOVER = false := by and_intros <;> decide +kernel
theorem wit_LowPowerWakesAndPins :
    (let s : State := { (T.up.setFld F.PWR_LP_CTL_FW_EN 1).setFld F.GLB_STAT_READY 1 with now := 100000 }
     smGet 0 s.power.busyAt 3 + s.fld F.PWR_LP_CTL_FW_US * 1000 ≤ s.now ∧ s.flag F.PWR_LP_CTL_FW_EN = true ∧ s.closed 3 = false ∧ s.sitesIdle 3 = true ∧ s.power.deep = 0 ∧ s.flag F.GLB_STAT_READY = true ∧ s.heldReset = false) ∧
    (let s : State := { (T.up.setFld F.PWR_LP_CTL_DEEP_EN 1).setFld F.GLB_STAT_READY 1 with now := 100000000 }
     s.power.idleFrom + max 1 (s.fld F.PWR_LP_CTL_DEEP_MS) * 1000000 ≤ s.now ∧ s.flag F.PWR_LP_CTL_DEEP_EN = true ∧ s.deepReady = true ∧ (∀ p, p < 14 → (s.link p).busyAt = 0) ∧ (∀ p, p < 14 → s.portUp p = false) ∧
       (s.wakeFor .tl0).deepReady = true) ∧
    T.up.admits .tl0 .PWR_LP_CMD 0 ∧ (T.up.wakeFor .tl0).deepReady = false ∧ State.reset.heldReset = true ∧ (T.port 5 {} 13).portState 13 = 5 ∧
    T.up.power.tamper = false ∧ T.up.tl.events.length < 1024 ∧ (T.up.setFld F.PWR_LEVEL_TRIP 1).alertN = true ∧ T.up.alertN = false := by
  simp only [State.admits]; and_intros <;> decide +kernel
/-- Source 0x200 is pending in group 9, which delivers to target `t`. -/
def T.int (t : Nat) : State :=
  let s := ((T.up.setFld F.INTC_SRC_CFG_EN 1 0 0x200).setFld F.INTC_SRC_CFG_GRP 9 0 0x200).setFld F.INTC_GRP_CFG_TGT t 0 9
  { s with intc := { pend := BitVec.ofNat 1024 (2 ^ 0x200) } }
theorem wit_LowPowerWakesAndPins_source : ∀ t ∈ [1, 2], (T.int t).flag F.INTC_SRC_CFG_EN 0 0x200 = true ∧ (T.int t).srcPending 0x200 = true ∧
    (T.int t).groupDelivers 9 = true ∧ (T.int t).fld F.INTC_GRP_CFG_TGT 0 9 = t := by decide +kernel
/-- Core Q0 is captain and both cores run. -/
def T.tdm (mode : Nat) : State := { T.up.setFld F.TDM_ROLE_MODE mode with tdm := { up := 3 } }
theorem wit_TandemActsAndMovesRoles :
    T.up.heldReset = false ∧ (T.tdm 0).mayAct 0 = true ∧ writerCore .coreQ3 = some (1 - 0) ∧
    (∀ r ∈ [RegName.PWR_LEVEL, .PWR_RAIL, .PWR_FAN, .PWR_STATPIN, .STN_THROT, .STK_THROT],
      regAt (((T.tdm 0).setFld F.TDM_ACT0_OFFSET (r.addr 0 0 0) 0 0).fld F.TDM_ACT0_OFFSET 0 0) = .reg ⟨r, 0, 0, 0⟩ ∧ (T.tdm 0).blockOpen r 0 = true) ∧
    regAt (RegName.INTC_GRP_CMPL.addr 0 0 0) = .reg ⟨.INTC_GRP_CMPL, 0, 0, 0⟩ ∧ (2 ^ 31 - 1 + 2 ^ 32 - 0) % 2 ^ 32 < 2 ^ 31 ∧ 2 ^ 31 ≤ (2 ^ 31 + 2 ^ 32 - 0) % 2 ^ 32 ∧
    (T.tdm 0).beatLost = false ∧ (T.tdm 0).admits .coreQ0 .TDM_HB 0 ∧ writerCore .coreQ0 = some ((T.tdm 0).fld F.TDM_ROLE_CAPT) ∧
    (T.tdm 0).fld F.TDM_ROLE_MODE = 0 ∧ (T.tdm 0).flag F.TDM_ROLE_SINGLE = false ∧ (T.tdm 0).sec.fwTrans = false ∧
    (let s : State := { T.tdm 0 with now := max 1 (T.up.fld F.TDM_HB_HB_US) * 1000 }; s.beatLost = false ∧
      s.tdm.beatAt + (s.tdm.missed + 1) * (max 1 (s.fld F.TDM_HB_HB_US) * 1000) ≤ s.now) ∧
    (let s : State := { (T.tdm 0).setFld F.TDM_ROLE_OVL 1 with tdm := { former := some (1, 0) }, now := 20000 }
     s.tdm.former = some (1, 0) ∧ s.flag F.TDM_ROLE_OVL = true ∧ 0 + 20000 ≤ s.now) ∧
    (let s : State := { T.tdm 2 with now := 100000000 }; s.fld F.TDM_ROLE_MODE = 2 ∧ s.tdm.noneAt + 100000000 ≤ s.now) ∧
    (let s := (T.tdm 1).setFld F.TDM_LEASE_HOLDER 1; s.fld F.TDM_ROLE_MODE = 1 ∧ s.fld F.TDM_LEASE_HOLDER ≠ 0 ∧ s.tdm.leaseEnd ≤ s.now) ∧
    (let s := (T.tdm 1).setFld F.TDM_LEASE_HOLDER 1; s.tdm.up.testBit 1 = true ∧ s.fld F.TDM_LEASE_HOLDER ∉ [0, 1 + 1] ∧ s.tdm.leaseEnd ≤ s.now) ∧
    (let s : State := { (T.tdm 0).setFld F.TDM_ROLE_CAPT 1 with tdm := { up := 3, tookAt := some 0 } }
     s.fld F.TDM_ROLE_MODE = 0 ∧ s.tdm.tookAt = some s.now ∧ s.tdm.up.testBit 0 = true ∧ s.fld F.TDM_ROLE_CAPT = 1) := by
  simp only [State.admits]; and_intros <;> decide +kernel
theorem wit_TandemActsAndMovesRoles_commands :
    (T.tdm 0).admits .tl0 .TDM_CMD 0 ∧ (∀ m ∈ [0, 1, 2], ((T.tdm m).wakeFor .tl0).fld F.TDM_ROLE_MODE = m) ∧
    (let s := (((T.tdm 1).setFld F.GLB_STAT_READY 1).wakeFor .tl0); s.flag F.GLB_STAT_READY = true ∧ s.tdm.recovery = false) ∧
    writerCore .coreQ3 = some 1 ∧ (T.tdm 1).tdm.up.testBit 1 = true ∧ (T.tdm 1).fld F.TDM_LEASE_HOLDER = 0 ∧ (T.tdm 1).fld F.GLB_STAT_STEP < 3 ∧
    3 ≤ ((T.tdm 1).setFld F.GLB_STAT_STEP 3).fld F.GLB_STAT_STEP ∧
    (∀ m ∈ [0, 1, 2], let s : State := { (T.tdm m).setFld F.GLB_STAT_READY 1 with tdm := { up := 1 } }
      s.heldReset = false ∧ s.tdm.up.testBit 1 = false ∧ s.flag F.GLB_STAT_READY = true ∧ s.fld F.TDM_ROLE_MODE = m ∧ s.tdm.fw = none) := by
  simp only [State.admits]; and_intros <;> decide +kernel
theorem wit_InterruptGroupsAndCheckUnits :
    (∀ t ∈ [0, 1, 2, 3], (T.int t).groupDelivers 9 = true ∧ (T.int t).fld F.INTC_GRP_CFG_TGT 0 9 = t ∧ (T.int t).tl.held.length < 4096) ∧
    T.up.groupDelivers 9 = false ∧
    (let s : State := { T.int 3 with intc := { retryAt := [(9, 1)], serv := bit32 9 }, now := 1 }
     smGet 0 s.intc.retryAt 9 ≠ 0 ∧ smGet 0 s.intc.retryAt 9 ≤ s.now ∧ s.intc.serv.getLsbD 9 = true) ∧
    (∀ r ∈ [RegName.INTC_GRP_CMPL, .INTC_SW_SET, .INTC_GRP_CFG, .INTC_SRC_CFG, .INTC_CTL, .CHK_CMD, .CHK_CTL], T.up.admits .tl0 r 0) ∧
    (((T.tdm 1).setFld F.TDM_LEASE_HOLDER 1).wakeFor .coreQ0).fld F.TDM_ROLE_MODE = 1 ∧ ((T.tdm 1).setFld F.TDM_LEASE_HOLDER 1).admits .coreQ0 .INTC_GRP_CMPL 0 ∧
    (let s : State := { T.int 1 with intc := { serv := bit32 9 } }
     (s.wakeFor .tl0).sentTgt 9 < 3 ∧ (s.wakeFor .tl0).sentAutoc 9 = false ∧ (s.wakeFor .tl0).intc.serv.getLsbD 9 = true) ∧
    (let s : State := { T.int 1 with intc := { err := bit32 9 } }; (s.wakeFor .tl0).intc.err.getLsbD 9 = true) ∧
    srcReserved 0x1B6 = true ∧ srcReserved 0x200 = false ∧ (T.up.wakeFor .tl0).flag F.CHK_CTL_EN 0 7 = false ∧
    ((T.up.setFld F.SEC_STAT_CONF 1).wakeFor .tl0).flag F.SEC_STAT_CONF = true ∧
    ((T.up.setFld F.CHK_CTL_EN 1 0 7).wakeFor .tl0).flag F.CHK_CTL_EN 0 7 = true ∧
    (let s : State := { T.up with intc := { chkAt := [(7, 1)] } }
     smGet 0 (s.wakeFor .tl0).intc.chkAt 7 = (s.wakeFor .tl0).now + 1 ∧ smGet 0 (s.wakeFor .tl0).intc.chkAt 6 ≠ (s.wakeFor .tl0).now + 1) := by
  simp only [State.admits]; and_intros <;> decide +kernel
/-- A host write of 64 bytes with an announcement. -/
def T.msg (a : Announce) : HostMsg := ⟨0, List.replicate 64 0, none, a⟩
/-- A host read for slot 0. -/
def T.hrd (tries : Nat) : Hrd := ⟨0, 0, 64, .slot 0, 0, tries, some 12⟩
/-- A record of kind 5 is open in slot 64 of the recorder. -/
def T.rec : State := { T.up with evr := { opens := [⟨5, 0, 64, 100, 0⟩] } }
theorem wit_HostMessagesReadsAndRecords :
    (let s : State := { T.port 3 {} 12 with tl := { held := [T.msg .none] } }
     s.tl.held = T.msg .none :: [] ∧ s.power.deep = 0 ∧ ({ s with power := { s.power with deep := 2 } } : State).power.deep ≠ 0 ∧ s.streamPort = some 12 ∧ s.tl.unack.length < 1024) ∧ T.up.streamPort = none ∧
    (∀ a ∈ [Announce.none, .group 9, .bounce 0, .mover 0 0 0, .ring .event 0],
      let s : State := { T.got 12 (T.pkt 0x84 6) with tl := { unack := [(0, T.msg a)] } }
      (12, T.pkt 0x84 6) ∈ s.hub.delivered ∧ (T.pkt 0x84 6).typN = 0x84 ∧ s.tl.unack.find? (fun m => m.1 == (T.pkt 0x84 6).tagN) = some (0, T.msg a)) ∧
    (let s : State := { T.got 12 (T.pkt 0x82 6) with tl := { hrds := [T.hrd 0] } }
     (12, T.pkt 0x82 6) ∈ s.hub.delivered ∧ (T.pkt 0x82 6).typN = 0x82 ∧
       s.tl.hrds.find? (fun h => h.tag == (T.pkt 0x82 6).tagN && h.sent.isSome) = some (T.hrd 0)) ∧
    (∀ n ∈ [0, 1], let s : State := { T.up with tl := { hrds := [T.hrd n] }, now := 655350000 }
      s.tl.hrds.find? (fun h => h.tag == 0) = some (T.hrd n) ∧ (T.hrd n).since + max 1 (s.fld F.TL_CTL_HRD_TMO 12) * 10000 ≤ s.now ∧ (T.hrd n).tries = n) ∧
    (let s : State := { T.port 3 {} 12 with tl := { active := 1 } }
     s.tl.active ≠ s.fld F.TL_CTL_PRI 12 ∧ s.portUp (12 + s.fld F.TL_CTL_PRI 12) = true ∧ s.tl.unack = []) ∧
    (let s : State := { T.up.setFld F.TL_EVT_SIZE_LOG2N 6 12 with tl := { events := [⟨0, 0, []⟩] } }
     let n := ringSlots (s.fld F.TL_EVT_SIZE_LOG2N 12) 6 20
     ¬(n = 0 ∨ n ≤ (s.fld F.TL_EVT_PROD_PROD 12 + s.tl.outEvt.length + 2 ^ 32 - s.fld F.TL_EVT_CONS_CONS 12) % 2 ^ 32 ∨ 4096 ≤ s.tl.held.length)) ∧
    T.rec.evr.opens ≠ [] ∧ T.up.evr.opens = [] ∧ (∀ o ∈ T.rec.evr.opens, T.rec.opS < o.till) ∧
    (let s : State := { T.rec with now := 15300000000000 }; s.evr.ckptAt + max 1 (s.fld F.EVR_CTL_CKPT_MIN) * 60000000000 ≤ s.now) ∧
    T.up.admits .tl0 .EVR_CURSOR 0 ∧ 16368 < F.EVR_CURSOR_SLOT.of 16369 ∧ F.EVR_CURSOR_SLOT.of 16368 ≤ 16368 := by
  simp only [State.admits]; and_intros <;> decide +kernel

/-! ### Hypotheses of the statements about security, the pool and coherence -/

/-- Context 3 is bound to TL0 and source endpoint 0; its segment 0 has 16 pages. -/
def T.ctx : State :=
  ((((T.up.setFld F.XLT_CTX_BIND_V 1 0 3).setFld F.XLT_CTX_BIND_PORT 12 0 3).setFld F.XLT_SEG_LEN_LEN_PG 16 0 3 0).setReg .XLT_SEG_ATTR
    (1 + 2 + 4 + 16 + 2 ^ 40) 0 3 0)
/-- A bounce slot at stage `st`. -/
def T.slot (st : BncStage) : BSlot := { id := 0, seq := 1, host := 0, stage := st, words := [1] }
theorem wit_SecurityCommandsKeepTheirGates :
    (∀ r ∈ [RegName.SEC_REL_CMD, .SEC_BNC_TAIL], T.up.admits .tl0 r 0) ∧
    (let n := F.SEC_REL_CMD_EXT_COUNT.of; n 0 = 0 ∧ n (2 ^ 64 - 1) > 65536) ∧ (T.up.wakeFor .tl0).sec.relQ.length < 16 ∧
    (let s : State := { T.up with sec := { relQ := [⟨0, 1, 7⟩] } }; s.sec.relRun = none ∧ s.sec.relQ = ⟨0, 1, 7⟩ :: []) ∧
    (let s : State := { T.up with sec := { relRun := some ⟨⟨0, 1, 7⟩, [5], false, 0⟩ } }; s.sec.relRun = some ⟨⟨0, 1, 7⟩, [5], false, 0⟩ ∧
      s.now < s.relDue ⟨⟨0, 1, 7⟩, [5], false, 0⟩ ∧ ({ s with now := 16384 } : State).relDue ⟨⟨0, 1, 7⟩, [5], false, 0⟩ ≤ 16384 ∧
      keyPage 5 < usableFrames ∧ s.reach 5 = .direct) ∧
    (T.up.setFld F.GLB_STAT_READY 1).flag F.GLB_STAT_READY = true ∧ T.up.fld F.SEC_IDX_ID_IDX < 1048576 ∧ T.up.sec.ak = none ∧
    786432 < (T.up.setFld F.SEC_IDX_AK_IDX 786433).fld F.SEC_IDX_AK_IDX ∧
    (let k := { T.pkt 0x78 7 with payload := List.replicate 40 0 }; (12, k) ∈ (T.got 12 k).hub.delivered ∧ k.typN = 0x78 ∧ (wordAt k.payload 32).testBit 0 = false) ∧
    (let k := { T.pkt 0x7A 7 with payload := List.replicate 1600 0 }
     let s : State := { (T.got 12 k T.ctx).setFld F.SEC_SESS_STAT_STATE 1 0 0 with sec := { sess := [(0, { ek := some 9, nonce := [0, 0, 0, 0] })] } }
     (12, k) ∈ s.hub.delivered ∧ k.typN = 0x7A ∧ (s.sess 0).ek = some 9 ∧ s.ctxOf 12 k.srcN = some 3 ∧ s.fld F.SEC_SESS_STAT_STATE 0 0 = 1 ∧
       (s.sess 0).nonce = (List.range 4).map (fun j => wordAt k.payload (8 * j)) ∧ s.now < (s.sess 0).ekAt + max 1 (s.fld F.SEC_CTL_KEX_S) * 1000000000) ∧
    (∀ st ∈ [BncStage.read, .ended],
      let s : State := { T.up.setFld F.SEC_SESS_STAT_STATE 2 0 1 with sec := { sess := [(1, { slots := [T.slot st] })] } }
      s.fld F.SEC_SESS_STAT_STATE 0 1 = 2 ∧ (s.sess 1).slots = T.slot st :: [] ∧ (T.slot st).stage = st ∧ s.tl.held.length + 34 ≤ 4096) := by
  simp only [State.admits]; and_intros <;> decide +kernel
theorem wit_SecurityCommandsKeepTheirGates_management :
    (let k := { T.pkt 0x7C 7 with last := true, payload := List.replicate 96 0 }
     (12, k) ∈ (T.got 12 k).hub.delivered ∧ k.typN = 0x7C ∧ k.last = true ∧ k.offN = 0 ∧ (T.got 12 k).firmware = true ∧
       ((T.got 12 k).setFld F.TDM_ROLE_MODE 2).firmware = false ∧ wordAt k.payload 0 = 0 ∧
       wordAt k.payload 80 = (T.got 12 k).fld F.SEC_LEDGER_LSEQ ∧ wordAt k.payload 16 = (T.got 12 k).evr.clrSeq ∧ (T.got 12 k).evr.clears < 64) ∧
    (let s : State := { T.tdm 0 with sec := { staged := some [] } }
     s.sec.staged ≠ none ∧ s.firmware = true ∧ s.fld F.TDM_ROLE_MODE = 0 ∧ s.flag F.TDM_ROLE_SINGLE = false ∧ s.sec.fwTrans = false) ∧
    (let s := (T.tdm 1).setFld F.TDM_LEASE_HOLDER 1; s.firmware = true ∧ s.fld F.TDM_ROLE_MODE = 1) ∧
    (let s : State := { T.tdm 0 with sec := { fwTrans := true }, tdm := { up := 3, fw := some .both } }
     s.tdm.fw = some .both ∧ s.sec.fwTrans = true ∧ s.sec.fwCmd = none) := by and_intros <;> decide +kernel
/-- A request of context 3 on channel 0 of TL0 with one piece in state `st`. -/
def T.req (kind : ReqKind) (st : PieceState) : Req :=
  { id := 0, chan := ⟨3, .port 12, 0⟩, tag := 0, kind := kind, seg := 0, addr := 0, len := 64, data := List.replicate 64 0, have_ := 64
    pieces := [{ off := 0, len := 64, seg := 0, page := 0, inPage := 0, state := st }], dest := .port 12 (T.pkt 1) }
/-- Context 3 has that one request. -/
def T.asks (kind : ReqKind) (st : PieceState) : State := { T.ctx with ord := { reqs := [T.req kind st], nextId := 1 } }
theorem wit_PoolRequestsEnterCompleteAndAbort :
    (∀ ty ∈ [1, 2, 4, 5, 7, 3], let k := { T.pkt ty with len := 64 }; let s := T.got 12 k T.ctx
      (12, k) ∈ s.hub.delivered ∧ k.typN = ty ∧ s.ctxOf 12 k.srcN = some 3 ∧ s.sealed_ 12 k = false ∧ k.offN = 0 ∧
        s.refusing ⟨3, .port 12, 0⟩ = false ∧ s.chanCount ⟨3, .port 12, 0⟩ < 256 ∧ s.portCount (.port 12) < 4096 ∧ (s.police 3 k.cost).1 ≠ .drop) ∧
    (T.got 11 (T.pkt 1) T.ctx).ctxOf 11 0 = none ∧
    (let s := T.got 0 (T.pkt 0x10 1) (T.asks .read (.remote 0 0)); (0, T.pkt 0x10 1) ∈ s.hub.delivered ∧ (s.remotePiece 0 0 0).isSome = true) ∧
    (let s := T.got 0 (T.pkt 0x11 1) (T.asks .write (.remote 0 0)); (0, T.pkt 0x11 1) ∈ s.hub.delivered ∧ (s.remotePiece 0 0 0).isSome = true) ∧
    (let s := T.got 12 (T.pkt 6) (T.asks .read .missed); (12, T.pkt 6) ∈ s.hub.delivered ∧ s.ctxOf 12 0 = some 3 ∧ (T.req .read .missed).abortable = true ∧
      s.ord.reqs.find? (fun r => r.chan == ⟨3, .port 12, 0⟩ && r.tag == 0 && !r.refused) = some (T.req .read .missed)) ∧
    ((T.asks .read .served).piece 0 0).map (·.state) = some .served ∧ (T.req .read .started).complete = false := by and_intros <;> decide +kernel
/-- Region 7 is valid in context 3 with segment 0, and its version 5 is current. -/
def T.ver (x : RegionSt) : State :=
  { ((T.ctx.setFld F.XLT_VER_CTL_EN 1).setFld F.XLT_VER_RGN_ID_V 1 0 7).setFld F.XLT_VER_RGN_ID_CTX 3 0 7 with ver := [(7, x)] }
/-- A region with version 5 in slot 0 and a pending slot 1 on base `b`. -/
def T.rgn (b : Nat) : RegionSt :=
  { cur := 5, curSlot := 0, slots := { used := true, ver := 5, serial := 1 } :: List.replicate 15 {}, pends := [{}, { used := true, base := b, serial := 2 }, {}, {}] }
/-- A publish of pending slot 1 of region 7. -/
def T.pub : Req := { T.req .vpublish .waiting with vh := vhMake 7 1 true 2 0, pieces := [] }
theorem wit_VersionsArePublishedClosedAndDestroyed :
    (T.ver (T.rgn 5)).verAllowed 3 7 .read = true ∧ (T.ver (T.rgn 5)).verAllowed 3 7 .write = true ∧ (T.ver (T.rgn 5)).verAllowed 2 7 .read = false ∧
    (∀ b ∈ [5, 4], let s : State := { T.ver (T.rgn b) with ord := { reqs := [T.pub] } }
      s.req 0 = some T.pub ∧ T.pub.kind = .vpublish ∧ T.pub.fixed = none ∧ vhRegion T.pub.vh = 7 ∧ vhSlot T.pub.vh = 1 ∧ vhPending T.pub.vh = true ∧
        s.pendStatus T.pub.vh = .ok ∧ s.verAllowed 3 7 .write = true) ∧
    (let x : RegionSt := { T.rgn 5 with slots := { used := true, ver := 5, serial := 1 } :: { used := true, ver := 4, opens := 1, serial := 1, stopped := some 0 } :: List.replicate 14 {} }
     let s : State := { (T.ver x).setFld F.XLT_VER_RGN_CFG_LEASE 1 0 7 with now := 1000000 }
     let v := (s.region 7).slots.getD 1 {}
     v.used = true ∧ v.opens ≠ 0 ∧ (s.region 7).curSlot ≠ 1 ∧ s.fld F.XLT_VER_RGN_CFG_LEASE 0 7 ≠ 0 ∧ v.stopped = some 0 ∧
       0 + s.fld F.XLT_VER_RGN_CFG_LEASE 0 7 * 1000000 ≤ s.now) ∧
    (∀ r ∈ [RegName.XLT_VER_RGN_ID, .XLT_VER_CMD], T.up.admits .tl0 r 0) ∧ (T.up.wakeFor .tl0).rgnV 4095 = false ∧ ((T.ver (T.rgn 5)).wakeFor .tl0).rgnV 7 = true ∧
    (let s := T.ctx.setReg .XLT_SEG_ATTR (1 + 2 + 4 + 2 ^ 40) 0 3 1
     (s.wakeFor .tl0).regionOk 7 ((((s.setFld F.XLT_VER_RGN_ID_V 1 0 7).setFld F.XLT_VER_RGN_ID_CTX 3 0 7).setFld F.XLT_VER_RGN_ID_SHSEG 1 0 7).regVal .XLT_VER_RGN_ID 0 7) = true) := by
  simp only [State.admits]; and_intros <;> decide +kernel
/-- A miss on page 5 of segment 0 of context 3 in quarter 1. -/
def T.miss (fault : Bool) : Miss := { q := 1, req := 0, piece := 0, ctx := 3, seg := 0, page := 5, fault := fault }
/-- Fault-table entry 2 of quarter 1, with one waiter. -/
def T.flt : FaultEntry := ⟨1, 2, 3, 0, 5, 0, 0, 12, 0, [(0, 0)], 1, 0, false⟩
/-- A revoke of segment 0 of context 3 of type `typ`. -/
def T.rvk (typ : Nat) : Revoke := ⟨3, 0, typ, 0, 0, 1 + 2 + 4 + 16 + 2 ^ 40, 9, [], none, []⟩
theorem wit_TranslationWalksFaultsAndRevokes :
    (∀ r ∈ [RegName.XLT_CTX_BIND, .XLT_SEG_ATTR, .XLT_EXT_OP, .XLT_FLT_RESUME, .XLT_RVK_CMD], T.up.admits .tl1 r 0) ∧
    (T.ctx.wakeFor .tl1).flag F.XLT_CTX_BIND_V 0 3 = true ∧ (T.ctx.wakeFor .tl1).flag F.XLT_CTX_BIND_V 0 4095 = false ∧
    (let s1 := T.ctx.wakeFor .tl1
     F.XLT_SEG_ATTR_V.of (s1.segAttr 3 0) = 1 ∧ s1.flag F.XLT_CTX_GEN_RVK 0 3 = false ∧ s1.segSetOk 3 0 (s1.segAttr 3 0) = true ∧ s1.segSetOk 3 1 1 = false ∧
       attrReserved (s1.segAttr 3 0) = false ∧ F.XLT_SEG_ATTR_V.of (s1.segAttr 3 7) = 0) ∧
    (T.up.wakeFor .tl1).extWriteOk (0, 0) = true ∧ (T.up.wakeFor .tl1).extWriteOk (2 ^ 63 - 1, 0) = false ∧
    (let s : State := { T.ctx with xlt := { missQ := [T.miss false] } }
     s.xlt.missQ.find? (fun m => m.q == 1 && !m.fault && !s.xlt.walks.any (fun x => x.serves m)) = some (T.miss false)) ∧
    (∀ probes ∈ [[], [4]], ∀ gen ∈ [0, 1], let x : Walk := ⟨1, 0, 3, 0, 0, gen, [], probes⟩; let s : State := { T.ctx with xlt := { walks := [x] } }
     s.xlt.walks.find? (fun x => x.q == 1 && x.walker == 0) = some x ∧ s.gen 3 = 0) ∧
    (let s : State := { T.ctx with xlt := { missQ := [T.miss true] } }; s.xlt.missQ.find? (fun m => m.q == 1 && m.fault) = some (T.miss true)) ∧
    (let s : State := { T.up.setFld F.XLT_FLT_LOG_SIZE_LOG2N 6 with xlt := { recQ := [⟨1, some (1, 2), 1, [0, 0, 0, 0, 0, 0, 0, 0]⟩], faults := [T.flt] } }
     (s.xlt.recQ.find? (fun r => r.q == 1)).isSome = true ∧ ringSlots (s.fld F.XLT_FLT_LOG_SIZE_LOG2N) 6 16 ≠ 0 ∧
       (s.fld F.XLT_FLT_PROD_PROD + s.tl.outFault.length + 2 ^ 32 - s.fld F.XLT_FLT_CONS_CONS) % 2 ^ 32 < ringSlots (s.fld F.XLT_FLT_LOG_SIZE_LOG2N) 6 16 ∧ s.msgRoom = true) ∧
    (let s : State := { T.asks .read (.held 1 2) with xlt := { faults := [T.flt] }, now := 10 ^ 15 }
     (s.wakeFor .tl1).faultOf (s.fid 1 2) = some T.flt ∧ (s.piece 0 0).map (fun p => decide (p.heldAt + s.fld1 F.XLT_CTL_FLT_TMO * 10000 < s.now)) = some true) ∧
    (let s : State := { T.asks .read .missed with xlt := { missQ := [T.miss true] }, now := 10 ^ 15 }
     ∃ m ∈ s.xlt.missQ, m.q = 1 ∧ m.fault = true ∧ ∃ p, s.piece m.req m.piece = some p ∧ p.heldAt + s.fld1 F.XLT_CTL_FLT_TMO * 10000 < s.now) ∧
    (let s : State := { T.up with xlt := { faults := [T.flt] } }; s.xlt.faults.find? (fun f => f.q == 1 && f.e == 2) = some T.flt ∧ s.xlt.missQ = []) ∧
    (T.up.wakeFor .tl1).faultOf 0xFFFF = none ∧
    (∀ typ ∈ [0, 1, 2, 3, 4], (T.ctx.wakeFor .tl1).imageOk 3 0 typ (1 + 2 + 4 + 16 + 2 ^ 40) = true) ∧ (T.ctx.wakeFor .tl1).imageOk 3 0 0 0 = false ∧
    (∀ typ ∈ [0, 3], let s : State := { T.ctx with xlt := { rvkQ := [T.rvk typ] } }
      s.xlt.rvkQ.find? (fun r => r.ctx == 3) = some (T.rvk typ) ∧ (!s.imageOk 3 0 typ (T.rvk typ).new || (decide (typ ≤ 3) && !s.segV 3 0)) = false) ∧
    (let s : State := { T.ctx with xlt := { rvkRun := [T.rvk 0] } }
     s.settleLooms.xlt.rvkRun.find? (fun r => r.ctx == 3) = some (T.rvk 0) ∧ s.settleLooms.drained (T.rvk 0) = true ∧
       (s.settleLooms.revokeStep4 (T.rvk 0)).2.revokeIdle (T.rvk 0) = true) ∧
    (let r := { T.rvk 0 with ended := some 1 }; let s : State := { T.ctx with xlt := { rvkRun := [r] } }
     s.settleLooms.xlt.rvkRun.find? (fun r => r.ctx == 3) = some r ∧ s.settleLooms.revokeIdle r = true) ∧
    (let r := { T.rvk 4 with ended := some 1 }
     let s := ((T.ctx.setFld F.MOV_CH_CTX_V 1 2 15).setFld F.MOV_CH_CTX_CTX 3 2 15).setFld F.MOV_CH_STAT_STATE 1 2 15
     (({ s with xlt := { rvkRun := [r] } } : State).settleLooms.revokeIdle r = false)) := by
  simp only [State.admits]; and_intros <;> decide +kernel
/-- A descriptor of mover channel 15 of quarter 2. -/
def T.desc : Desc := { serial := 4, handle := 2 ^ 63, words := List.replicate 8 0, denied := true, issued := 0, finished := 0, failed := [], worst := .ok }
theorem wit_MoverChannelsRunHaltAndStop :
    (∀ r ∈ [RegName.MOV_CH_CTX, .MOV_CH_START, .MOV_CH_CMD], T.up.admits .tl0 r 2) ∧
    (T.up.wakeFor .tl0).movState 2 15 = 0 ∧ (∀ st ∈ [1, 2, 3], ((T.up.setFld F.MOV_CH_STAT_STATE st 2 15).wakeFor .tl0).movState 2 15 = st) ∧
    (let s1 := (T.up.setFld F.MOV_CH_CTX_V 1 2 15).wakeFor .tl0; s1.flag F.MOV_CH_CTX_V 2 15 = true ∧ (2 ^ 63 : Nat).testBit 63 = true ∧ 2 ^ 63 % 64 = 0) ∧
    (∀ st ∈ [Status.ok, .poison], let s : State := { T.up with movers := [(2 * 16 + 15, { fetching := some (2 ^ 63) })], ord := { done := [T.done (.descr 2 15) st] } }
      (s.mover 2 15).fetching = some (2 ^ 63) ∧ s.ord.done.find? (fun d => d.dest == .descr 2 15) = some (T.done (.descr 2 15) st) ∧
        s.lastStarted 2 15 = true ∧ (s.mover 2 15).descs.length < 4 ∧ (s.mover 2 15).stopping = false ∧ (s.mover 2 15).failing = none ∧ s.moverFailed 2 15 = false) ∧
    (T.up.setStn 0 {}).lastStarted 2 15 = true ∧
    (let s : State := { T.up with movers := [(2 * 16 + 15, { descs := [T.desc] })], ord := { done := [T.done (.outcome 2 15 4) .ok] } }
     s.ord.done.find? (fun d => match d.dest with | .outcome a b _ => a == 2 && b == 15 | _ => false) = some (T.done (.outcome 2 15 4) .ok) ∧
       (s.mover 2 15).descs.find? (fun x => x.serial == 4) = some T.desc) ∧
    (let s := T.up.setFld F.MOV_CH_STAT_STATE 4 2 15; s.movState 2 15 = 4 ∧ s.moverBusy 2 15 = false) := by
  simp only [State.admits]; and_intros <;> decide +kernel

/-! ### Hypotheses of the statements about coherence, stacks, protection, sites and looms -/

/-- Agent 3 is local on TL0 with endpoint 0, coherence is on, and context 3 is bound to it. -/
def T.coh (c : Coh := {}) (s : State := T.ctx) : State :=
  { ((((s.setFld F.COH_CTL_EN 1).setFld F.COH_AGENT_V 1 0 3).setFld F.COH_AGENT_PORT 12 0 3).setFld F.COH_AGENT_EP 0 0 3) with coh := c }
/-- A message of type `ty` from agent 3 with GTAG 7 about the line `line` of a frame. -/
def T.msgOf (ty : Nat) (line : Nat := 0) (evs : Nat := 0) : Packet :=
  { T.pkt ty with w3 := BitVec.ofNat 64 (3 + 7 * 2 ^ 10 + evs * 2 ^ 18), addr := BitVec.ofNat 64 (line * 2 ^ 25) }
/-- An access of an engine to line 0. -/
def T.line : LineReq := { req := 0, piece := 0, port := 0, frame := 0, line := 0, wr := true, off := 0, len := 64, bytes := List.replicate 64 1 }
/-- A transaction of line 0 that waits for agent 3's answer and for peer slot 2. -/
def T.txn : Txn := { line := 0, why := .engWrite T.line (some 3), snoops := [⟨3, 7, 0, false⟩], backs := [(2, 0)] }
theorem wit_CoherenceCommandsKeepTheDirectory :
    (∀ ty ∈ [0x41, 0x42, 0x43], let k := T.msgOf ty; let s := T.got 12 k (T.coh)
      (12, k) ∈ s.hub.delivered ∧ k.typN = ty ∧ s.ctxOf 12 k.srcN = some 3 ∧ s.sealed_ 12 k = false ∧ s.flag F.COH_CTL_EN = true ∧
        s.requester 12 k = some 3 ∧ s.refusing ⟨3, .port 12, 0⟩ = false ∧ s.chanCount ⟨3, .port 12, 0⟩ < 256 ∧ s.portCount (.port 12) < 4096 ∧
        (s.police 3 64).1 ≠ .drop) ∧
    (∀ ty ∈ [0x44, 0x45, 0x4B, 0x4C, 0x4D], let k := T.msgOf ty; let s := T.got 12 k (T.coh { txns := [T.txn] })
      (12, k) ∈ s.hub.delivered ∧ k.typN = ty ∧ s.senderAgent 12 k = some 3 ∧ lidSlot k.addr.toNat = s.slot ∧ k.lineOf = 0 ∧
        (s.txn 0).bind (fun t => t.snoopOf 3 k.gtag) = some ⟨3, 7, 0, false⟩) ∧
    (T.msgOf 0x4B 0 1).evs = true ∧ (T.coh { dir := [(0, some ⟨.owned, [(3, 7)], 0⟩)] }).dirEntry 0 = some ⟨.owned, [(3, 7)], 0⟩ ∧
    (∀ ty ∈ [0x4E, 0x4F], let k := T.msgOf ty; let t := { T.txn with stash := some (3, 0) }; let s := T.got 12 k (T.coh { txns := [t] })
      (12, k) ∈ s.hub.delivered ∧ k.typN = ty ∧ s.senderAgent 12 k = some 3 ∧ lidSlot k.addr.toNat = s.slot ∧ s.txn k.lineOf = some t ∧
        t.why = .engWrite T.line (some 3) ∧ t.stash.map (·.1) = some 3) ∧
    (let k := { T.msgOf 0x51 with src := 9 }
     let s := T.got 12 k (((T.coh {}).setFld F.COH_CTL_PEERS 4).setFld F.COH_PEER_EP_EP 9 0 2)
     (12, k) ∈ s.hub.delivered ∧ k.typN = 0x51 ∧ lidSlot k.addr.toNat = s.slot ∧ s.peers.find? (fun n => s.fld F.COH_PEER_EP_EP 0 n == k.srcN) = some 2) ∧
    (∀ ty ∈ [0x50, 0x52], (12, T.msgOf ty) ∈ (T.got 12 (T.msgOf ty)).hub.delivered ∧ (T.msgOf ty).typN = ty) ∧
    T.coh.agentLive 3 = true ∧ T.coh.agentLive 511 = false := by and_intros <;> decide +kernel
theorem wit_CoherenceCommandsKeepTheDirectory_times :
    (let s : State := { T.coh { txns := [T.txn] } with now := 10 ^ 12 }
     lidSlot (0 : BitVec 64).toNat = s.slot ∧ s.txn (lidLine (0 : BitVec 64).toNat) = some T.txn ∧ (∃ x ∈ T.txn.snoops, x.agent = 3 ∧ x.since + s.snpTmo < s.now) ∧
       ∃ b ∈ T.txn.backs, b.1 = 2 ∧ b.2 + 2 * s.snpTmo < s.now) ∧
    (let t := { T.txn with snoops := [], stash := some (3, 0) }; let s : State := { T.coh { txns := [t] } with now := 10 ^ 12 }
     s.txn 0 = some t ∧ t.stash = some (3, 0) ∧ 0 + s.snpTmo < s.now) ∧
    (let s : State := { T.coh { peers := [⟨2 ^ 35, 0, 0, [⟨3, 7, 0, false⟩]⟩] } with now := 10 ^ 12 }
     lidSlot (2 ^ 35 : BitVec 64).toNat ≠ s.slot ∧ ∃ b ∈ s.coh.peers, b.lid = 2 ^ 35 ∧ ∃ x ∈ b.snoops, x.agent = 3 ∧ x.since + s.snpTmo < s.now) ∧
    (let s : State := { ((T.coh {}).setFld F.COH_CTL_PEERS 4).setFld F.COH_PEER_EP_EP 9 0 2 with now := 10 ^ 12 }
     2 ∈ s.peers ∧ s.hasRoute (s.fld F.COH_PEER_EP_EP 0 2) = false ∧ smGet 0 s.coh.routeAt 2 + 1000000 ≤ s.now) ∧
    (∀ r ∈ [RegName.COH_DEAD_CMD, .COH_AGENT], T.up.admits .tl0 r 0) ∧ ((T.coh).wakeFor .tl0).agentV 3 = true ∧ (T.up.wakeFor .tl0).agentV 511 = false ∧
    (((T.coh).setFld F.COH_AGENT_DEAD 1 0 3).wakeFor .tl0).agentDead 3 = true ∧
    (let x : Sweep := ⟨1, 3, 0, 0, [(5, 7)]⟩; let s : State := { T.coh { sweeps := [x] } with now := 16384 }
     s.coh.sweeps.find? (fun x => x.q == 1 && x.since + 16384 ≤ s.now) = some x ∧ s.quarterDown 1 = false) ∧
    (let s : State := { T.up.setFld F.COH_PLIST_SIZE_LOG2N 9 with coh := { plist := [5] } }
     ringSlots (s.fld F.COH_PLIST_SIZE_LOG2N) 9 20 ≠ 0 ∧ s.msgRoom = true ∧
       (s.fld F.COH_PLIST_PROD_PROD + s.tl.outPlist.length + 2 ^ 32 - s.fld F.COH_PLIST_CONS_CONS) % 2 ^ 32 < ringSlots (s.fld F.COH_PLIST_SIZE_LOG2N) 9 20) := by
  simp only [State.admits]; and_intros <;> decide +kernel

/-- Stack 15 in state `st`, its controller enabled, with the state `k`. -/
def T.stk (st : Nat) (k : Stk := {}) : State := ((T.up.setFld F.STK_CTL_EN 1 15).setStkState 15 st).setStk 15 k
/-- The access of `T.line`, of port 7, to the bank and row it lies in. -/
def T.acc : LineReq := { T.line with port := 7 }
theorem wit_StackControllersServeRefreshTrainAndMove :
    (∀ missing ∈ [true, false], let s := T.stk 2 { coming := [(7, [T.acc])], missing := missing }
      smGet [] (s.stk 15).coming 7 = T.acc :: [] ∧ (smGet [] (s.stk 15).bufs 7).length < 64 ∧ (s.stk 15).missing = missing) ∧
    pickBest 9 true [T.acc, { T.acc with wr := false, arr := 1 }] = some T.acc ∧
    (let s := T.stk 2 { queues := [(T.acc.bank, [T.acc])], banks := [(T.acc.bank, { row := some T.acc.row })] }
     (s.fillStk 15).cycles.findSome? (fun c => ((s.fillStk 15).columnPick 15 (T.acc.bank / 32) c).map (fun l => (c, l))) = some (0, T.acc) ∧
       s.columnPick 15 (T.acc.bank / 32) 0 = some T.acc ∧
       (∀ ch ∈ [0, 31], (s.fillStk 15).cycles.findSome? (fun c => ((s.fillStk 15).columnPick 15 ch c).map (fun l => (c, l))) = none ↔ ch ≠ T.acc.bank / 32)) ∧
    (let s := (T.stk 2 { chans := [(1, { rowFree := 100 })] }).fillStk 15
     (s.cycles.findSome? (fun c => (s.rowCommand 15 1 c).map (fun t => (c, t)))).isNone = true) ∧
    (∀ k ∈ [({ debt := 8 } : Bank), { debt := 1 }, { nref := [4] }], let s := (T.stk 2 { banks := [(33, k)] }).fillStk 15
     (s.cycles.findSome? (fun c => (s.rowCommand 15 1 c).map (fun t => (c, t)))).isSome = true) ∧
    (let s := T.stk 2 { banks := [(33, { debt := 8 })] }
     (chanBanks 1).find? (fun b => decide (0 < (s.bank 15 b).debt) && decide ((s.postpone 15 : Int) ≤ (s.bank 15 b).debt) &&
       (s.bankReady 15 b 0 || s.preReady 15 b 0)) = some 33 ∧ ¬(0 < (s.chanSt 15 1).rowFree ∨ s.inPass 15 1 = true)) ∧
    (let s := T.stk 2 { banks := [(33, { debt := 1 })] }
     (chanBanks 1).find? (fun b => decide (0 < (s.bank 15 b).debt) && decide ((s.postpone 15 : Int) ≤ (s.bank 15 b).debt) &&
       (s.bankReady 15 b 0 || s.preReady 15 b 0)) = none ∧
     (chanBanks 1).find? (fun b => decide (0 < (s.bank 15 b).debt) && !s.urgent 15 b 0 && (s.bankReady 15 b 0 || s.preReady 15 b 0)) = some 33) ∧
    (let s := T.stk 2 { banks := [(33, { nref := [4] })] }
     (chanBanks 1).find? (fun b => decide (0 < (s.bank 15 b).debt) && (s.bankReady 15 b 0 || s.preReady 15 b 0)) = none ∧
       (chanBanks 1).find? (fun b => !(s.bank 15 b).nref.isEmpty && (s.actReady 15 1 b 0 || s.preReady 15 b 0)) = some 33) ∧
    ((T.stk 2 { chans := [(1, { rowFree := 1 })] }).chanSt 15 1).rowFree = 1 ∧ (T.stk 2 { pass := some (⟨0, 0, 0⟩, 0) }).inPass 15 0 = true ∧
    (let s : State := { T.stk 2 { banks := [(33, { row := some 4 })] } with now := 1000000 }
     s.cycles.find? (fun c => decide ((s.chanSt 15 1).rowFree ≤ c) && s.preReady 15 33 c && s.rowIdle 15 33 c) = some 1600000 ∧
       (s.bank 15 33).dueAt ≤ s.now ∧ (s.stk 15).rhAt + 1 * (s.rhThr 15 * 64) / 32 ≤ s.now ∧ s.stkState 15 = 2) ∧
    (∀ st ∈ [1, 2, 3, 4, 5, 6, 7], (T.stk st).stkState 15 = st) ∧ (T.stk 2).stkOpen 15 = true ∧ (T.stk 5).stkOpen 15 = false := by
  and_intros <;> decide +kernel
theorem wit_StackControllersServeRefreshTrainAndMove_times :
    (let s := (T.stk 2).setFld F.STK_TRN_CTL_START 1 15; s.stkOpen 15 = true ∧ s.flag F.STK_TRN_CTL_START 15 = true) ∧
    (let s := (T.stk 2).setFld F.STK_TRN_CTL_DT 5 15
     s.stkOpen 15 = true ∧ s.fld F.STK_TRN_CTL_DT 15 ≠ 0 ∧ s.fld F.STK_TRN_CTL_DT 15 ≤ tempDiff 255 (s.stk 15).passTemp) ∧
    (let s : State := { (T.stk 2).setFld F.STK_CTL_SLEEP_EN 1 15 with now := 10 ^ 12 }
     s.power.deep ≠ 1 ∧ s.flag F.STK_CTL_SLEEP_EN 15 = true ∧ (s.stk 15).lastReq + s.fld1 F.STK_CTL_IDLE_MS 15 * 1000000 ≤ s.now ∧ (s.stk 15).quiet = true ∧
       s.maySleep 15 = true ∧ (∀ y ∈ s.sleepUnit 15, s.maySleep y = true) ∧ (∀ m, m < 4 → s.fld F.STK_MIG_STAT_STATE 15 m = 0)) ∧
    (T.stk 2).maySleep 15 = false ∧ (T.stk 2 { pass := some (⟨0, 0, 0⟩, 0) }).stk 15 = { pass := some (⟨0, 0, 0⟩, 0) } ∧
    (∀ temp ∈ [0, 255], let s : State := { T.stk 6 with now := 10 ^ 9 }
      s.stkState 15 = 6 ∧ (s.stk 15).exitAt + 5000 + (s.fld F.STK_TIM1_TXS 15 * 5 + 7) / 8 + 22000 ≤ s.now ∧
        (s.fld F.STK_TRN_CTL_SLP_DT 15 ≤ tempDiff temp (s.stk 15).entryTemp ↔ temp = 255)) ∧
    (∀ wake ∈ [true, false], let s : State := { T.stk 4 { wakeAfter := wake } with now := 2800 }
      s.stkState 15 = 4 ∧ (s.stk 15).entryAt + 2800 ≤ s.now ∧ (s.stk 15).quiet = true ∧ (s.stk 15).wakeAfter = wake) ∧
    (∀ r ∈ [RegName.STK_TRN_CTL, .STK_PLC_SCAN, .STK_MIG_CMD], T.up.admits .tl0 r 15) ∧ ((T.stk 2).wakeFor .tl0).stkOpen 15 = true ∧
    (T.up.wakeFor .tl0).stkOpen 15 = false ∧ ((T.up.wakeFor .tl0).stk 15).scan = none ∧ (((T.stk 2 { scan := some ⟨0, none, 0⟩ }).wakeFor .tl0).stk 15).scan ≠ none ∧
    (let s : State := { (T.stk 2).setFld F.STK_PLC_CTL_DECAY_S 1 with now := 10 ^ 12 }
     s.fld F.STK_PLC_CTL_DECAY_S * 1000000000 ≠ 0 ∧ (s.stk 15).decayAt + s.fld F.STK_PLC_CTL_DECAY_S * 1000000000 ≤ s.now ∧ s.stkServes 15 = true) ∧
    (∀ left ∈ [some 0, some 1], let s : State := { (T.stk 2 { scan := some ⟨0, left, 0⟩ }).setFld F.STK_PLC_RING_LOG2N 9 15 with pool := { place := [(frameKey 15 4, 0)] } }
      (s.stk 15).scan = some ⟨0, left, 0⟩ ∧ ringSlots (s.fld F.STK_PLC_RING_LOG2N 15) 9 20 ≠ 0 ∧ s.msgRoom = true ∧
        s.scanNext 15 ⟨0, left, 0⟩ = left.bind (fun n => if n = 0 then none else nextFrame s.placeClass 0 (s.placeOf 15) 0)) := by
  simp only [State.admits]; and_intros <;> decide +kernel
/-- Page 0 of segment 0 of context 3 lies on page 0 of stack 15, by extent entry 0; entry 1 maps it to page 64 of that stack. -/
def T.page : State :=
  let e : BitVec 64 := 2 ^ 56
  { ((T.stk 2).setReg .XLT_SEG_ATTR (1 + 2 + 4 + 16 + 2 ^ 40) 0 3 0).setFld F.STK_PLC_CTL_MIG_EN 1 with
    pool := { ext := [(0, e), (1, 15 * 2 ^ 21), (2, e), (3, 64 + 15 * 2 ^ 21)] } }
/-- Migration slot 3 of stack 15 holds a migration of that page, in state `st`. -/
def T.migs (st : Nat) : State :=
  let k : Stk := { mig := [{}, {}, {}, ⟨3, 0, 0, frameKey 15 0, frameKey 15 64, 1, 1, true, 7, 0⟩] }
  (T.page.setStk 15 k).setFld F.STK_MIG_STAT_STATE st 15 3
theorem wit_StackControllersServeRefreshTrainAndMove_migration :
    (let s1 := (((T.page.setFld F.STK_MIG_ARG0_CTX 3 15).setFld F.STK_MIG_ARG1_DST_STK 15 15).setFld F.STK_MIG_ARG1_DST_PG 64 15).setFld F.STK_MIG_ARG1_EXT_INDEX 1 15
     (s1.wakeFor .tl0).pageFrame 3 0 0 = some (frameKey 15 0) ∧ (s1.wakeFor .tl0).mapped 1 1 0 = some (frameKey 15 64) ∧
       s1.fld F.STK_MIG_ARG0_CTX 15 = 3 ∧ s1.fld F.STK_MIG_ARG0_SEG 15 = 0 ∧ s1.fld F.STK_MIG_ARG0_PAGE 15 = 0 ∧ s1.flag F.STK_PLC_CTL_MIG_EN = true ∧
       keyStack (frameKey 15 0) = 15 ∧ s1.frameClass (frameKey 15 0) = s1.frameClass (frameKey 15 64) ∧ 64 < usableFrames ∧
       s1.fld F.STK_MIG_STAT_STATE 15 0 = 0 ∧ (s1.pageFrame 3 0 1 = none) ∧ ∀ m ∈ s1.migSlots, m.2.2.2 = 0) ∧
    ({ T.migs 1 with now := 1000000 } : State).copyDue (((T.migs 1).stk 15).mig.getD 3 {}) ≤ 1000000 ∧
    (T.up.setFld F.SEC_STAT_STRICT 1).flag F.SEC_STAT_STRICT = true ∧ T.up.flag F.SEC_STAT_STRICT = false ∧
    (T.migs 1).fld F.STK_MIG_STAT_STATE 15 3 = 1 ∧ ((T.migs 1).useStk 15).1 = true ∧ ((T.migs 1).useStk 15).2.stkServes 15 = true ∧ ((T.stk 5).useStk 15).1 = false ∧
    (let s := T.migs 2
     let mine := s.migSlots.filter (fun m => decide (m.2.2.2 ≠ 0) && m.2.2.1.ctx == 3 && m.2.2.1.seg == 0)
     (mine.find? (fun m => m.2.2.1.last && decide (m.2.2.2 ≠ 3))).map (fun m => m.2.2.1.batch) = some 7 ∧ (∀ m ∈ mine, m.2.2.1.batch = 7 ∧ m.2.2.2 = 2) ∧ s.xlt.rvkQ.length < 64) := by and_intros <;> decide +kernel
theorem wit_ProtectionRebuildsScrubsAndFills :
    (let s := T.stk 2 { cdq := [(frameKey 15 5, 0)] }; (s.stk 15).cdq = (frameKey 15 5, 0) :: [] ∧ s.stkOpen 15 = true) ∧
    (let f : Fold := ⟨frameKey 15 5, [(0, List.replicate 72 0)], 0, 0, none⟩
     let s : State := { T.stk 2 { folds := [f] } with now := 10 ^ 12 }
     (s.stk 15).folds.find? (fun f => decide (f.since + s.fld F.STK_ECC_CTL_FOLD_MS 15 * 1000000 ≤ s.now)) = some f ∧ s.foldOf f.frame = some f ∧ (s.useStk 15).1 = true ∧ s.reach f.frame = .direct) ∧
    ((T.stk 2).setFld F.STK_ECC_STAT_RELOC 1 15).flag F.STK_ECC_STAT_RELOC 15 = true ∧
    (∀ r ∈ [RegName.STK_REBUILD, .STK_SCRUB_CTL], T.up.admits .tl1 r 15) ∧ T.up.admits .tl1 .STK_REBUILD 0 ∧ (T.up.wakeFor .tl1).rebuildable 15 = (false, false) ∧
    (let s := (T.stk 2 { awaitP1 := true }).setFld F.STK_GRP_STAT_B_STATE 1
     (s.wakeFor .tl1).rebuildable 15 = (true, false) ∧ s.flag F.STK_REB_STAT_BUSY = false ∧ s.fld F.STK_REB_STAT_STK ≠ 15 ∧ s.rebuildable 15 ≠ (false, false) ∧
       (s.setFld F.STK_PRT_CTL_AUTO_REB 1).flag F.STK_PRT_CTL_AUTO_REB = true) ∧
    (let s := ((T.stk 2).setFld F.STK_REB_STAT_BUSY 1).setFld F.STK_REB_STAT_STK 15
     s.flag F.STK_REB_STAT_BUSY = true ∧ s.fld F.STK_REB_STAT_STK = 15 ∧ (s.stk 15).missing = false ∧ (s.setFld F.STK_GRP_STAT_B_STATE 2).unitState 1 15 = 2 ∧
       s.unitState 1 15 ≠ 2 ∧ (s.setFld F.STK_GRP_STAT_PAIR (2 * 2 ^ 14)).unitState 2 15 = 2) ∧
    (∀ p ∈ [0, framesPerStack - 2, framesPerStack - 1], let s := (T.stk 2).setFld F.STK_SCRUB_STAT_PTR p 15
      s.fld F.STK_SCRUB_STAT_PTR 15 = p ∧ s.stkOpen 15 = true ∧ (s.fld F.STK_SCRUB_CTL_PASS_H 15 ≠ 0 ∨ s.flag F.STK_SCRUB_CTL_START 15 = true)) ∧
    (let s : State := { T.stk 5 with now := 10 ^ 15 }
     s.stkState 15 = 5 ∧ s.fld F.STK_SCRUB_CTL_PASS_H 15 ≠ 0 ∧ (s.stk 15).batchAt + s.fld1 F.STK_SCRUB_CTL_BATCH_MIN 15 * 60000000000 ≤ s.now) ∧
    (let s : State := { (T.stk 2).setFld F.STK_BKT_CFG_LEAK_S 1 15 with now := 10 ^ 9 }
     s.fld F.STK_BKT_CFG_LEAK_S 15 * 1000000000 ≠ 0 ∧ (s.stk 15).leakAt + s.fld F.STK_BKT_CFG_LEAK_S 15 * 1000000000 ≤ s.now) ∧
    (let s := T.up.setFld F.GLB_STAT_STEP 5
     s.flag F.STK_SELFTEST_DONE 15 = false ∧ s.fld F.GLB_STAT_STEP = 5 ∧ s.quarterDown (stackQuarter 15) = false) ∧
    (let s := (T.stk 2).setFld F.STK_ECC_STAT_INIT 1 15; s.flag F.STK_ECC_STAT_INIT 15 = true ∧ s.stkOpen 15 = true) := by
  simp only [State.admits]; and_intros <;> decide +kernel
/-- A flit that leaves by direction `d`. -/
def T.wflit (d fails : Nat) : WFlit := { src := 0, route := 0, scalar := true, data := [1], here_ := false, path := [(d, false)], fails := fails, since := 0 }
/-- Site 19 of quarter 0 has that flit from its own core. -/
def T.weft (d fails : Nat) : State := T.up.setStn 19 { sw := [(4, [T.wflit d fails])] }
theorem wit_SitesAreFencedTestedRetiredAndPassFlits :
    (∀ st ∈ [1, 5], (T.up.setSiteState 323 st).siteState 323 = st) ∧ (T.up.setSiteState 323 0).siteState 323 = 0 ∧
    T.up.flag F.STN_QCTL_AUTO_FENCE (siteQ 323) = true ∧ (T.up.setFld F.STN_QCTL_AUTO_FENCE 0 0).flag F.STN_QCTL_AUTO_FENCE (siteQ 323) = false ∧
    (T.up.stn 323).loom = none ∧ (T.up.stn 323).fence = none ∧ T.up.admits .tl0 .STN_FENCE_CMD 3 ∧
    (∀ st ∈ [6, 7], ((T.up.setSiteState (3 * 324 + 323) st).wakeFor .tl0).siteState (3 * 324 + 323) = st) ∧
    (((T.up.setStn (3 * 324 + 323) { selftest := true }).wakeFor .tl0).stn (3 * 324 + 323)).selftest = true ∧
    (∀ c ∈ [2, 7], let s := T.up.setStn 323 { fence := some c }; (s.stn 323).fence = some c ∧ ∀ r ∈ s.ord.reqs, r.chan.eng ≠ siteEng 323) ∧
    (let s := (T.up.setSiteState 323 6).setStn 323 { selftest := true }; (s.stn 323).selftest = true ∧ s.siteState 323 = 6 ∧ s.quarterDown 0 = false) ∧
    (T.up.siteState 19 ≠ 7 ∧ T.up.switchOff 19 = false) ∧ neighbour 0 0 = none ∧ neighbour 323 2 = none ∧ neighbour 18 3 = none ∧ neighbour 17 1 = none ∧
    (∀ x ∈ [(1, 2), (18, 1), (37, 0), (20, 3)], ∀ fails ∈ [2, 3], let s := T.weft ((x.2 + 2) % 4) fails
      neighbour x.1 x.2 = some 19 ∧ s.switchOff 19 = false ∧ (s.stn 19).outQueue ((x.2 + 2) % 4) = some (4, T.wflit ((x.2 + 2) % 4) fails, []) ∧
        s.switchOff x.1 = false ∧ (smGet [] (s.stn x.1).sw x.2).length < 16) ∧
    ((T.up.setSiteState 1 7).switchOff 1 = true) ∧
    (let s : State := { T.weft 0 0 with now := 10 ^ 12 }
     smGet [] (s.stn 19).sw 4 = T.wflit 0 0 :: [] ∧ s.fld F.STN_MEND_CTL_WSTALL_MS ≠ 0 ∧ 0 + s.fld F.STN_MEND_CTL_WSTALL_MS * 1000000 ≤ s.now) := by
  simp only [State.admits]; and_intros <;> decide +kernel
/-- Loom 0 of context 3, its image at handle 0: one draft of site 0, one station with one instruction word, entry 0 on that draft. -/
def T.image (len : Nat) : State :=
  let s := ((((((T.ctx.setFld F.XLT_CTL_EN 1).setFld F.XLT_SEG_ATTR_X 1 0 3 0).setFld F.STN_LOOM_CTL_V 1 0 0).setFld F.STN_LOOM_CTL_CTX 3 0 0).setSiteState 0 1).setFld F.STN_LOOM_CTL_SEQN len 0 0)
  { s with pool := { ext := [(0, 2 ^ 56)], mem := [(0, 0x44), (1, 0x4C), (2, 1), (4, 1), (8, 64), (12, 128), (16, 192), (20, 0x40), (21, 1), (129, 0x20),
    (136, 0xC0), (137, 1), (320, 1)] } }
/-- Loom 0 holds site 0 and is in state `st`; its draft runs `run` and its queue is `queue`. -/
def T.lm (st : Nat) (run : Option Call) (queue : List Call) (s : State := T.image 0) : State :=
  ((s.setSiteState 0 3).setLoomState 0 st).setLm { looms := [(0, { T.loom run with
    entries := [1], byCmd := true, drafts := [{ q := 0, row := 0, col := 0, rows := 1, cols := 1, run := run, queue := queue }] })] }
/-- The payload of a call of entry 0 of loom 0. -/
def T.callPkt : Packet := { T.pkt 8 with len := 64, payload := List.replicate 64 0 }
/-- A chained call that loom 0 sends when its image is read. -/
def T.chain : Chain := { serial := 4, call := T.call, a := 0 }
/-- A mend of site 0 of loom 0, its replacement `dst`. -/
def T.mend (dst : Option Nat) : Mend := { site := 0, loom := 0, draft := 0, dst := dst, waited := true }
/-- Site 0 is fenced, and the mend of it waits. -/
def T.mends (dst : Option Nat) : State :=
  let s := ((T.lm 4 none []).setSiteState 0 6).setFld F.STN_MEND_CTL_AUTO 1
  { s with lm := { s.lm with mends := [T.mend dst] } }
theorem wit_LoomsLoadCallPauseAndMend :
    T.up.admits .tl0 .STN_LOOM_CMD 0 ∧ ((T.image 0).wakeFor .tl0).loomState 0 = 0 ∧ ((T.image 0).wakeFor .tl0).loadAllowed 0 = true ∧
    ((T.image 8).wakeFor .tl0).loadAllowed 0 = false ∧
    (let x : Load := { serial := 0, loom := 0, out := 1 }; x.got.length < x.out) ∧
    (∀ st ∈ [Status.ok, .poison, .accessDenied], let x : Load := { serial := 0, loom := 0, out := 1, got := [(0, st, [])] }
      x.out ≤ x.got.length ∧ (x.got.find? (fun g => g.2.1 != .ok)).map (·.2.1) = if st = .ok then none else some st) ∧
    (let s := (T.image 0).setLoomState 0 1
     s.loomState 0 = 1 ∧ (s.loom 0).resetting = false ∧ s.lm.loads = []) ∧
    (∀ st ∈ [1, 2, 3, 4, 5, 6], ((T.lm st none []).wakeFor .tl0).loomState 0 = st ∧ (((T.lm st none []).wakeFor .tl0).loom 0).byCmd = true ∧
      ((T.lm st none []).loom 0).resetting = false ∧ (T.lm st none []).mending 0 = false) ∧
    (T.mends none).mending 0 = true ∧
    (let k := T.callPkt
     let s := T.got 12 k (T.lm 2 none [])
     (12, k) ∈ s.hub.delivered ∧ k.typN = 8 ∧ s.ctxOf 12 k.srcN = some 3 ∧ (s.police 3 k.cost).1 ≠ .drop ∧ s.callCheck (some 3) k.payload = .ok ∧
       s.refusing ⟨3, .port 12, 0⟩ = false ∧ s.chanCount ⟨3, .port 12, 0⟩ < 256 ∧ s.portCount (.port 12) < 4096 ∧
       (T.got 12 k (T.image 0)).callCheck (some 3) k.payload = .accessDenied ∧
       (T.got 12 k (T.lm 2 none (List.replicate 16 T.call))).callCheck (some 3) k.payload = .busy) ∧
    (15, T.callPkt) ∈ (T.got 15 T.callPkt).hub.delivered ∧ (T.got 11 T.callPkt T.ctx).ctxOf 11 0 = none := by
  simp only [State.admits]; and_intros <;> decide +kernel
theorem wit_LoomsLoadCallPauseAndMend_runs :
    (∀ st ∈ [2, 5], let s := T.lm st none [T.call]
      s.loomState 0 = st ∧ ((s.loom 0).drafts[0]?).map (fun x => (x.queue, x.run, x.lost)) = some ([T.call], none, false) ∧ (s.loom 0).resetting = false ∧
        s.siteState 0 = 3) ∧
    ((T.loom none).drafts[15]? = none) ∧
    (∀ st ∈ [Status.ok, .poison], let s : State := { T.lm 2 none [] with ord := { done := [T.done (.chain 4) st] } }
      let s := s.setLm { s.lm with chains := [T.chain] }
      s.lm.chains.find? (fun x => x.call.loom == 0 && x.sent.isNone && s.ord.done.any (fun d => d.dest == .chain x.serial)) = some T.chain ∧
        s.ord.done.find? (fun d => d.dest == .chain T.chain.serial) = some (T.done (.chain 4) st)) ∧
    (let s := (T.mends none).setSiteState 7 1
     s.nextMend.filter (fun m => m.site == 0) = some (T.mend none) ∧ s.flag F.STN_MEND_CTL_AUTO = true ∧ s.firmware = true ∧
       s.siteState 0 = 6) ∧
    (let s := T.mends (some 7)
     s.settleLooms.lm.mends.find? (fun m => m.site == 0 && m.dst.isSome) = some (T.mend (some 7)) ∧
       (∀ d ∈ (s.settleLooms.loom 0).drafts, d.run = none) ∧ (T.mend (some 7)).waited = true ∧
       ((s.settleLooms.loom 0).stns.map (·.site)).filter (· ≠ 0) = []) := by and_intros <;> decide +kernel
/-- Every site of quarter 0 is retired. -/
def T.noSites : State := { T.up with regs := (List.range 324).map (fun k => (RegName.STN_SITE.addr 0 k 0, 7)) }
theorem wit_LoomsLoadCallPauseAndMend_replacement : T.up.replacement 0 = some 0 ∧ T.noSites.replacement 0 = none := by and_intros <;> decide +kernel

/-! ### Hypotheses of the statements about pages, urgency and steps -/

/-- The worked example of R119: page 5 of a run of 2^SPREAD = 4 from stack 8, page 100. -/
theorem wit_PagesOfARunFollowTheTwoFormulas :
    (let e : Nat × Nat := (2 ^ 56 + 7 * 2 ^ 40, 100 + 8 * 2 ^ 21 + 2 * 2 ^ 25)
     extSpread e = 2 ∧ extFrameStk e % 2 ^ extSpread e = 0 ∧ 5 < extLen e ∧ extFramePg e + (extLen e - 1) / 2 ^ extSpread e ≤ 1474559 ∧
       keyStack (extFrame e 5) = 9 ∧ keyPage (extFrame e 5) = 101) ∧
    (let e : Nat × Nat := (2 ^ 56, 1474560)
     extFrameStk e % 2 ^ extSpread e = 0 ∧ extV e = true ∧ 0 < extLen e ∧ 1474559 < extFramePg e + 0 / 2 ^ extSpread e) ∧
    (extFrameStk (0, 1 * 2 ^ 21 + 2 ^ 25) % 2 ^ extSpread (0, 1 * 2 ^ 21 + 2 ^ 25) ≠ 0) ∧ T.up.admits .tl0 .XLT_EXT_OP 0 ∧
    T.page.mapped 1 1 0 = some (frameKey 15 64) := by simp only [State.admits]; and_intros <;> decide +kernel
theorem wit_UrgencyRisesTowardsTheDeadline :
    (let s := T.stk 2 { coming := [(7, [T.acc])] }
     smGet [] (s.stk 15).coming 7 = T.acc :: [] ∧ (smGet [] (s.stk 15).bufs 7).length < 64 ∧ (s.stk 15).missing = false) ∧
    targetCycles 1 = 2 ∧ targetCycles 1000 = 1600 ∧
    (∀ x ∈ [(99, 0), (799, 0), (800, 1), (1199, 1), (1200, 2), (1599, 2), (1600, 3)], { T.acc with target := 1600 }.urgency x.1 = x.2) := by and_intros <;> decide +kernel
theorem wit_EveryStepTakesItsCommand :
    ∃ t, step ({ State.reset with pending := [.reclaimSweepEnd 0] } : State) = .next t ∧ Memory.wf State.reset.pool.mem = true :=
  ⟨_, rfl, by decide +kernel⟩

/-! ### Worked examples of the spec -/

/-- The example of R119: line 679 of frame 74,565 lies in channel 2, bank group 1, bank 1 and row 4,660. -/
theorem test_R119_example :
    let l : LineReq := { T.line with frame := frameKey 3 74565, line := 679 }
    l.bank = 2 * 32 + 1 * 4 + 1 ∧ l.row = 4660 := by decide +kernel
end

section
/-!
The law of a write-1-to-clear bit (R4, Table 0-4), and what it says of configuration accesses (R311, R412): hardware that sets
the bit in the cycle of the write wins, which the statement about `STK_BKT_OVF` leaves out.
-/
namespace Sys2Proof.Machine
open Sys2Proof

/-! ### Write-1-to-clear fields -/

theorem RegName.mask_lt (r : RegName) (p : Acc → Bool) : r.mask p < 2 ^ 64 := by
  refine Nat.lt_pow_two_of_testBit _ fun k hk => ?_
  rw [RegName.mask_testBit, List.any_eq_false]
  rintro ⟨g, b⟩ hg
  have := (RegName.fieldsApart_mem hg).2.1
  simp only [Bool.and_eq_true, decide_eq_true_eq]
  omega

/-- The model writes the complement of a 64-bit number as a subtraction. -/
theorem testBit_complement64 {x k : Nat} (hx : x < 2 ^ 64) (hk : k < 64) : (2 ^ 64 - 1 - x).testBit k = !x.testBit k := by
  rw [Nat.sub_sub, Nat.add_comm 1 x, Nat.testBit_two_pow_sub_succ hx, decide_eq_true hk, Bool.true_and]

theorem State.clears_lt (s : State) (r : RegName) {m : Nat} (hm : m < 2 ^ 64) (v inst i : Nat) : s.clears r m v inst i < 2 ^ 64 :=
  Nat.lt_of_le_of_lt (Nat.le_trans Nat.and_le_left Nat.and_le_left) hm

/-- A write clears a W1C bit that it has as 1, unless hardware set the bit in the same cycle; it never sets one. -/
theorem State.typedWrite_testBit_w1c (s : State) {r : RegRef} (v : Nat) {f : Fld} {b : Nat} (hf : (f, .w1c) ∈ r.reg.fields) (hb : b < f.width)
    (hwet : smGet 0 s.intc.wet (r.reg.addr r.inst r.i 0) < 2 ^ 64) :
    ((s.typedWrite r v).fld f r.inst r.i r.j).testBit b =
      ((s.fld f r.inst r.i r.j).testBit b &&
        !((f.of v).testBit b && !(smGet 0 s.intc.wet (r.reg.addr r.inst r.i 0)).testBit (f.lo + b))) := by
  obtain ⟨hreg, hfit, -⟩ := RegName.fieldsApart_mem hf
  have h64 : f.lo + b < 64 := by omega
  have hrw : (r.reg.mask accRW).testBit (f.lo + b) = false := RegName.mask_field hf _ _ hb
  have hw1c : (r.reg.mask (fun a => a == .w1c)).testBit (f.lo + b) = true := RegName.mask_field hf _ _ hb
  have hclears := s.clears_lt r.reg (r.reg.mask_lt (fun a => a == .w1c)) v r.inst r.i
  have hval : (s.typedWrite r v).regVal f.reg r.inst r.i r.j =
      (((s.regVal f.reg r.inst r.i r.j &&& (2 ^ 64 - 1 - r.reg.mask accRW)) ||| (v &&& r.reg.mask accRW)) &&&
        (2 ^ 64 - 1 - s.clears r.reg (r.reg.mask (fun a => a == .w1c)) v r.inst r.i)) % 2 ^ 64 := by
    rw [hreg]
    exact State.regVal_setReg_same _ _ _ _ _ _
  simp only [State.fld, Fld.of, hval, bits_testBit, Nat.testBit_mod_two_pow, Nat.testBit_and, Nat.testBit_or,
    testBit_complement64 (r.reg.mask_lt accRW) h64, testBit_complement64 hclears h64, hrw, hb, h64, decide_true, Bool.true_and,
    Bool.not_false, Bool.and_true, Bool.and_false, Bool.or_false]
  rw [State.clears, Nat.testBit_and, Nat.testBit_and, testBit_complement64 hwet h64, hw1c, Bool.true_and]

/-- A W1C bit that hardware set in the cycle of a write stays set, whatever is written. -/
theorem State.typedWrite_testBit_wet {s : State} {r : RegRef} (v : Nat) {f : Fld} {b : Nat} (hf : (f, .w1c) ∈ r.reg.fields) (hb : b < f.width)
    (hlt : smGet 0 s.intc.wet (r.reg.addr r.inst r.i 0) < 2 ^ 64)
    (hwet : (smGet 0 s.intc.wet (r.reg.addr r.inst r.i 0)).testBit (f.lo + b) = true) (hset : (s.fld f r.inst r.i r.j).testBit b = true) :
    ((s.typedWrite r v).fld f r.inst r.i r.j).testBit b = true := by
  rw [State.typedWrite_testBit_w1c s v hf hb hlt, hset, hwet, Bool.not_true, Bool.and_false]
  rfl

/-! ### Writes of configuration space -/

/-- A write that meets a register in an open window is handed to that register. -/
theorem State.writeAt_of_regAt {s : State} {w : Writer} {off : Nat} {r : RegRef} (v : BitVec 64) (hheld : (s.wakeFor w).heldReset = false)
    (hr : regAt off = .reg r) (hopen : (s.wakeFor w).windowShut off = false) (hhome : r.inst = r.reg.home r.inst) :
    s.writeAt w off v = resState (s.wakeFor w) (fullWrite w v r s) := by
  unfold State.writeAt State.cfgWrite
  simp [hheld, hr, hopen, ← hhome]

/-- `STK_BKT_OVF` has no command of its own: a write of it follows the access types of its fields. -/
theorem fullWrite_stkBktOvf (w : Writer) (v : BitVec 64) (inst i j : Nat) (s : State) :
    fullWrite w v ⟨.STK_BKT_OVF, inst, i, j⟩ s =
      .next (s.regWrite w .STK_BKT_OVF inst (fun u => u.typedWrite ⟨.STK_BKT_OVF, inst, i, j⟩ v.toNat)) := rfl

theorem State.writeAt_stkBktOvf {s : State} {w : Writer} {off inst i j : Nat} (v : BitVec 64) (hadm : s.admits w .STK_BKT_OVF inst)
    (hr : regAt off = .reg ⟨.STK_BKT_OVF, inst, i, j⟩) (hopen : (s.wakeFor w).windowShut off = false) :
    s.writeAt w off v = (s.wakeFor w).typedWrite ⟨.STK_BKT_OVF, inst, i, j⟩ v.toNat := by
  rw [State.writeAt_of_regAt v hadm.1 hr hopen rfl, fullWrite_stkBktOvf, State.regWrite_admitted hadm]
  rfl

/-! ### A bucket that overflows in the cycle of the write -/

/-- The device is out of power-on reset, SIZE of stack 0's buckets is 1, and an error has just been counted in its LINE bucket: the bucket
overflows, and LINE is set in this cycle (R168). -/
def lineOverflow : State := (State.setFld { power := { porst := false } } F.STK_BKT_CFG_SIZE 1).bucket 0 0

theorem lineOverflow_admits : lineOverflow.admits .tl0 .STK_BKT_OVF 0 := by
  unfold State.admits
  decide +kernel

theorem lineOverflow_windowOpen : (lineOverflow.wakeFor .tl0).windowShut 0x2001070 = false := by decide +kernel

theorem regAt_stkBktOvf_stack0 : regAt 0x2001070 = .reg ⟨.STK_BKT_OVF, 0, 0, 0⟩ := by decide +kernel

/-- A write of 1 to LINE in that cycle does not clear it. -/
theorem lineOverflow_write_keeps_line : ((lineOverflow.writeAt .tl0 0x2001070 1).fld F.STK_BKT_OVF_LINE).testBit 0 = true := by
  rw [State.writeAt_stkBktOvf 1 lineOverflow_admits regAt_stkBktOvf_stack0 lineOverflow_windowOpen]
  have hset : ((lineOverflow.wakeFor .tl0).fld F.STK_BKT_OVF_LINE).testBit 0 = true := by decide +kernel
  have hwet : smGet 0 (lineOverflow.wakeFor .tl0).intc.wet (RegName.STK_BKT_OVF.addr 0 0 0) = 1 := by decide +kernel
  exact State.typedWrite_testBit_wet (r := ⟨.STK_BKT_OVF, 0, 0, 0⟩) (f := F.STK_BKT_OVF_LINE) _ (by decide) (by decide)
    (by rw [hwet]; decide) (by rw [hwet]; decide) hset

/-- Refutes O37: its clause about `STK_BKT_OVF` has every bit written as 1 clear, and `lineOverflow` keeps LINE, because hardware set it in the
cycle of the write (R4, Table 0-4: "leaves the bit set"). -/
theorem not_configurationAccessesReachTheirRegister : ¬ Obligations.ConfigurationAccessesReachTheirRegister := by
  unfold Obligations.ConfigurationAccessesReachTheirRegister
  intro h
  obtain ⟨hheld, hblock, hbarred⟩ := lineOverflow_admits
  obtain ⟨-, -, -, -, hregister⟩ := h .tl0 0x2001070 1 lineOverflow
  obtain ⟨-, -, hwrite⟩ := hregister ⟨.STK_BKT_OVF, 0, 0, 0⟩ hheld regAt_stkBktOvf_stack0
  obtain ⟨-, -, hbktOvf, -⟩ := hwrite lineOverflow_windowOpen hblock rfl
  obtain ⟨t, ⟨ht, -⟩, -, -, hclears⟩ := hbktOvf rfl hbarred
  have htw : lineOverflow.writeAt .tl0 0x2001070 1 = t := Host.Outcome.next.inj ht
  have hcleared : (t.fld F.STK_BKT_OVF_LINE).testBit 0 = false := by
    rw [hclears F.STK_BKT_OVF_LINE .w1c 0 (by decide)]
    exact Bool.and_false _
  exact absurd lineOverflow_write_keeps_line (by rw [htw, hcleared]; decide)

end Sys2Proof.Machine
end

section
/-!
What an operation leaves alone, as a relation between the state before and the state after: the registers at a set of offsets, and power
management with them. The operations on pool memory, on placement words and on the sleep of the stacks are shown to keep both.
-/
namespace Sys2Proof.Machine
open Sys2Proof

/-! ### Registers at a set of offsets -/

/-- Every register at an offset that `A` names holds the same value, whatever an unlisted register is read as. -/
def State.keepsAt (s : State) (A : Nat → Prop) (t : State) : Prop := ∀ d a, A a → smGet d t.regs a = smGet d s.regs a

theorem State.keepsAt.refl (s : State) (A : Nat → Prop) : s.keepsAt A s := fun _ _ _ => rfl

theorem State.keepsAt.trans {s t u : State} {A : Nat → Prop} (h : s.keepsAt A t) (g : t.keepsAt A u) : s.keepsAt A u :=
  fun d a ha => (g d a ha).trans (h d a ha)

theorem State.keepsAt.mono {s t : State} {A B : Nat → Prop} (h : s.keepsAt A t) (hB : ∀ a, B a → A a) : s.keepsAt B t :=
  fun d a ha => h d a (hB a ha)

theorem State.keepsAt_of_regs {s t : State} (A : Nat → Prop) (h : t.regs = s.regs) : s.keepsAt A t := fun _ _ _ => by rw [h]

theorem State.regsBut.keepsAt {s t : State} {l : List Nat} {A : Nat → Prop} (h : s.regsBut t l) (hl : ∀ a ∈ l, ¬A a) : s.keepsAt A t :=
  fun d a ha => h d a (fun hm => hl a hm ha)

theorem State.keepsAt_setReg (s : State) {A : Nat → Prop} {r : RegName} {inst i j : Nat} (v : Nat) (h : ¬A (r.addr inst i j)) :
    s.keepsAt A (s.setReg r v inst i j) :=
  (s.regsBut_setReg r v inst i j).keepsAt (by simpa using h)

theorem State.keepsAt_setFld (s : State) {A : Nat → Prop} {f : Fld} {inst i j : Nat} (v : Nat) (h : ¬A (f.reg.addr inst i j)) :
    s.keepsAt A (s.setFld f v inst i j) := s.keepsAt_setReg _ h

theorem State.keepsAt_count (s : State) {A : Nat → Prop} {f : Fld} {inst i j : Nat} (n : Nat) (h : ¬A (f.reg.addr inst i j)) :
    s.keepsAt A (s.count f n inst i j) := s.keepsAt_setReg _ h

theorem State.keepsAt.regVal {s t : State} {A : Nat → Prop} {r : RegName} {inst i j : Nat} (h : s.keepsAt A t) (ha : A (r.addr inst i j)) :
    t.regVal r inst i j = s.regVal r inst i j := congrArg BitVec.toNat (h _ _ ha)

theorem State.keepsAt.fld {s t : State} {A : Nat → Prop} {f : Fld} {inst i j : Nat} (h : s.keepsAt A t) (ha : A (f.reg.addr inst i j)) :
    t.fld f inst i j = s.fld f inst i j := by
  unfold State.fld
  rw [h.regVal ha]

/-- A step that keeps registers for every element of a list keeps them through the list. -/
theorem State.keepsAt_foldl {α : Type} {A : Nat → Prop} {f : State → α → State} {l : List α} (hf : ∀ t : State, ∀ a ∈ l, t.keepsAt A (f t a)) (s : State) :
    s.keepsAt A (l.foldl f s) :=
  List.foldlRecOn l f (.refl s A) fun t ht a ha => ht.trans (hf t a ha)

/-! ### Power management with them -/

/-- From `s` to `t` power management is left alone, and so are the registers at the offsets that `A` names. -/
structure State.calm (s : State) (A : Nat → Prop) (t : State) : Prop where
  power : t.power = s.power
  regs : s.keepsAt A t

section Calm
variable {A : Nat → Prop} {s t u : State}

theorem State.calm.refl (s : State) : s.calm A s := ⟨rfl, .refl s A⟩

theorem State.calm.trans (h : s.calm A t) (g : t.calm A u) : s.calm A u := ⟨g.power.trans h.power, h.regs.trans g.regs⟩

theorem State.calm_of_eq (hp : t.power = s.power) (hr : t.regs = s.regs) : s.calm A t := ⟨hp, State.keepsAt_of_regs A hr⟩

theorem State.calm_setReg (s : State) {r : RegName} {inst i j : Nat} (v : Nat) (h : ¬A (r.addr inst i j)) : s.calm A (s.setReg r v inst i j) :=
  ⟨rfl, s.keepsAt_setReg v h⟩

theorem State.calm_setFld (s : State) {f : Fld} {inst i j : Nat} (v : Nat) (h : ¬A (f.reg.addr inst i j)) : s.calm A (s.setFld f v inst i j) :=
  s.calm_setReg _ h

theorem State.calm_count (s : State) {f : Fld} {inst i j : Nat} (n : Nat) (h : ¬A (f.reg.addr inst i j)) : s.calm A (s.count f n inst i j) :=
  s.calm_setReg _ h

theorem State.calm_foldl {α : Type} {f : State → α → State} {l : List α} (hf : ∀ t : State, ∀ a ∈ l, t.calm A (f t a)) (s : State) :
    s.calm A (l.foldl f s) :=
  List.foldlRecOn l f (.refl s) fun t ht a ha => ht.trans (hf t a ha)

/-! ### Interrupt sources and events -/

theorem State.raise_regs (s : State) (n : Nat) : (s.raise n).regs = s.regs := by
  unfold State.raise
  split
  · rfl
  · split
    · split <;> rfl
    · rfl

theorem State.raise_power (s : State) (n : Nat) : (s.raise n).power = s.power := by
  unfold State.raise
  split
  · rfl
  · split
    · split <;> rfl
    · rfl

theorem State.calm_raise (s : State) (n : Nat) : s.calm A (s.raise n) := State.calm_of_eq (s.raise_power n) (s.raise_regs n)

theorem State.calm_event (s : State) (hA : ¬A (RegName.TL_EVT_STAT.addr 0 0 0)) (src cls : Nat) (payload : List Nat) :
    s.calm A (s.event src cls payload) := by
  unfold State.event
  dsimp only
  split
  · exact State.calm_of_eq rfl rfl
  · exact State.calm.trans (t := s.nextSeq src) (State.calm_of_eq rfl rfl) (State.calm_count (f := F.TL_EVT_STAT_LOST) _ 1 hA)

theorem State.calm_setSticky (s : State) {f : Fld} {inst i : Nat} (h : ¬A (f.reg.addr inst i 0)) : s.calm A (s.setSticky f inst i) := by
  unfold State.setSticky
  exact (s.calm_setFld 1 h).trans (State.calm_of_eq rfl rfl)

theorem State.calm_evrNote (s : State) (kind inst : Nat) (f : BitVec 2048 → BitVec 2048) : s.calm A (s.evrNote kind inst f) := by
  unfold State.evrNote
  extract_lets down
  split
  · exact .refl s
  · exact State.calm_of_eq rfl rfl

theorem State.calm_evrCE (s : State) (x b : Nat) : s.calm A (s.evrCE x b) := by
  unfold State.evrCE
  exact s.calm_evrNote _ _ _

theorem State.calm_evrUE (s : State) (x : Nat) : s.calm A (s.evrUE x) := by
  unfold State.evrUE
  exact s.calm_evrNote _ _ _

/-! ### Operations on stacks and pool memory alone -/

theorem State.calm_setStk (s : State) (x : Nat) (k : Stk) : s.calm A (s.setStk x k) := State.calm_of_eq rfl rfl

theorem State.calm_setPool (s : State) (p : Pool) : s.calm A (s.setPool p) := State.calm_of_eq rfl rfl

theorem State.calm_writePool (s : State) (frame byte : Nat) (bs : List (BitVec 8)) : s.calm A (s.writePool frame byte bs) := State.calm_of_eq rfl rfl

theorem State.calm_setSide (s : State) (frame line : Nat) (v : BitVec 64) : s.calm A (s.setSide frame line v) := State.calm_of_eq rfl rfl

theorem State.calm_setPageState (s : State) (frame v : Nat) : s.calm A (s.setPageState frame v) := State.calm_of_eq rfl rfl

theorem State.calm_setSlotWord (s : State) (frame line : Nat) (w : List (BitVec 8)) : s.calm A (s.setSlotWord frame line w) := State.calm_of_eq rfl rfl

theorem State.calm_dropFold (s : State) (frame : Nat) : s.calm A (s.dropFold frame) := State.calm_of_eq rfl rfl

theorem State.calm_cleanPage (s : State) (frame : Nat) : s.calm A (s.cleanPage frame) := State.calm_of_eq rfl rfl

theorem State.calm_storeLine (s : State) (frame line : Nat) (data : List (BitVec 8)) (tag : Nat) : s.calm A (s.storeLine frame line data tag) := by
  unfold State.storeLine
  split
  · exact .refl s
  · exact State.calm_of_eq rfl rfl

theorem State.calm_notePoison (s : State) (frame line : Nat) : s.calm A (s.notePoison frame line) := by
  unfold State.notePoison
  dsimp only
  split
  · exact .refl s
  · split <;> exact State.calm_setPageState s _ _

theorem State.calm_clearPoison (s : State) (frame line : Nat) : s.calm A (s.clearPoison frame line) := by
  unfold State.clearPoison
  dsimp only
  split
  · exact State.calm_setPageState s _ _
  · exact .refl s

theorem State.calm_storeNoted (s : State) (frame line : Nat) (data : List (BitVec 8)) (tag : Nat) : s.calm A (s.storeNoted frame line data tag) := by
  unfold State.storeNoted
  dsimp only
  split
  · exact (s.calm_storeLine _ _ _ _).trans (State.calm_notePoison _ _ _)
  · exact (s.calm_storeLine _ _ _ _).trans (State.calm_clearPoison _ _ _)

theorem State.calm_markDirty (s : State) (frame : Nat) : s.calm A (s.markDirty frame) := by
  unfold State.markDirty
  dsimp only
  split <;> exact State.calm_of_eq rfl rfl

theorem State.calm_setCtrl (s : State) (frame line ctrl : Nat) : s.calm A (s.setCtrl frame line ctrl) := by
  unfold State.setCtrl
  split
  · exact State.calm_of_eq rfl rfl
  · exact .refl s

theorem State.calm_setCheck (s : State) (frame k : Nat) (c : List (BitVec 8)) : s.calm A (s.setCheck frame k c) := by
  unfold State.setCheck
  dsimp only
  split
  · split
    · exact State.calm_foldl (fun t _ _ => t.calm_setCtrl _ _ _) s
    · exact .refl s
  · exact s.calm_storeLine _ _ _ _

theorem State.calm_putChecks (s : State) (frame : Nat) (cs : List (List (BitVec 8))) : s.calm A (s.putChecks frame cs) :=
  State.calm_foldl (fun t _ _ => t.calm_setCheck _ _ _) s

theorem State.calm_putCode (s : State) (frame : Nat) (ls : List (Nat × List (BitVec 8))) : s.calm A (s.putCode frame ls) := s.calm_putChecks _ _

theorem State.calm_streamFrame (s : State) (frame : Nat) (page : List (Nat × List (BitVec 8) × Nat)) : s.calm A (s.streamFrame frame page) := by
  unfold State.streamFrame
  extract_lets p s1 s2 s3 s4
  have h1 : s.calm A s1 := s.calm_setPool _
  have h2 : s1.calm A s2 := by
    unfold s2
    split
    · exact .refl s1
    · exact State.calm_foldl (fun t _ _ => t.calm_setSide _ _ _) s1
  have h3 : s2.calm A s3 := State.calm_foldl (fun t _ _ => t.calm_storeLine _ _ _ _) s2
  have h4 : s3.calm A s4 := s3.calm_putCode _ _
  exact (((h1.trans h2).trans h3).trans h4).trans ((s4.calm_cleanPage _).trans (State.calm_setPageState _ _ _))

theorem State.calm_stream (s : State) (frame : Nat) (page : List (Nat × List (BitVec 8) × Nat)) : s.calm A (s.stream frame page) := by
  unfold State.stream
  extract_lets t
  have ht : s.calm A t := by
    unfold t
    split
    · exact s.calm_streamFrame _ _
    · exact .refl s
  split
  · exact ht
  · split
    · exact ht
    · split
      · exact ht.trans (t.calm_streamFrame _ _)
      · exact ht.trans (t.calm_streamFrame _ _)

theorem State.calm_setPlace (s : State) (frame v : Nat) : s.calm A (s.setPlace frame v) := by
  unfold State.setPlace State.placeBack
  exact (s.calm_setStk _ _).trans (State.calm_foldl (fun t _ _ => t.calm_setPool _) _)

theorem State.calm_flushPlaces (s : State) (x : Nat) : s.calm A (s.flushPlaces x) := by
  unfold State.flushPlaces State.placeBack
  exact (s.calm_setStk _ _).trans (State.calm_foldl (fun t _ _ => t.calm_setPool _) _)

theorem State.calm_takeHints (s : State) (x : Nat) : s.calm A (s.takeHints x) := by
  unfold State.takeHints
  exact (s.calm_setStk _ _).trans (State.calm_foldl (fun t _ _ => t.calm_setPlace _ _) _)

end Calm

/-! ### Reads and writes of pool memory: `STK_STAT` stays as it is -/

/-- The offsets of `STK_STAT` of the sixteen stacks. -/
def stkStatAt (a : Nat) : Prop := ∃ x < 16, a = RegName.STK_STAT.addr x 0 0

theorem RegName.addr_ofStk {r : RegName} (hb : r.spec.block = .stk) (hd : r.spec.device = false) (x : Nat) :
    r.addr x 0 0 = 0x2000000 + x * 0x40000 + r.spec.base := by
  simp [RegName.addr, RegName.home, hb, hd, Block.origin]

/-- A register of a stack that stands elsewhere in the stack's block than `STK_STAT`, whatever the stack's number. -/
theorem not_stkStatAt {r : RegName} (hb : r.spec.block = .stk) (hd : r.spec.device = false) (h : 8 < r.spec.base) (hlt : r.spec.base < 0x40000)
    (x : Nat) : ¬stkStatAt (r.addr x 0 0) := by
  rintro ⟨y, hy, he⟩
  rw [RegName.addr_ofStk hb hd, RegName.addr_ofStk (r := .STK_STAT) rfl rfl] at he
  have : RegName.STK_STAT.spec.base = 8 := rfl
  omega

theorem not_stkStatAt_of_le {a : Nat} (h : 0x2400000 ≤ a) : ¬stkStatAt a := by
  rintro ⟨y, hy, he⟩
  rw [RegName.addr_ofStk (r := .STK_STAT) rfl rfl] at he
  have : RegName.STK_STAT.spec.base = 8 := rfl
  omega

theorem not_stkStatAt_tlEvtStat : ¬stkStatAt (RegName.TL_EVT_STAT.addr 0 0 0) := not_stkStatAt_of_le (by decide)

theorem not_stkStatAt_ofChk {r : RegName} (hb : r.spec.block = .chk) (u : Nat) : ¬stkStatAt (r.addr 0 u 0) := by
  refine not_stkStatAt_of_le ?_
  simp only [RegName.addr, hb, Block.origin]
  omega

theorem State.calm_event_stk (s : State) (src cls : Nat) (payload : List Nat) : s.calm stkStatAt (s.event src cls payload) :=
  s.calm_event not_stkStatAt_tlEvtStat src cls payload

theorem State.calm_bucket (s : State) (x b : Nat) : s.calm stkStatAt (s.bucket x b) := by
  unfold State.bucket
  extract_lets f o t n
  have ht : s.calm stkStatAt t := s.calm_evrCE _ _
  have hf : ¬stkStatAt (f.reg.addr x 0 0) := by
    unfold f
    split_ifs <;> exact not_stkStatAt (r := .STK_BKT_LVL) rfl rfl (by decide) (by decide) x
  have ho : ¬stkStatAt (o.reg.addr x 0 0) := by
    unfold o
    split_ifs <;> exact not_stkStatAt (r := .STK_BKT_OVF) rfl rfl (by decide) (by decide) x
  split
  · exact ht.trans (((t.calm_setSticky ho).trans (State.calm_setFld _ 0 hf)).trans (State.calm_event_stk _ _ _ _))
  · exact ht.trans (t.calm_setFld n hf)

theorem State.calm_noteUE (s : State) (x page line origin : Nat) (written : Bool) : s.calm stkStatAt (s.noteUE x page line origin written) := by
  unfold State.noteUE
  extract_lets nw t u v
  have ht : s.calm stkStatAt t := s.calm_setReg _ (not_stkStatAt rfl rfl (by decide) (by decide) x)
  have hu : t.calm stkStatAt u := by
    unfold u
    split
    · exact (t.calm_count (f := F.STK_UE_CNT_UE) 1 (not_stkStatAt (r := .STK_UE_CNT) rfl rfl (by decide) (by decide) x)).trans (State.calm_raise _ _)
    · exact .refl t
  exact ((ht.trans hu).trans (u.calm_evrUE _)).trans (v.calm_event_stk _ _ _)

/-- Writing the code of a page keeps `STK_STAT` if writing the companion's line does. -/
theorem State.calm_recodeWith {also : State → Nat → Nat → Nat → State} (ha : ∀ (t : State) (f l o : Nat), t.calm stkStatAt (also t f l o)) (s : State)
    (frame origin : Nat) (vals : List (Nat × List (BitVec 8))) : s.calm stkStatAt (s.recodeWith also frame origin vals) := by
  unfold State.recodeWith
  extract_lets ls good r
  have hr : s.calm stkStatAt r.1 := by
    unfold r
    refine List.foldlRecOn (motive := fun (a : State × List (Nat × List (BitVec 8))) => s.calm stkStatAt a.1) _ _ (.refl s) fun a h l _ => h.trans ?_
    dsimp only
    split
    · exact (a.1.calm_bucket _ _).trans (State.calm_storeLine _ _ _ _ _)
    · exact ((a.1.calm_storeNoted _ _ _ _).trans (State.calm_noteUE _ _ _ _ _ _)).trans (ha _ _ _ _)
  exact hr.trans (State.calm_putCode _ _ _)

theorem State.calm_pageWriteWith {recode : State → Nat → Nat → List (Nat × List (BitVec 8)) → State}
    (hr : ∀ (t : State) (f o : Nat) (v : List (Nat × List (BitVec 8))), t.calm stkStatAt (recode t f o v)) (s : State) (frame line : Nat)
    (new : List (BitVec 8)) (tag : Nat) (strict : Bool)
    (origin : Nat) : s.calm stkStatAt (State.pageWriteWith recode s frame line new tag strict origin) := by
  unfold State.pageWriteWith
  extract_lets x st
  have hn : s.calm stkStatAt (s.storeNoted frame line new tag) := s.calm_storeNoted _ _ _ _
  split
  · exact hn.trans (State.calm_markDirty _ _)
  · split
    · exact hn
    · split
      · exact hn.trans (State.calm_putChecks _ _ _)
      · split
        · exact hn.trans (State.calm_putCode _ _ _)
        · exact hn.trans (hr _ _ _ _)

theorem State.calm_poisonAlso (s : State) (frame line origin : Nat) : s.calm stkStatAt (s.poisonAlso frame line origin) := by
  have hr (t : State) (f o : Nat) (v : List (Nat × List (BitVec 8))) :
      t.calm stkStatAt (State.recodeWith (fun s _ _ _ => s) t f o v) := State.calm_recodeWith (fun s _ _ _ => .refl s) t f o v
  unfold State.poisonAlso
  split
  · exact .refl s
  · split
    · exact .refl s
    · split
      · exact State.calm_pageWriteWith hr _ _ _ _ _ _ _
      · exact State.calm_pageWriteWith hr _ _ _ _ _ _ _

theorem State.calm_pageWrite (s : State) (frame line : Nat) (new : List (BitVec 8)) (tag : Nat) (strict : Bool) (origin : Nat) :
    s.calm stkStatAt (s.pageWrite frame line new tag strict origin) :=
  State.calm_pageWriteWith (fun t f o v => State.calm_recodeWith State.calm_poisonAlso t f o v) s frame line new tag strict origin

theorem State.calm_protWrite (s : State) (frame line : Nat) (new : List (BitVec 8)) (tag : Nat) (strict : Bool) (origin : Nat) :
    s.calm stkStatAt (s.protWrite frame line new tag strict origin) := by
  unfold State.protWrite
  extract_lets here t
  have ht : s.calm stkStatAt t := by
    unfold t
    split
    · exact s.calm_pageWrite _ _ _ _ _ _
    · exact .refl s
  split
  · exact ht
  · split
    · exact ht
    · split
      · exact ht.trans (t.calm_pageWrite _ _ _ _ _ _)
      · exact ht.trans (t.calm_pageWrite _ _ _ _ _ _)

theorem State.calm_readSlot (s : State) (frame line origin : Nat) (w : List (BitVec 8)) :
    s.calm stkStatAt (s.readSlot frame line origin w).state := by
  unfold State.readSlot
  extract_lets x
  split
  · rename_i g _
    show s.calm stkStatAt (ite _ _ _)
    split
    · have ht : s.calm stkStatAt (s.bucket x 0) := s.calm_bucket _ _
      split
      · exact ht.trans (State.calm_setSlotWord _ _ _ _)
      · exact ht
    · exact .refl s
  · exact (s.calm_setSlotWord _ _ _).trans (State.calm_noteUE _ _ _ _ _ _)

theorem State.calm_readStored (s : State) (frame line origin : Nat) : s.calm stkStatAt (s.readStored frame line origin).state := by
  unfold State.readStored
  extract_lets x
  split
  · rename_i g n _
    split
    · split
      · have ht : s.calm stkStatAt (s.bucket x 0) := s.calm_bucket _ _
        show s.calm stkStatAt (ite _ _ _)
        split
        · exact ht.trans ((State.calm_writePool _ _ _ _).trans (State.calm_setSide _ _ _ _))
        · exact ht
      · exact .refl s
    · exact (s.calm_bucket _ _).trans (State.calm_storeLine _ _ _ _ _)
  · exact (s.calm_protWrite _ _ _ _ _ _).trans (State.calm_noteUE _ _ _ _ _ _)

theorem State.calm_readLine (s : State) (frame line origin : Nat) : s.calm stkStatAt (s.readLine frame line origin).state := by
  unfold State.readLine
  extract_lets x
  split
  · exact .refl s
  · split
    · exact s.calm_bucket _ _
    · exact s.calm_noteUE _ _ _ _ _
  · split
    · exact s.calm_readSlot _ _ _ _
    · exact s.calm_readStored _ _ _

end Sys2Proof.Machine
end

section
/-!
Stacks that stop and stacks that serve again keep what they must: a flush of fold slots, the line accesses that are dropped, and the entry to and exit
from self-refresh, as relations between the state before and after (R33, R136, R137, R160, R407).
-/
namespace Sys2Proof.Machine
open Sys2Proof

/-! ### Check-value units -/

theorem State.calm_chkInit (s : State) (u : Nat) : s.calm stkStatAt (s.chkInit u) :=
  (s.calm_setReg _ (not_stkStatAt_ofChk rfl u)).trans (State.calm_setReg _ _ (not_stkStatAt_ofChk rfl u))

theorem State.calm_chkCompare (s : State) (u : Nat) : s.calm stkStatAt (s.chkCompare u) := by
  unfold State.chkCompare
  extract_lets x e t v
  have ht : s.calm stkStatAt t :=
    (s.calm_setReg _ (not_stkStatAt_ofChk rfl u)).trans (State.calm_setFld (f := F.CHK_STAT_DONE) _ 1 (not_stkStatAt_ofChk (r := .CHK_STAT) rfl u))
  have hv : t.calm stkStatAt v := by
    unfold v
    split
    · exact .refl t
    · refine .trans ?_ (State.calm_event_stk _ _ _ _)
      refine .trans ?_ (State.calm_raise _ _)
      exact (t.calm_setSticky (f := F.CHK_STAT_MISMATCH) (not_stkStatAt_ofChk (r := .CHK_STAT) rfl u)).trans
        (State.calm_count (f := F.CHK_STAT_MISMATCHES) _ 1 (not_stkStatAt_ofChk (r := .CHK_STAT) rfl u))
  split
  · exact (ht.trans hv).trans (v.calm_chkInit u)
  · exact (ht.trans hv).trans (v.calm_setFld (f := F.CHK_CTL_EN) 0 (not_stkStatAt_ofChk (r := .CHK_CTL) rfl u))

theorem State.calm_chkBytes (u : Nat) (bs : List (BitVec 8)) (s : State) : s.calm stkStatAt (s.chkBytes u bs) := by
  induction bs generalizing s with
  | nil => exact .refl s
  | cons b bs ih =>
    unfold State.chkBytes
    split
    · exact .refl s
    · extract_lets run t n
      have ht : s.calm stkStatAt t :=
        (s.calm_setReg (r := .CHK_RUN) run (not_stkStatAt_ofChk rfl u)).trans
          (State.calm_count (f := F.CHK_COUNT_COUNT) _ 1 (not_stkStatAt_ofChk (r := .CHK_COUNT) rfl u))
      refine .trans ?_ (ih _)
      split
      · exact ht.trans ((t.calm_chkCompare u).trans (State.calm_of_eq rfl rfl))
      · exact ht

theorem State.calm_chkFeed (s : State) (x : ChkStream) (bs : List (BitVec 8)) : s.calm stkStatAt (s.chkFeed x bs) := by
  unfold State.chkFeed
  refine State.calm_foldl (fun t u _ => ?_) s
  split
  · refine .trans ?_ (State.calm_chkBytes u bs _)
    split
    · exact t.calm_setSticky (f := F.CHK_STAT_POISON) (not_stkStatAt_ofChk (r := .CHK_STAT) rfl u)
    · exact .refl t
  · exact .refl t

/-! ### Fold slots and writes of a line -/

theorem State.calm_foldPage (s : State) (f : Fold) : s.calm stkStatAt (s.foldPage f).2 := by
  unfold State.foldPage
  extract_lets ls absent all
  refine List.foldlRecOn (motive := fun (a : List (Nat × List (BitVec 8) × Nat) × State) => s.calm stkStatAt a.2) _ _ (.refl s)
    fun a h l _ => h.trans ?_
  dsimp only
  split
  · exact a.2.calm_readSlot _ _ _ _
  · exact a.2.calm_readStored _ _ _

theorem State.calm_flushFold (s : State) (frame : Nat) : s.calm stkStatAt (s.flushFold frame) := by
  unfold State.flushFold
  split
  · exact .refl s
  · rename_i f _
    have hp : s.calm stkStatAt (s.foldPage f).2 := s.calm_foldPage f
    dsimp only
    split
    · exact hp.trans ((State.calm_chkFeed _ _ _).trans ((State.calm_dropFold _ _).trans (State.calm_stream _ _ _)))
    · exact hp.trans ((State.calm_dropFold _ _).trans (State.calm_stream _ _ _))

theorem State.calm_flushFolds (s : State) (x : Nat) : s.calm stkStatAt (s.flushFolds x) :=
  State.calm_foldl (fun t f _ => t.calm_flushFold f.frame) s

theorem State.calm_foldLine (s : State) (frame line : Nat) (w : List (BitVec 8)) (ctx : Option Nat) :
    s.calm stkStatAt (s.foldLine frame line w ctx) := by
  unfold State.foldLine
  dsimp only
  split
  · split
    · exact (s.calm_setStk _ _).trans (State.calm_flushFold _ _)
    · exact s.calm_setStk _ _
  · refine .trans ?_ (State.calm_setStk _ _ _)
    split
    · exact .refl s
    · split
      · exact s.calm_flushFold _
      · exact .refl s

theorem State.calm_lineWrite (s : State) (frame line : Nat) (data : List (BitVec 8)) (tag : Nat) (fold strict : Bool) (ctx : Option Nat) :
    s.calm stkStatAt (s.lineWrite frame line data tag fold strict ctx) := by
  unfold State.lineWrite
  split
  · exact s.calm_foldLine _ _ _ _
  · exact s.calm_protWrite _ _ _ _ _ _

theorem State.calm_lineWriteAll (s : State) (frame line : Nat) (data : List (BitVec 8)) (tag : Nat) (fold strict : Bool) (ctx : Option Nat) :
    s.calm stkStatAt (s.lineWriteAll frame line data tag fold strict ctx) := by
  unfold State.lineWriteAll
  exact (s.calm_lineWrite _ _ _ _ _ _ _).trans (State.calm_foldl (fun t _ _ => t.calm_lineWrite _ _ _ _ _ _ _) _)

theorem State.calm_pageWritten (s : State) (frame : Nat) : s.calm stkStatAt (s.pageWritten frame) := by
  unfold State.pageWritten
  dsimp only
  split
  · exact .refl s
  · refine State.calm_foldl (fun t f _ => ?_) s
    split
    · exact .refl t
    · split
      · exact t.calm_streamFrame _ _
      · exact t.calm_setPageState _ _

theorem State.calm_writeLine (s : State) (l : LineReq) : s.calm stkStatAt (s.writeLine l).2 := by
  unfold State.writeLine
  extract_lets ctx strict
  split
  · exact .refl s
  · rename_i last done put _ _ _
    have hdone (r : Status × State) (h : s.calm stkStatAt r.2) : s.calm stkStatAt (done r).2 := by
      unfold done
      split
      · exact h.trans (State.calm_pageWritten _ _)
      · exact h
    have hput (t : State) (b : List (BitVec 8)) : t.calm stkStatAt (put t b).2 := t.calm_lineWriteAll _ _ _ _ _ _ _
    split
    · exact hdone _ (s.calm_lineWriteAll _ _ _ _ _ _ _)
    · split
      · exact hdone _ (s.calm_lineWriteAll _ _ _ _ _ _ _)
      · split
        · exact hput s _
        · have hr : s.calm stkStatAt (s.readLine l.frame l.line 0).state := s.calm_readLine _ _ _
          split
          · exact hr
          · exact hr.trans (hput _ _)

/-! ### Line accesses that are dropped -/

section Calm
variable {A : Nat → Prop}

theorem State.calm_endTxn (s : State) (line : Nat) : s.calm A (s.endTxn line) := State.calm_of_eq rfl rfl

theorem State.calm_updReq (s : State) (id : Nat) (f : Req → Req) : s.calm A (s.updReq id f) := State.calm_of_eq rfl rfl

theorem State.calm_busyLater (s : State) (id : Nat) : s.calm A (s.busyLater id) := by
  unfold State.busyLater
  split
  · exact .refl s
  · exact State.calm_of_eq rfl rfl

theorem State.calm_lineDone (s : State) (l : LineReq) (failed : Option Status) : s.calm A (s.lineDone l failed) := State.calm_of_eq rfl rfl

theorem State.calm_serveProbe (s : State) (q w i : Nat) : s.calm A (s.serveProbe q w i) := by
  unfold State.serveProbe
  split
  · exact .refl s
  · unfold State.sendProbe
    dsimp only
    split <;> exact State.calm_of_eq rfl rfl

end Calm

theorem State.calm_dropLine (s : State) (l : LineReq) : s.calm stkStatAt (s.dropLine l) := by
  unfold State.dropLine
  split
  · exact (s.calm_lineDone _ _).trans (State.calm_busyLater _ _)
  · exact s.calm_writeLine l
  · exact s.calm_serveProbe _ _ _
  · dsimp only
    split
    · exact .refl s
    · split
      · exact (s.calm_endTxn _).trans (State.calm_lineDone _ _ _)
      · split
        · exact (s.calm_endTxn _).trans (State.calm_updReq _ _ _)
        · exact s.calm_endTxn _

theorem State.calm_dropLines (s : State) (x : Nat) : s.calm stkStatAt (s.dropLines x) := by
  unfold State.dropLines
  exact (s.calm_setStk _ _).trans (State.calm_foldl (fun t l _ => t.calm_dropLine l) _)

/-! ### Entry to deep idle -/

theorem State.moveStk_power (s : State) (x st : Nat) : (s.moveStk x st).power = s.power := by
  unfold State.moveStk
  split
  · rfl
  · exact State.raise_power _ _

theorem State.startSleep_power (s : State) (x : Nat) : (s.startSleep x).power = s.power := by
  unfold State.startSleep
  split
  · extract_lets t k
    have ht : s.calm stkStatAt t := (s.calm_flushFolds x).trans (State.calm_flushPlaces _ x)
    exact (State.moveStk_power _ _ _).trans ht.power
  · rfl

/-- The entry to deep idle goes on, or ends in deep idle. -/
theorem State.deepStep_deep {s : State} (h : s.power.deep = 1) : s.deepStep.power.deep ∈ [1, 2] := by
  unfold State.deepStep
  rw [if_neg (by omega)]
  split
  · simp [h]
  · extract_lets t
    have ht : t.power = s.power :=
      List.foldlRecOn (motive := fun (u : State) => u.power = s.power) _ _ rfl fun u hu x _ => (u.startSleep_power x).trans hu
    split
    · show 2 ∈ [1, 2]
      decide
    · simp [ht, h]

/-- Where no port is UP there is none to put to sleep first. -/
theorem State.enterDeep_deep {s : State} (h : ∀ p, p < 14 → s.portUp p = false) : s.enterDeep.power.deep ∈ [1, 2] := by
  unfold State.enterDeep
  extract_lets x t u
  have hup (p : Nat) (hp : p < 14) : t.portUp p = false := by
    rw [← h p hp]
    refine congrArg (· == stUp) (State.fld_setFld_other (f := F.PWR_LP_STAT_WAITING) _ _ ?_)
    simp only [RegName.addr, RegName.home, RegName.spec, F.PORT_LNK_STAT_STATE, F.PWR_LP_STAT_WAITING, Block.origin]
    omega
  have hu : u = t := by
    refine List.foldlRecOn (motive := fun v => v = t) _ _ rfl fun v hv p hp => ?_
    subst hv
    rw [hup p (List.mem_range.mp hp)]
    rfl
  rw [hu]
  exact State.deepStep_deep rfl

/-! ### Stacks that are to serve again -/

/-- Offsets outside the blocks of the stacks. -/
def offStacks (a : Nat) : Prop := a < 0x2000000 ∨ 0x2400000 ≤ a

theorem not_offStacks_stkStat {x : Nat} (h : x < 16) : ¬offStacks (RegName.STK_STAT.addr x 0 0) := by
  rw [RegName.addr_ofStk rfl rfl, show RegName.STK_STAT.spec.base = 8 from rfl]
  unfold offStacks
  omega

theorem State.mem_sleepUnit_lt {s : State} {x y : Nat} (hx : x < 16) (hy : y ∈ s.sleepUnit x) : y < 16 := by
  have h4 : x ^^^ 4 < 2 ^ 4 := Nat.xor_lt_two_pow (by omega) (by decide)
  unfold State.sleepUnit at hy
  extract_lets b all at hy
  have hall : y ∈ all := (List.mem_filter.mp hy).1
  unfold all at hall
  split at hall
  · obtain ⟨i, hi, rfl⟩ := List.mem_map.mp hall
    have := List.mem_range.mp hi
    omega
  · split at hall
    · split at hall
      all_goals
        simp only [List.mem_cons, List.not_mem_nil, or_false] at hall
        omega
    · simp only [List.mem_cons, List.not_mem_nil, or_false] at hall
      omega

theorem State.calm_moveStk (s : State) {x : Nat} (hx : x < 16) (st : Nat) : s.calm offStacks (s.moveStk x st) := by
  unfold State.moveStk
  split
  · exact .refl s
  · exact (s.calm_setFld (f := F.STK_STAT_STATE) st (not_offStacks_stkStat hx)).trans (State.calm_raise _ _)

theorem State.calm_abandonSleep (s : State) {x : Nat} (hx : x < 16) : s.calm offStacks (s.abandonSleep x) := by
  unfold State.abandonSleep
  split
  · refine State.calm_foldl (fun t y hy => ?_) s
    split
    · exact (t.calm_moveStk (State.mem_sleepUnit_lt hx hy) _).trans (State.calm_takeHints _ _)
    · exact .refl t
  · exact .refl s

theorem State.calm_wakeStk (s : State) {x : Nat} (hx : x < 16) : s.calm offStacks (s.wakeStk x) := by
  unfold State.wakeStk
  split
  · refine State.calm_foldl (fun t y hy => ?_) s
    split
    · exact (t.calm_setStk _ _).trans (State.calm_moveStk _ (State.mem_sleepUnit_lt hx hy) _)
    · split
      · exact t.calm_setStk _ _
      · exact .refl t
  · exact .refl s

theorem State.calm_rouseStk (s : State) {x : Nat} (hx : x < 16) : s.calm offStacks (s.rouseStk x) := by
  unfold State.rouseStk
  extract_lets t
  have ht : s.calm offStacks t := s.calm_abandonSleep hx
  split
  · exact ht.trans (State.calm_setStk _ _ _)
  · exact ht.trans (State.calm_wakeStk _ hx)

/-! ### Ports that resume -/

theorem State.calm_wakePort {A : Nat → Prop} (s : State) {p : Nat} (h : ¬A (RegName.PORT_LNK_STAT.addr p 0 0)) : s.calm A (s.wakePort p) := by
  unfold State.wakePort
  split
  · exact (s.calm_setFld (f := F.PORT_LNK_STAT_STATE) stWaking h).trans (State.calm_of_eq rfl rfl)
  · exact .refl s

theorem portLnkStat_addr (p : Nat) : RegName.PORT_LNK_STAT.addr p 0 0 = 0x3000000 + p * 0x20000 + 8 := by
  simp [RegName.addr, RegName.home, RegName.spec, Block.origin]

/-- Resuming a sleeping port leaves it WAKING. -/
theorem State.wakePort_portState {s : State} {p : Nat} (h : s.portState p ∈ [stSleep, stWaking]) : (s.wakePort p).portState p = stWaking := by
  unfold State.wakePort
  split
  · change (s.setFld F.PORT_LNK_STAT_STATE stWaking p).fld F.PORT_LNK_STAT_STATE p = stWaking
    exact State.fld_setFld_same _ _ _ _ _ _ (by decide)
  · next hne =>
    simp only [List.mem_cons, List.not_mem_nil, or_false] at h
    exact h.resolve_left hne

theorem State.wakePort_portState_other (s : State) {p q : Nat} (h : p ≠ q) :
    (s.wakePort q).portState p = s.portState p := by
  refine State.keepsAt.fld (f := F.PORT_LNK_STAT_STATE)
    (State.calm_wakePort (A := fun a => a = RegName.PORT_LNK_STAT.addr p 0 0) s ?_).regs rfl
  rw [portLnkStat_addr, portLnkStat_addr]
  omega

/-! ### The device wakes -/

/-- What a wake from deep idle writes before its ports resume: the low-power status, the status pins, the cores' ASLEEP and stack registers. -/
def wakeWrites (a : Nat) : Prop :=
  a ∈ [RegName.PWR_LP_STAT.addr 0 0 0, RegName.PWR_STATPIN.addr 0 0 0, RegName.INTC_CORE.addr 0 0 0, RegName.INTC_CORE.addr 0 1 0] ∨ ¬offStacks a

/-- A field of `PWR_LP_STAT` beside those that change, or in a state that leaves the register alone. -/
theorem State.gated_bump_wakes (s : State) : (s.bump F.PWR_LP_STAT_WAKES).fld F.PWR_LP_STAT_GATED = s.fld F.PWR_LP_STAT_GATED :=
  State.fld_setFld_beside s _ _ _ _ rfl (by decide) (by decide)

theorem State.gated_setFld_ungated (s : State) : (s.setFld F.PWR_LP_STAT_GATED 0).fld F.PWR_LP_STAT_GATED = 0 :=
  State.fld_setFld_same _ _ _ _ _ _ (by decide)

/-- A wake from deep idle, or from the entry to it, resumes the ports of a device that is awake and runs every clock. -/
theorem State.wakeDevice_ofDeep {s : State} (h : s.power.deep ≠ 0) :
    ∃ t : State, s.wakeDevice = (List.range 14).foldl State.wakePort t ∧ t.power.deep = 0 ∧ t.fld F.PWR_LP_STAT_GATED = 0 ∧
      s.keepsAt (fun a => ¬wakeWrites a) t := by
  unfold State.wakeDevice
  extract_lets s1 s2 p s3 s4 s5
  have h1 : ¬s1.power.deep = 0 := h
  rw [if_neg h1]
  have hlist {a : Nat} (ha : a ∈ [RegName.PWR_LP_STAT.addr 0 0 0, RegName.PWR_STATPIN.addr 0 0 0, RegName.INTC_CORE.addr 0 0 0,
      RegName.INTC_CORE.addr 0 1 0]) : ¬¬wakeWrites a := not_not.mpr (.inl ha)
  have hs1 : s.keepsAt (fun a => ¬wakeWrites a) s1 := s.keepsAt_setFld (f := F.PWR_LP_STAT_GATED) 0 (hlist (by decide))
  have hs2 : s1.keepsAt (fun a => ¬wakeWrites a) s2 ∧ s2.fld F.PWR_LP_STAT_GATED = 0 := by
    unfold s2
    split
    · refine ⟨(s1.keepsAt_setFld (f := F.PWR_LP_STAT_WAKES) _ (hlist (by decide))).trans
        (State.keepsAt_setFld (f := F.PWR_STATPIN_CODE) _ 9 (hlist (by decide))), ?_⟩
      rw [State.fld_setFld_other (f := F.PWR_STATPIN_CODE) _ _ (by decide), State.gated_bump_wakes, s.gated_setFld_ungated]
    · exact ⟨.refl _ _, s.gated_setFld_ungated⟩
  have hcore {A : Nat → Prop} (h0 : ¬A (RegName.INTC_CORE.addr 0 0 0)) (h1 : ¬A (RegName.INTC_CORE.addr 0 1 0)) : s3.keepsAt A s4 :=
    (s3.keepsAt_setFld (f := F.INTC_CORE_ASLEEP) 0 h0).trans (State.keepsAt_setFld (f := F.INTC_CORE_ASLEEP) _ 0 h1)
  have hrouse : s4.calm offStacks s5 := State.calm_foldl (fun t x hx => t.calm_rouseStk (List.mem_range.mp hx)) s4
  refine ⟨s5, rfl, congrArg Power.deep hrouse.power, ?_, ?_⟩
  · have h3 : s3.keepsAt (fun a => a = RegName.PWR_LP_STAT.addr 0 0 0) s5 :=
      (hcore (by decide) (by decide)).trans (hrouse.regs.mono (by rintro a rfl; exact .inl (by decide)))
    exact (h3.fld (f := F.PWR_LP_STAT_GATED) rfl).trans hs2.2
  · refine (hs1.trans hs2.1).trans (.trans (t := s3) (State.keepsAt_of_regs _ rfl) ((hcore (hlist (by decide)) (hlist (by decide))).trans ?_))
    exact hrouse.regs.mono fun a ha => not_not.mp fun hn => ha (.inr hn)

theorem State.wakeDevice_ofAwake {s : State} (h : s.power.deep = 0) : s.wakeDevice = s.setFld F.PWR_LP_STAT_GATED 0 := by
  unfold State.wakeDevice
  exact if_pos h

/-- The registers that a wake writes, its ports' included. -/
theorem State.keepsAt_wakeDevice (s : State) : s.keepsAt (fun a => ¬wakeWrites a ∧ ∀ p < 14, a ≠ RegName.PORT_LNK_STAT.addr p 0 0) s.wakeDevice := by
  by_cases h : s.power.deep = 0
  · rw [State.wakeDevice_ofAwake h]
    exact s.keepsAt_setFld (f := F.PWR_LP_STAT_GATED) 0 fun hn => hn.1 (.inl (by decide))
  · obtain ⟨t, ht, -, -, hk⟩ := State.wakeDevice_ofDeep h
    rw [ht]
    refine (hk.mono fun a ha => ha.1).trans (State.keepsAt_foldl (fun u p hp => (u.calm_wakePort ?_).regs) t)
    exact fun hn => hn.2 p (List.mem_range.mp hp) rfl

theorem State.wakeDevice_deep (s : State) : s.wakeDevice.power.deep = 0 := by
  by_cases h : s.power.deep = 0
  · rw [State.wakeDevice_ofAwake h]
    exact h
  · obtain ⟨t, ht, hd, -, -⟩ := State.wakeDevice_ofDeep h
    have hc : t.calm (fun _ => False) ((List.range 14).foldl State.wakePort t) := State.calm_foldl (fun u p _ => u.calm_wakePort not_false) t
    rw [ht, hc.power, hd]

/-- Every station clock runs after a wake. -/
theorem State.wakeDevice_gated (s : State) : s.wakeDevice.fld F.PWR_LP_STAT_GATED = 0 := by
  by_cases h : s.power.deep = 0
  · rw [State.wakeDevice_ofAwake h, State.gated_setFld_ungated]
  · obtain ⟨t, ht, -, hg, -⟩ := State.wakeDevice_ofDeep h
    have hc : t.calm (fun a => a = RegName.PWR_LP_STAT.addr 0 0 0) ((List.range 14).foldl State.wakePort t) := by
      refine State.calm_foldl (fun u p _ => u.calm_wakePort ?_) t
      rw [portLnkStat_addr, show RegName.PWR_LP_STAT.addr 0 0 0 = 0x400048 by decide]
      omega
    rw [ht, hc.regs.fld (f := F.PWR_LP_STAT_GATED) rfl, hg]

/-- A port that sleeps stays so or starts to resume when the device wakes. -/
theorem State.wakeDevice_portState {s : State} {p : Nat} (hp : p < 14) (h : s.portState p = stSleep) :
    s.wakeDevice.portState p ∈ [stSleep, stWaking] := by
  by_cases hd : s.power.deep = 0
  · rw [State.wakeDevice_ofAwake hd]
    have hk : (s.setFld F.PWR_LP_STAT_GATED 0).portState p = s.portState p :=
      State.fld_setFld_other (f := F.PWR_LP_STAT_GATED) s 0 (by
        rw [show F.PORT_LNK_STAT_STATE.reg.addr p 0 0 = _ from portLnkStat_addr p, show F.PWR_LP_STAT_GATED.reg.addr 0 0 0 = 0x400048 by decide]
        omega)
    rw [hk, h]
    decide
  · obtain ⟨t, ht, -, -, hk⟩ := State.wakeDevice_ofDeep hd
    have hportOff : ¬wakeWrites (RegName.PORT_LNK_STAT.addr p 0 0) := by
      rw [portLnkStat_addr]
      rintro (hm | hm)
      · simp only [List.mem_cons, List.not_mem_nil, or_false] at hm
        have : RegName.PWR_LP_STAT.addr 0 0 0 = 0x400048 ∧ RegName.PWR_STATPIN.addr 0 0 0 = 0x400050 ∧ RegName.INTC_CORE.addr 0 0 0 = 0x200020 ∧
          RegName.INTC_CORE.addr 0 1 0 = 0x200028 := by decide
        omega
      · exact hm (.inr (by omega))
    have h0 : t.portState p = stSleep := (hk.fld (f := F.PORT_LNK_STAT_STATE) hportOff).trans h
    rw [ht]
    refine List.foldlRecOn (motive := fun (u : State) => u.portState p ∈ [stSleep, stWaking]) _ _ (by simp [h0]) fun u hu q _ => ?_
    by_cases he : p = q
    · subst he
      rw [State.wakePort_portState hu]
      decide
    · rwa [State.wakePort_portState_other u he]

end Sys2Proof.Machine
end

section
/-!
O42: Freewheel, deep idle, what wakes the device, and its pins (R31, R33, R358, R385, R386, R396, R397).
-/
namespace Sys2Proof.Machine
open Sys2Proof

/-! ### Freewheel and deep idle -/

/-- When the clocks of a quarter may be gated (R385). -/
def State.mayGate (s : State) (q : Quarter) : Prop :=
  s.flag F.PWR_LP_CTL_FW_EN = true ∧ s.closed q.val = false ∧ s.sitesIdle q.val = true ∧
    smGet 0 s.power.busyAt q.val + s.fld F.PWR_LP_CTL_FW_US * 1000 ≤ s.now ∧ s.power.deep = 0 ∧ s.flag F.GLB_STAT_READY = true ∧ s.heldReset = false

theorem execFreewheelEntry_no {s : State} {q : Quarter} (h : ¬s.mayGate q) : exec (.freewheelEntry q) s = .next s := by
  refine congrArg Host.Outcome.next (if_neg fun hc => h ?_)
  simpa [State.mayGate] using hc

theorem execFreewheelEntry_yes {s : State} {q : Quarter} (h : s.mayGate q) :
    exec (.freewheelEntry q) s = .next (s.setFld F.PWR_LP_STAT_GATED (s.fld F.PWR_LP_STAT_GATED ||| 2 ^ q.val)) := by
  refine congrArg Host.Outcome.next (if_pos ?_)
  simpa [State.mayGate] using h

theorem execDeepIdleEntry_eq (s : State) :
    let ns := max 1 (s.fld F.PWR_LP_CTL_DEEP_MS) * 1000000
    let may : Prop := s.flag F.PWR_LP_CTL_DEEP_EN = true ∧ s.deepReady = true ∧ s.power.idleFrom + ns ≤ s.now ∧
      ∀ p, p < 14 → (s.link p).busyAt = 0 ∨ (s.link p).busyAt + ns ≤ s.now
    (may → exec .deepIdleEntry s = .next s.enterDeep) ∧ (¬may → exec .deepIdleEntry s = .next s) := by
  intro ns may
  have hmay : may ↔ (s.flag F.PWR_LP_CTL_DEEP_EN = true ∧ s.deepReady = true ∧ s.power.idleFrom + ns ≤ s.now ∧
      ((List.range 14).all fun p => decide ((s.link p).busyAt = 0 ∨ (s.link p).busyAt + ns ≤ s.now)) = true) := by
    simp only [may, List.all_eq_true, List.mem_range, decide_eq_true_eq]
  exact ⟨fun h => congrArg Host.Outcome.next (if_pos (hmay.mp h)), fun h => congrArg Host.Outcome.next (if_neg fun hc => h (hmay.mpr hc))⟩

/-! ### Commands of `PWR_LP_CMD` -/

theorem State.waiting_setFld (s : State) (v : Nat) : (s.setFld F.PWR_LP_STAT_WAITING v).fld F.PWR_LP_STAT_WAITING = v % 2 :=
  State.fld_setFld_same _ _ _ _ _ _ (by decide)

/-- A command that stores a field and answers OK. -/
theorem State.setFld_ok (s : State) (f : Fld) (v : Nat) :
    let t := (s.setFld f v).respond .ok
    t.rsp = (.ok, 0) ∧ t = { s with regs := t.regs, rsp := t.rsp } ∧ s.regsBut t [f.reg.addr 0 0 0] :=
  ⟨rfl, rfl, s.regsBut_setFld f v 0 0 0⟩

theorem execDeepCmd_admitted {w : Writer} {s : State} (h : s.admits w .PWR_LP_CMD 0) :
    exec (.deepCmd w) s = .next ((if (s.wakeFor w).deepReady then (s.wakeFor w).enterDeep
      else (s.wakeFor w).setFld F.PWR_LP_STAT_WAITING 1).respond .ok) :=
  congrArg Host.Outcome.next (State.regWrite_admitted h _)

theorem execDeepCancel_admitted {w : Writer} {s : State} (h : s.admits w .PWR_LP_CMD 0) :
    exec (.deepCancel w) s = .next (((s.wakeFor w).setFld F.PWR_LP_STAT_WAITING 0).respond .ok) :=
  congrArg Host.Outcome.next (State.regWrite_admitted h _)

/-! ### Wake triggers -/

theorem execWakeTrigger_held {s : State} (h : s.heldReset = true) (c : WakeCause) : exec (.wakeTrigger c) s = .next s :=
  congrArg Host.Outcome.next (if_pos h)

theorem execWakeTrigger_up {s : State} (h : s.heldReset = false) :
    exec (.wakeTrigger .sideband) s = .next s.wakeDevice ∧
    (∀ p, exec (.wakeTrigger (.packet p)) s = .next (if s.flag F.PORT_CTL_LISTEN p.val = true then s.wakeDevice.wakePort p.val else s)) ∧
    (∀ p, exec (.wakeTrigger (.thrumlink p)) s =
      .next (if s.flag F.PORT_CTL_LISTEN p.val = true ∨ s.portUp p.val = true then s.wakeDevice.wakePort p.val else s)) := by
  have hn : ¬s.heldReset = true := by simp [h]
  exact ⟨congrArg Host.Outcome.next (if_neg hn), fun _ => congrArg Host.Outcome.next (if_neg hn), fun _ => congrArg Host.Outcome.next (if_neg hn)⟩

/-- The interrupt controller's registers are none that a wake writes. -/
theorem not_wakeWrites_intc {a : Nat} (hlo : 0x200100 ≤ a) (hhi : a < 0x300000) :
    ¬wakeWrites a ∧ ∀ p < 14, a ≠ RegName.PORT_LNK_STAT.addr p 0 0 := by
  refine ⟨?_, fun p _ => by rw [portLnkStat_addr]; omega⟩
  rintro (hm | hm)
  · simp only [List.mem_cons, List.not_mem_nil, or_false] at hm
    have : RegName.PWR_LP_STAT.addr 0 0 0 = 0x400048 ∧ RegName.PWR_STATPIN.addr 0 0 0 = 0x400050 ∧ RegName.INTC_CORE.addr 0 0 0 = 0x200020 ∧
      RegName.INTC_CORE.addr 0 1 0 = 0x200028 := by decide
    omega
  · exact hm (.inl (by omega))

theorem State.wakeDevice_srcGroup (s : State) (n : Fin 1024) : s.wakeDevice.fld F.INTC_SRC_CFG_GRP 0 n.val = s.fld F.INTC_SRC_CFG_GRP 0 n.val := by
  have ha : F.INTC_SRC_CFG_GRP.reg.addr 0 n.val 0 = 0x202000 + n.val * 8 := by
    simp [RegName.addr, RegName.home, RegName.spec, Block.origin, F.INTC_SRC_CFG_GRP]
  exact s.keepsAt_wakeDevice.fld (ha ▸ not_wakeWrites_intc (by omega) (by omega))

theorem State.wakeDevice_groupTarget (s : State) {g : Nat} (hg : g < 32) : s.wakeDevice.fld F.INTC_GRP_CFG_TGT 0 g = s.fld F.INTC_GRP_CFG_TGT 0 g := by
  have ha : F.INTC_GRP_CFG_TGT.reg.addr 0 g 0 = 0x200100 + g * 32 := by
    simp [RegName.addr, RegName.home, RegName.spec, Block.origin, F.INTC_GRP_CFG_TGT]
  exact s.keepsAt_wakeDevice.fld (ha ▸ not_wakeWrites_intc (by omega) (by omega))

section Source
variable {s : State} {n : Fin 1024}

theorem execWakeTrigger_source_idle (h : s.heldReset = false) (hw : s.wakesFor n.val = false) : exec (.wakeTrigger (.source n)) s = .next s := by
  refine congrArg Host.Outcome.next ((if_neg (Bool.eq_false_iff.mp h)).trans ?_)
  simp only [hw, Bool.false_eq_true, if_false]

/-- The target of a source's group is read in the device as the source woke it: the wake leaves it as it was. -/
theorem State.wakeDevice_sourceTarget (s : State) (n : Fin 1024) :
    s.wakeDevice.fld F.INTC_GRP_CFG_TGT 0 (s.wakeDevice.fld F.INTC_SRC_CFG_GRP 0 n.val) =
      s.fld F.INTC_GRP_CFG_TGT 0 (s.fld F.INTC_SRC_CFG_GRP 0 n.val) := by
  have hg : s.fld F.INTC_SRC_CFG_GRP 0 n.val < 32 := bits_lt _ _ 5
  rw [State.wakeDevice_srcGroup, State.wakeDevice_groupTarget s hg]

theorem execWakeTrigger_source_wakes (h : s.heldReset = false) (hw : s.wakesFor n.val = true)
    (ht : s.fld F.INTC_GRP_CFG_TGT 0 (s.fld F.INTC_SRC_CFG_GRP 0 n.val) ≠ 2) : exec (.wakeTrigger (.source n)) s = .next s.wakeDevice := by
  refine congrArg Host.Outcome.next ((if_neg (Bool.eq_false_iff.mp h)).trans ?_)
  simp only [hw, if_true, State.wakeDevice_sourceTarget, ht, if_false]

/-- A group that delivers to the host wakes the port of the stream too (R358). -/
theorem execWakeTrigger_source_host (h : s.heldReset = false) (hw : s.wakesFor n.val = true)
    (ht : s.fld F.INTC_GRP_CFG_TGT 0 (s.fld F.INTC_SRC_CFG_GRP 0 n.val) = 2) {p : Nat} (hp : s.wakeDevice.streamPort = some p) :
    exec (.wakeTrigger (.source n)) s = .next (s.wakeDevice.wakePort p) := by
  refine congrArg Host.Outcome.next ((if_neg (Bool.eq_false_iff.mp h)).trans ?_)
  simp only [hw, if_true, State.wakeDevice_sourceTarget, ht, hp]

end Source

/-! ### Pins -/

theorem execTamper_again {s : State} (h : s.power.tamper = true) : exec .tamper s = .next s := congrArg Host.Outcome.next (if_pos h)

theorem execTamper_first {s : State} (h : s.power.tamper = false) :
    exec .tamper s = .next (if s.heldReset then s.setPower { s.power with tamper := true }
      else (s.setPower { s.power with tamper := true }).event srcPower 5) :=
  congrArg Host.Outcome.next (if_neg (by simp [h]))

theorem State.count_eq (s : State) (f : Fld) (n inst i j : Nat) : s.count f n inst i j = { s with regs := (s.count f n inst i j).regs } := rfl

/-- An event changes the events, or the count of lost ones, and nothing else. -/
theorem State.event_eq (s : State) (src cls : Nat) (payload : List Nat) :
    s.event src cls payload = { s with regs := (s.event src cls payload).regs, tl := (s.event src cls payload).tl } ∧
      s.regsBut (s.event src cls payload) [RegName.TL_EVT_STAT.addr 0 0 0] := by
  unfold State.event
  dsimp only
  split
  · exact ⟨rfl, State.regsBut_refl _ _⟩
  · exact ⟨State.count_eq (s.nextSeq src) F.TL_EVT_STAT_LOST 1 0 0 0, State.regsBut_setFld (s.nextSeq src) F.TL_EVT_STAT_LOST _ 0 0 0⟩

/-- An event that finds room waits for the ring behind those before it. -/
theorem State.event_room {s : State} (h : s.tl.events.length < 1024) (src cls : Nat) (payload : List Nat) :
    (s.event src cls payload).tl.events = s.tl.events ++ [⟨src, cls, s.eventWords src cls payload⟩] := by
  unfold State.event
  dsimp only
  split
  · rfl
  · next hn => exact absurd h hn

theorem execAlertResponse_eq (s : State) :
    exec .alertResponse s = .next (if s.alertN then
      s.emit (.frame [BitVec.ofNat 8 (2 * (0x60 + s.power.straps % 8)), pec [0x19, BitVec.ofNat 8 (2 * (0x60 + s.power.straps % 8))]]) else s) := rfl

theorem execTapInstruction_eq (s : State) (i : TapCode) :
    exec (.tapInstruction i) s = .next (s.setPower { s.power with tap := if s.tapAllows i then i else .bypass }) := rfl

/-! ### The statement -/

theorem freewheelEntry_gates (q : Quarter) (s : State) :
    (¬s.mayGate q → exec (.freewheelEntry q) s = .next s) ∧
    (s.mayGate q → ∃ t, exec (.freewheelEntry q) s = .next t ∧ (∀ j, j < 4 → (t.fld F.PWR_LP_STAT_GATED).testBit j =
        (decide (j = q.val) || (s.fld F.PWR_LP_STAT_GATED).testBit j)) ∧ t.fld F.PWR_LP_STAT_WAKES = s.fld F.PWR_LP_STAT_WAKES ∧
      t = { s with regs := t.regs } ∧ s.regsBut t [RegName.PWR_LP_STAT.addr 0 0 0]) := by
  refine ⟨execFreewheelEntry_no, fun h => ⟨_, execFreewheelEntry_yes h, fun j hj => ?_, ?_, rfl, s.regsBut_setFld _ _ _ _ _⟩⟩
  · rw [State.fld_setFld_same _ _ _ _ _ _ (by decide), Nat.testBit_mod_two_pow, Nat.testBit_or, Nat.testBit_two_pow]
    have : j < F.PWR_LP_STAT_GATED.width := hj
    simp only [this, decide_true, Bool.true_and, Bool.or_comm, eq_comm]
  · exact State.fld_setFld_beside s _ _ _ _ rfl (by decide) (by decide)

theorem deepCmd_entersOrWaits (w : Writer) (s : State) (h : s.admits w .PWR_LP_CMD 0) :
    let s1 := s.wakeFor w
    (s1.deepReady = true → exec (.deepCmd w) s = .next (s1.enterDeep.respond .ok)) ∧
    (s1.deepReady = false → ∃ t, exec (.deepCmd w) s = .next t ∧ t.flag F.PWR_LP_STAT_WAITING = true ∧ t.rsp = (.ok, 0) ∧
      t = { s1 with regs := t.regs, rsp := t.rsp } ∧ s1.regsBut t [RegName.PWR_LP_STAT.addr 0 0 0]) ∧
    ∃ t, exec (.deepCancel w) s = .next t ∧ t.flag F.PWR_LP_STAT_WAITING = false ∧ t.rsp = (.ok, 0) ∧
      t = { s1 with regs := t.regs, rsp := t.rsp } ∧ s1.regsBut t [RegName.PWR_LP_STAT.addr 0 0 0] := by
  intro s1
  have hflag (v : Nat) : ((s1.setFld F.PWR_LP_STAT_WAITING v).respond .ok).flag F.PWR_LP_STAT_WAITING = (v % 2 == 1) :=
    congrArg (· == 1) (s1.waiting_setFld v)
  refine ⟨fun hr => ?_, fun hr => ⟨_, ?_, hflag 1, s1.setFld_ok F.PWR_LP_STAT_WAITING 1⟩,
    _, execDeepCancel_admitted h, hflag 0, s1.setFld_ok F.PWR_LP_STAT_WAITING 0⟩
  · rw [execDeepCmd_admitted h, if_pos hr]
  · rw [execDeepCmd_admitted h, if_neg (Bool.eq_false_iff.mp hr)]

theorem wakeTrigger_wakes (s : State) (h : s.heldReset = false) :
    s.wakeDevice.power.deep = 0 ∧ s.wakeDevice.fld F.PWR_LP_STAT_GATED = 0 ∧
    exec (.wakeTrigger .sideband) s = .next s.wakeDevice ∧
    (∀ p, exec (.wakeTrigger (.packet p)) s = .next (if s.flag F.PORT_CTL_LISTEN p.val = true then s.wakeDevice.wakePort p.val else s)) ∧
    (∀ p, exec (.wakeTrigger (.thrumlink p)) s =
      .next (if s.flag F.PORT_CTL_LISTEN p.val = true ∨ s.portUp p.val = true then s.wakeDevice.wakePort p.val else s)) ∧
    (∀ p, p < 14 → s.portState p = 5 → (s.wakeDevice.wakePort p).portState p = 6) ∧
    ∀ n,
      let g := s.fld F.INTC_SRC_CFG_GRP 0 n.val
      let wakes : Prop := s.flag F.INTC_SRC_CFG_EN 0 n.val = true ∧ s.srcPending n.val = true ∧ s.groupDelivers g = true
      (¬wakes → exec (.wakeTrigger (.source n)) s = .next s) ∧
      (wakes → s.fld F.INTC_GRP_CFG_TGT 0 g ≠ 2 → exec (.wakeTrigger (.source n)) s = .next s.wakeDevice) ∧
      (wakes → s.fld F.INTC_GRP_CFG_TGT 0 g = 2 → ∀ p, s.wakeDevice.streamPort = some p →
        exec (.wakeTrigger (.source n)) s = .next (s.wakeDevice.wakePort p)) := by
  obtain ⟨hside, hpacket, hthrum⟩ := execWakeTrigger_up h
  refine ⟨s.wakeDevice_deep, s.wakeDevice_gated, hside, hpacket, hthrum,
    fun p hp hs => State.wakePort_portState (State.wakeDevice_portState hp hs), fun n => ?_⟩
  intro g wakes
  have hwakes : wakes ↔ s.wakesFor n.val = true := by
    simp only [wakes, g, State.wakesFor, Bool.and_eq_true, and_assoc]
  exact ⟨fun hw => execWakeTrigger_source_idle h (Bool.eq_false_iff.mpr (mt hwakes.mpr hw)),
    fun hw ht => execWakeTrigger_source_wakes h (hwakes.mp hw) ht, fun hw ht p hp => execWakeTrigger_source_host h (hwakes.mp hw) ht hp⟩

theorem tamper_noted (s : State) :
    (s.power.tamper = true → exec .tamper s = .next s) ∧
    (s.power.tamper = false → ∃ t, exec .tamper s = .next t ∧ t.power = { s.power with tamper := true } ∧
      t = { s with power := t.power, regs := t.regs, tl := t.tl } ∧ s.regsBut t [RegName.TL_EVT_STAT.addr 0 0 0] ∧
      (s.heldReset = true → t.tl = s.tl) ∧
      (s.heldReset = false → s.tl.events.length < 1024 → ∃ e, t.tl.events = s.tl.events ++ [e] ∧ e.src = srcPower ∧ e.cls = 5)) := by
  refine ⟨execTamper_again, fun h => ?_⟩
  rw [execTamper_first h]
  by_cases hh : s.heldReset = true
  · rw [if_pos hh]
    exact ⟨_, rfl, rfl, rfl, State.regsBut_refl _ _, fun _ => rfl, fun hf => absurd hh (by simp [hf])⟩
  · rw [if_neg hh]
    generalize hu : s.setPower { s.power with tamper := true } = u
    obtain ⟨heq, hregs⟩ := u.event_eq srcPower 5 []
    have hroom (hr : u.tl.events.length < 1024) := State.event_room hr srcPower 5 []
    generalize u.event srcPower 5 = t at *
    subst hu
    exact ⟨t, rfl, congrArg State.power heq, heq.trans (by rw [heq]; rfl), hregs, fun ht => absurd ht hh, fun _ hr => ⟨_, hroom hr, rfl, rfl⟩⟩

theorem alertResponse_answers (s : State) :
    (s.alertN = true →
      let b := BitVec.ofNat 8 (2 * (0x60 + s.power.straps % 8))
      exec .alertResponse s = .next { s with wire := s.wire ++ [.frame [b, pec [0x19, b]]] }) ∧
    (s.alertN = false → exec .alertResponse s = .next s) := by
  rw [execAlertResponse_eq]
  exact ⟨fun h => by rw [if_pos h]; rfl, fun h => by rw [if_neg (by simp [h])]⟩

theorem tapInstruction_executes (s : State) (i : TapCode) :
    ∃ t, exec (.tapInstruction i) s = .next t ∧ t = { s with power := { s.power with tap := t.power.tap } } ∧
      (i ∈ [.bypass, .idcode, .samplePreload] → t.power.tap = i) ∧
      (i = .extest → t.power.tap = if s.flag F.SEC_STAT_CONF = true then .bypass else i) ∧
      (∀ n, i = .other n → t.power.tap = if s.flag F.SEC_STAT_CONF = false ∧ s.flag F.SEC_STAT_DEBUG_EFF = true then i else .bypass) := by
  refine ⟨_, execTapInstruction_eq s i, rfl, fun hi => ?_, ?_, ?_⟩
  · simp only [List.mem_cons, List.not_mem_nil, or_false] at hi
    rcases hi with rfl | rfl | rfl <;> rfl
  · rintro rfl
    cases hc : s.flag F.SEC_STAT_CONF <;> simp [State.setPower, State.tapAllows, hc]
  · rintro n rfl
    simp only [State.setPower, State.tapAllows, Bool.and_eq_true, Bool.not_eq_true', and_comm]

/-- Settles O42: each clause is one lemma about its command; what a wake leaves of ports and interrupt groups is a frame of `State.wakeDevice`. -/
theorem lowPowerWakesAndPins : Obligations.LowPowerWakesAndPins := by
  unfold Obligations.LowPowerWakesAndPins
  refine ⟨fun q s => freewheelEntry_gates q s, fun s => ?_, deepCmd_entersOrWaits, fun c s h => execWakeTrigger_held h c, wakeTrigger_wakes, fun s => ?_⟩
  · obtain ⟨hyes, hno⟩ := execDeepIdleEntry_eq s
    exact ⟨hyes, hno, State.enterDeep_deep⟩
  · obtain ⟨hagain, hfirst⟩ := tamper_noted s
    obtain ⟨hlow, hhigh⟩ := alertResponse_answers s
    exact ⟨hagain, hfirst, rfl, hlow, hhigh, tapInstruction_executes s⟩

end Sys2Proof.Machine
end

section
/-!
Offsets of configuration space and the registers that stand at them: an offset in the range of a register that lies apart from the others of its
block names that register alone (R412).
-/
namespace Sys2Proof.Machine
open Sys2Proof

/-! ### What stands at an offset -/

theorem findReg_some {b : Block} {o : Nat} {l : List RegName} {r : RegName} {i j : Nat} (h : findReg b o l = some (r, i, j)) :
    r ∈ l ∧ r.spec.block = b ∧ r.matchAt o = some (i, j) := by
  induction l with
  | nil => cases h
  | cons x l ih =>
    unfold findReg at h
    split at h
    · next hb =>
      split at h
      · next k m hm =>
        obtain ⟨rfl, rfl, rfl⟩ : x = r ∧ k = i ∧ m = j := by simpa using h
        exact ⟨by simp, hb, hm⟩
      · exact (ih h).imp_left (List.mem_cons_of_mem _)
    · exact (ih h).imp_left (List.mem_cons_of_mem _)

theorem regAt_reg {a : Nat} {r : RegRef} (h : regAt a = .reg r) :
    r.reg ∈ allRegs ∧ ∃ o, blockAt a = some (r.reg.spec.block, r.inst, o) ∧ r.reg.matchAt o = some (r.i, r.j) := by
  unfold regAt at h
  split at h
  · cases h
  · next b inst o hb =>
    split at h
    · next r' i j hf =>
      obtain ⟨hmem, hblock, hmatch⟩ := findReg_some hf
      split at h
      · obtain rfl := AtOffset.reg.inj h
        exact ⟨hmem, o, by rw [hb, hblock], hmatch⟩
      · cases h
    · cases h

/-- The offsets of a register within its block lie in its range. -/
theorem RegName.matchAt_range {r : RegName} {o i j : Nat} (hs : 0 < r.spec.s1) (h : r.matchAt o = some (i, j)) :
    r.spec.base ≤ o ∧ o < r.spec.base + r.spec.n1 * r.spec.s1 := by
  unfold RegName.matchAt at h
  split at h
  · cases h
  · next hlo =>
    refine ⟨by omega, ?_⟩
    dsimp only at h
    split at h
    · next hn =>
      split at h
      · rw [hn]
        omega
      · cases h
    · split at h
      · next hin =>
        have := Nat.div_add_mod (o - r.spec.base) r.spec.s1
        have hm := Nat.mod_lt (o - r.spec.base) hs
        have : (o - r.spec.base) / r.spec.s1 + 1 ≤ r.spec.n1 := hin.1
        have := Nat.mul_le_mul_right r.spec.s1 this
        rw [Nat.add_mul, Nat.mul_comm _ r.spec.s1] at this
        omega
      · cases h

/-- No other register of the block has a range that meets that of `w`. -/
def RegName.apart (w : RegName) : Bool :=
  allRegs.all fun r => r == w || r.spec.block != w.spec.block ||
    (0 < r.spec.s1 && (r.spec.base + r.spec.n1 * r.spec.s1 ≤ w.spec.base || w.spec.base + w.spec.n1 * w.spec.s1 ≤ r.spec.base))

/-- Whatever register stands at the offset is `w`. -/
def RegName.alone (w : RegName) (a : Nat) : Prop := ∀ r, regAt a = .reg r → r.reg = w

/-- The offset lies in a block of the kind that holds `w`, in the range of `w` there. -/
def RegName.inRange (w : RegName) (a : Nat) : Bool :=
  match blockAt a with
  | some (b, _, o) => b == w.spec.block && decide (w.spec.base ≤ o) && decide (o < w.spec.base + w.spec.n1 * w.spec.s1)
  | none => false

theorem RegName.alone_of_apart {w : RegName} {a : Nat} (hw : w.apart = true) (ha : w.inRange a = true) : w.alone a := by
  intro r hr
  obtain ⟨hmem, o, hb, hm⟩ := regAt_reg hr
  simp only [RegName.inRange, hb, Bool.and_eq_true, beq_iff_eq, decide_eq_true_eq] at ha
  obtain ⟨⟨hblock, hlo⟩, hhi⟩ := ha
  have h := List.all_eq_true.mp hw _ hmem
  simp only [Bool.or_eq_true, beq_iff_eq, bne_iff_ne, ne_eq, Bool.and_eq_true, decide_eq_true_eq] at h
  rcases h with (h | h) | ⟨hs, h⟩
  · exact h
  · exact absurd hblock h
  · have := RegName.matchAt_range hs hm
    omega

/-! ### The registers that resets and start-up write -/

/-- What a reset of the device writes at once, start-up writes at its first step, and events and records of the recorder count in. -/
def resetRegs : List RegName := [.STK_STAT, .SEC_IDX, .PWR_LP_STAT, .PWR_LEVEL, .PWR_RAIL, .GLB_STAT, .PWR_STATPIN, .TDM_ROLE, .STK_LAYOUT_CUR,
  .STN_SITE, .GLB_RST_STAT, .CLK_STAT, .EVR_CNT, .TL_EVT_STAT, .SEC_STAT]

theorem RegName.apart_of_mem {w : RegName} (h : w ∈ resetRegs) : w.apart = true := by
  revert w
  decide +kernel

theorem RegName.alone_single {w : RegName} (h : w ∈ resetRegs) : w.alone (w.addr 0 0 0) := by
  refine RegName.alone_of_apart (RegName.apart_of_mem h) ?_
  revert w
  decide +kernel

theorem alone_stkStat {x : Nat} (h : x < 16) : RegName.STK_STAT.alone (RegName.STK_STAT.addr x 0 0) := by
  refine RegName.alone_of_apart (RegName.apart_of_mem (by decide)) ?_
  revert x
  decide +kernel

theorem alone_pwrRail {r : Nat} (h : r < 48) : RegName.PWR_RAIL.alone (RegName.PWR_RAIL.addr 0 r 0) := by
  refine RegName.alone_of_apart (RegName.apart_of_mem (by decide)) ?_
  revert r
  decide +kernel

/-- The sites of the four quarters. -/
theorem alone_stnSite {q i : Nat} (hq : q < 4) (hi : i < 324) : RegName.STN_SITE.alone (RegName.STN_SITE.addr q i 0) := by
  refine RegName.alone_of_apart (RegName.apart_of_mem (by decide)) ?_
  have ha : RegName.STN_SITE.addr q i 0 = 0x1000000 + q * 0x400000 + 0x310000 + i * 8 := by
    simp [RegName.addr, RegName.home, RegName.spec, Block.origin]
  have hb : blockAt (0x1000000 + q * 0x400000 + 0x310000 + i * 8) = some (.stn, q, 0x310000 + i * 8) := by
    have hd : (0x1000000 + q * 0x400000 + 0x310000 + i * 8 - 0x1000000) / 0x400000 = q := by omega
    have hm : (0x1000000 + q * 0x400000 + 0x310000 + i * 8 - 0x1000000) % 0x400000 = 0x310000 + i * 8 := by omega
    unfold blockAt
    dsimp only
    rw [hd, hm]
    simp (disch := omega) only [if_neg, if_pos]
  rw [ha, RegName.inRange, hb]
  simp only [Bool.and_eq_true, beq_iff_eq, decide_eq_true_eq]
  have hbase : RegName.STN_SITE.spec.base = 0x310000 ∧ RegName.STN_SITE.spec.n1 * RegName.STN_SITE.spec.s1 = 324 * 8 := ⟨rfl, rfl⟩
  exact ⟨⟨rfl, by omega⟩, by omega⟩

/-! ### States that differ in registers alone -/

/-- A register that `W` does not name stands at the offset. -/
def elsewhere (W : List RegName) (a : Nat) : Prop := ∃ r, regAt a = .reg r ∧ r.reg ∉ W

theorem not_elsewhere {W : List RegName} {w : RegName} {a : Nat} (hw : w.alone a) (h : w ∈ W) : ¬elsewhere W a := by
  rintro ⟨r, hr, hn⟩
  exact hn (hw r hr ▸ h)

theorem elsewhere.mono {W V : List RegName} (h : ∀ w ∈ W, w ∈ V) {a : Nat} : elsewhere V a → elsewhere W a :=
  fun ⟨r, hr, hn⟩ => ⟨r, hr, fun hm => hn (h _ hm)⟩

/-- From `s` to `t` only registers that `W` names have changed. -/
structure State.edits (s : State) (W : List RegName) (t : State) : Prop where
  rest : t = { s with regs := t.regs }
  regs : s.keepsAt (elsewhere W) t

theorem State.edits.refl (s : State) (W : List RegName) : s.edits W s := ⟨rfl, .refl s _⟩

theorem State.edits.trans {s t u : State} {W : List RegName} (h : s.edits W t) (g : t.edits W u) : s.edits W u := by
  refine ⟨?_, h.regs.trans g.regs⟩
  have e := g.rest
  rw [h.rest] at e
  exact e

theorem State.edits.mono {s t : State} {W V : List RegName} (h : s.edits W t) (hW : ∀ w ∈ W, w ∈ V) : s.edits V t :=
  ⟨h.rest, h.regs.mono fun _ ha => elsewhere.mono hW ha⟩

theorem State.edits_setReg (s : State) {W : List RegName} {r : RegName} {inst i j : Nat} (v : Nat) (ha : r.alone (r.addr inst i j)) (hr : r ∈ W) :
    s.edits W (s.setReg r v inst i j) := ⟨rfl, s.keepsAt_setReg v (not_elsewhere ha hr)⟩

theorem State.edits_setFld (s : State) {W : List RegName} {f : Fld} {inst i j : Nat} (v : Nat) (ha : f.reg.alone (f.reg.addr inst i j))
    (hr : f.reg ∈ W) : s.edits W (s.setFld f v inst i j) := s.edits_setReg _ ha hr

theorem State.edits_foldl {α : Type} {W : List RegName} {f : State → α → State} {l : List α} (hf : ∀ t : State, ∀ a ∈ l, t.edits W (f t a))
    (s : State) : s.edits W (l.foldl f s) :=
  List.foldlRecOn l f (.refl s W) fun t ht a ha => ht.trans (hf t a ha)

end Sys2Proof.Machine
end

section
/-!
What a reset of the device leaves (R406, R410): the units at their reset state, and the registers that the kind of the reset keeps.
-/
namespace Sys2Proof.Machine
open Sys2Proof

/-! ### Sparse maps of chosen keys -/

theorem smGet_filter {β : Type} (p : Nat → Bool) (d : β) (m : List (Nat × β)) (k : Nat) :
    smGet d (m.filter (fun e => p e.1)) k = if p k then smGet d m k else d := by
  induction m with
  | nil => simp [smGet]
  | cons e m ih =>
    obtain ⟨a, v⟩ := e
    rw [List.filter_cons]
    by_cases ha : a = k
    · subst ha
      cases hp : p a <;> simp [hp, smGet, ih]
    · cases hp : p a <;> simp [smGet, ih, ha]

/-! ### Units at their reset state -/

/-- The state without what a reset may keep or start: the units are left, what has left the device and the last answer. -/
def State.bare (t : State) : State :=
  { t with regs := [], coh := {}, now := 0, time := {}, tl := {}, intc := {}, evr := {}, pool := {}, stks := [], sec := {}, power := {}, tdm := {}, start := {} }

/-- The units of `t` are at their reset state; what waits and what has left is that of `s`. -/
def State.blank (s t : State) : Prop := t = { State.reset with
  pending := s.pending, wire := s.wire, free := s.free, rsp := s.rsp, regs := t.regs, coh := t.coh, now := t.now, time := t.time, tl := t.tl, intc := t.intc,
  evr := t.evr, pool := t.pool, stks := t.stks, sec := t.sec, power := t.power, tdm := t.tdm, start := t.start }

theorem State.blank_iff {s t : State} :
    s.blank t ↔ t.bare = { State.reset with pending := s.pending, wire := s.wire, free := s.free, rsp := s.rsp, power := {} } := by
  refine ⟨fun h => congrArg State.bare h, fun h => ?_⟩
  unfold State.blank
  exact congrArg (fun u : State => { u with
    regs := t.regs, coh := t.coh, now := t.now, time := t.time, tl := t.tl, intc := t.intc, evr := t.evr, pool := t.pool, stks := t.stks,
    sec := t.sec, power := t.power, tdm := t.tdm, start := t.start }) h

/-! ### Registers that a reset keeps -/

/-- A register that the reset keeps stands at the offset. -/
def DeviceReset.keepsAt (k : DeviceReset) (a : Nat) : Bool :=
  match regAt a with
  | .reg r => k.keeps r.reg
  | _ => false

theorem DeviceReset.keepsAt_reg {k : DeviceReset} {a : Nat} {r : RegRef} (h : regAt a = .reg r) : k.keepsAt a = k.keeps r.reg := by
  rw [DeviceReset.keepsAt, h]

/-- The registers of `t` are those that the reset keeps of `s`, but for those that `W` names. -/
def State.regsOf (s : State) (k : DeviceReset) (W : List RegName) (t : State) : Prop :=
  ∀ a r, regAt a = .reg r → r.reg ∉ W → ∀ d, smGet d t.regs a = if k.keeps r.reg then smGet d s.regs a else d

theorem State.regsOf_filter (s : State) (k : DeviceReset) {t : State} (h : t.regs = s.regs.filter (fun e => k.keepsAt e.1)) : s.regsOf k [] t := by
  intro a r ha _ d
  rw [h, smGet_filter, DeviceReset.keepsAt_reg ha]

theorem State.regsOf.write {s t u : State} {k : DeviceReset} {W V : List RegName} (h : s.regsOf k W t) (g : t.keepsAt (elsewhere V) u) :
    s.regsOf k (W ++ V) u := by
  intro a r ha hn d
  rw [List.mem_append, not_or] at hn
  rw [g d a ⟨r, ha, hn.2⟩, h a r ha hn.1]

theorem State.regsOf.of_regs {s t u : State} {k : DeviceReset} {W : List RegName} (h : s.regsOf k W t) (e : u.regs = t.regs) : s.regsOf k W u :=
  fun a r ha hn d => by rw [e, h a r ha hn d]

theorem State.regsOf.kept {s t : State} {k : DeviceReset} {W l : List RegName} (h : s.regsOf k W t) (hl : ∀ n ∈ l, k.keeps n = true ∧ n ∉ W) :
    ∀ off r, regAt off = .reg r → r.reg ∈ l → ∀ d, smGet d t.regs off = smGet d s.regs off := fun off r hr hm d => by
  rw [h off r hr (hl _ hm).2, if_pos (hl _ hm).1]

theorem State.regsOf.lost {s t : State} {k : DeviceReset} {W l : List RegName} (h : s.regsOf k W t) (hl : ∀ n ∈ l, k.keeps n = false ∧ n ∉ W) :
    ∀ off r, regAt off = .reg r → r.reg ∈ l → ∀ d, smGet d t.regs off = d := fun off r hr hm d => by
  rw [h off r hr (hl _ hm).2, if_neg (by rw [(hl _ hm).1]; decide)]

/-- Single registers that are read after a reset. -/
def readRegs : List RegName := [.GLB_STAT, .GLB_RST_STAT, .STK_LAYOUT, .STK_LAYOUT_CUR, .PWR_STATPIN, .TDM_ROLE]

theorem regAt_single {n : RegName} (h : n ∈ readRegs) : ∃ r, regAt (n.addr 0 0 0) = .reg r ∧ r.reg = n := by
  simp only [readRegs, List.mem_cons, List.not_mem_nil, or_false] at h
  rcases h with rfl | rfl | rfl | rfl | rfl | rfl
  · exact ⟨⟨.GLB_STAT, 0, 0, 0⟩, by decide +kernel, rfl⟩
  · exact ⟨⟨.GLB_RST_STAT, 0, 0, 0⟩, by decide +kernel, rfl⟩
  · exact ⟨⟨.STK_LAYOUT, 0, 0, 0⟩, by decide +kernel, rfl⟩
  · exact ⟨⟨.STK_LAYOUT_CUR, 0, 0, 0⟩, by decide +kernel, rfl⟩
  · exact ⟨⟨.PWR_STATPIN, 0, 0, 0⟩, by decide +kernel, rfl⟩
  · exact ⟨⟨.TDM_ROLE, 0, 0, 0⟩, by decide +kernel, rfl⟩

theorem elsewhere_single {n : RegName} {W : List RegName} (h : n ∈ readRegs) (hn : n ∉ W) : elsewhere W (n.addr 0 0 0) :=
  let ⟨r, hr, hreg⟩ := regAt_single h
  ⟨r, hr, hreg ▸ hn⟩

/-- A single register that the reset keeps holds its value. -/
theorem State.regsOf.regVal_kept {s t : State} {k : DeviceReset} {W : List RegName} {n : RegName} (h : s.regsOf k W t)
    (ha : n ∈ readRegs) (hk : k.keeps n = true) (hn : n ∉ W) : t.regVal n = s.regVal n := by
  obtain ⟨r, hr, rfl⟩ := regAt_single ha
  exact congrArg BitVec.toNat (h.kept (l := [r.reg]) (by simp [hk, hn]) _ r hr (by simp) _)

/-- A single register that the reset does not keep holds its reset value. -/
theorem State.regsOf.regVal_lost {s t : State} {k : DeviceReset} {W : List RegName} {n : RegName} (h : s.regsOf k W t)
    (ha : n ∈ readRegs) (hk : k.keeps n = false) (hn : n ∉ W) : t.regVal n = n.resetVal 0 % 2 ^ 64 := by
  obtain ⟨r, hr, rfl⟩ := regAt_single ha
  have := h.lost (l := [r.reg]) (by simp [hk, hn]) _ r hr (by simp) (BitVec.ofNat 64 (r.reg.resetVal 0))
  rw [State.regVal, this, BitVec.toNat_ofNat]

/-- A field of a single register that the reset does not keep reads as the reset value has it. -/
theorem State.regsOf.fld_lost {s t : State} {k : DeviceReset} {W : List RegName} {f : Fld} (h : s.regsOf k W t) (ha : f.reg ∈ readRegs)
    (hk : k.keeps f.reg = false) (hn : f.reg ∉ W) : t.fld f = bits (f.reg.resetVal 0 % 2 ^ 64) f.lo f.width := by
  rw [State.fld, h.regVal_lost ha hk hn]

theorem State.regsOf.fld_kept {s t : State} {k : DeviceReset} {W : List RegName} {f : Fld} (h : s.regsOf k W t) (ha : f.reg ∈ readRegs)
    (hk : k.keeps f.reg = true) (hn : f.reg ∉ W) : t.fld f = s.fld f := by
  rw [State.fld, h.regVal_kept ha hk hn, State.fld]

/-! ### What the reset leaves -/

/-- Registers of the device that a reset writes at once. -/
def afterTailRegs : List RegName := [.SEC_IDX, .PWR_LP_STAT, .PWR_LEVEL, .PWR_RAIL]

/-- Registers that a reset of the device writes at once. -/
def afterResetRegs : List RegName := .STK_STAT :: afterTailRegs

/-- The units after a reset of the device of kind `k`: but for what the kind keeps, they are at their reset state. -/
structure State.resetOf (s : State) (k : DeviceReset) (t : State) : Prop where
  blank : s.blank t
  now : t.now = if k ≠ .powerOn then s.now else 0
  timeOff : k ≠ .powerOn → t.time.off = s.time.off
  pool : t.pool = if k = .warm then s.pool else {}
  coh : t.coh = if k = .warm then { lost := s.coh.lost } else {}
  stks : k ≠ .warm → t.stks = []

/-- The recorder, the Thrumlink, the interrupt controller and the ledger after the reset, before any of them acts. -/
structure State.freshOf (s : State) (k : DeviceReset) (t : State) : Prop where
  tl : t.tl = {}
  intc : t.intc = {}
  evr : k ≠ .powerOn → t.evr = s.evr
  slots : t.evr.slots = s.evr.slots
  pcyc : t.evr.pcyc = s.evr.pcyc
  owner : t.sec.owner = s.sec.owner
  log : t.sec.log = s.sec.log
  retired : t.sec.retired = s.sec.retired

/-- What start-up, the recorder and a transition of the measurements set does not concern the units. -/
theorem State.resetOf.of {s t u : State} {k : DeviceReset} (h : s.resetOf k t)
    (e : u = { t with regs := u.regs, tl := u.tl, intc := u.intc, evr := u.evr, sec := u.sec, power := u.power, tdm := u.tdm, start := u.start }) :
    s.resetOf k u := by
  have hb := State.blank_iff.mp h.blank
  rw [e]
  exact { h with blank := State.blank_iff.mpr hb }

theorem State.freshOf.of {s t u : State} {k : DeviceReset} (h : s.freshOf k t)
    (e : u = { t with regs := u.regs, power := u.power, tdm := u.tdm, start := u.start }) : s.freshOf k u := by
  rw [e]
  exact { h with }

theorem State.resetOf.edits {s t u : State} {k : DeviceReset} {W : List RegName} (h : s.resetOf k t) (g : t.edits W u) : s.resetOf k u :=
  h.of (g.rest.trans (by rw [g.rest]))

theorem State.freshOf.edits {s t u : State} {k : DeviceReset} {W : List RegName} (h : s.freshOf k t) (g : t.edits W u) : s.freshOf k u :=
  h.of (g.rest.trans (by rw [g.rest]))

theorem afterTailRegs_sub : afterTailRegs ⊆ resetRegs := by decide +kernel

theorem State.edits_afterTail (b : State) {f : Fld} (v : Nat) (h : f.reg ∈ afterTailRegs) : b.edits afterTailRegs (b.setFld f v) :=
  b.edits_setFld v (RegName.alone_single (afterTailRegs_sub h)) h

/-- A scan ends with the controller that ran it. -/
def State.scansEnd (b : State) : State := (List.range 16).foldl (fun b x => b.setFld F.STK_STAT_SCAN 0 x) b

theorem State.edits_scansEnd (b : State) : b.edits [.STK_STAT] b.scansEnd := by
  refine State.edits_foldl (fun t x hx => ?_) b
  exact t.edits_setFld 0 (alone_stkStat (List.mem_range.mp hx)) (List.mem_cons_self ..)

/-- The first writes of a reset: a scan ends with its controller, the identity index, the counts and levels, the supply rails. -/
theorem State.afterReset_writes (s : State) (k : DeviceReset) :
    ∃ b : State, b.scansEnd.edits afterTailRegs (s.afterReset k) ∧ s.resetOf k b ∧ s.freshOf k b ∧
      b.tdm = {} ∧ b.start = { kept := if k = .warm then s.start.kept else none } ∧ b.regs = s.regs.filter (fun e => k.keepsAt e.1) := by
  unfold State.afterReset
  extract_lets on warm e p b b1 b2 b3 b4
  refine ⟨b, ?_, ?_, ?_, rfl, rfl, rfl⟩
  · have hb2 : b1.edits afterTailRegs b2 := b1.edits_afterTail _ (by decide)
    refine hb2.trans ?_
    split
    · have hb4 : b2.edits afterTailRegs b4 :=
        ((b2.edits_afterTail _ (by decide)).trans (State.edits_afterTail _ _ (by decide))).trans (State.edits_afterTail _ _ (by decide))
      refine hb4.trans (State.edits_foldl (fun t r hr => ?_) b4)
      exact t.edits_setReg _ (alone_pwrRail (List.mem_range.mp hr)) (by decide)
    · exact .refl _ _
  · cases k <;> constructor <;> simp [b, on, warm, State.blank_iff, State.bare, State.reset]
  · cases k <;> constructor <;> simp [b, on, e]

theorem State.afterReset_edits (s : State) (k : DeviceReset) :
    ∃ b : State, b.edits afterResetRegs (s.afterReset k) ∧ s.resetOf k b ∧ s.freshOf k b ∧
      b.tdm = {} ∧ b.start = { kept := if k = .warm then s.start.kept else none } ∧ b.regs = s.regs.filter (fun e => k.keepsAt e.1) := by
  obtain ⟨b, he, hb⟩ := s.afterReset_writes k
  exact ⟨b, (b.edits_scansEnd.mono (by simp [afterResetRegs])).trans (he.mono fun _ h => List.mem_cons_of_mem _ h), hb⟩

theorem State.afterReset_resetOf (s : State) (k : DeviceReset) : s.resetOf k (s.afterReset k) :=
  let ⟨_, he, hb, _⟩ := s.afterReset_edits k
  hb.edits he

theorem State.afterReset_freshOf (s : State) (k : DeviceReset) : s.freshOf k (s.afterReset k) :=
  let ⟨_, he, _, hb, _⟩ := s.afterReset_edits k
  hb.edits he

theorem State.afterReset_tdm (s : State) (k : DeviceReset) : (s.afterReset k).tdm = {} :=
  let ⟨_, he, _, _, hb, _⟩ := s.afterReset_edits k
  (congrArg State.tdm he.rest).trans hb

theorem State.afterReset_start (s : State) (k : DeviceReset) : (s.afterReset k).start = { kept := if k = .warm then s.start.kept else none } :=
  let ⟨_, he, _, _, _, hb, _⟩ := s.afterReset_edits k
  (congrArg State.start he.rest).trans hb

theorem State.afterReset_regsOf (s : State) (k : DeviceReset) : s.regsOf k afterResetRegs (s.afterReset k) :=
  let ⟨_, he, _, _, _, _, hr⟩ := s.afterReset_edits k
  (s.regsOf_filter k hr).write he.regs

end Sys2Proof.Machine
end

section
/-!
The start of start-up and of the recorder after a reset (R366, R387, R393, R401, R174).
-/
namespace Sys2Proof.Machine
open Sys2Proof

/-! ### Site roles -/

theorem State.edits_setSiteState (s : State) {q i : Nat} (hq : q < 4) (hi : i < 324) (v : Nat) :
    s.edits [.STN_SITE] (s.setSiteState (q * 324 + i) v) := by
  have hsite {f : Fld} (hf : f.reg = .STN_SITE) (t : State) (v : Nat) :
      t.edits [.STN_SITE] (t.setFld f v (siteQ (q * 324 + i)) (siteI (q * 324 + i))) := by
    have hk : siteQ (q * 324 + i) = q ∧ siteI (q * 324 + i) = i := ⟨by unfold siteQ; omega, by unfold siteI; omega⟩
    rw [hk.1, hk.2]
    exact t.edits_setFld v (by rw [hf]; exact alone_stnSite hq hi) (by simp [hf])
  have hif {p : Prop} [Decidable p] {t u : State} (h : t.edits [.STN_SITE] u) : t.edits [.STN_SITE] (if p then u else t) := by
    split
    · exact h
    · exact .refl t _
  unfold State.setSiteState
  exact ((hif (hsite rfl _ _)).trans (hif (hsite rfl _ _))).trans (hsite rfl _ _)

theorem State.edits_assignRoles (s : State) {q : Nat} (hq : q < 4) : s.edits [.STN_SITE] (s.assignRoles q) := by
  unfold State.assignRoles
  refine State.edits_foldl (fun t i hi => ?_) s
  exact t.edits_setSiteState hq (List.mem_range.mp hi) _

/-! ### The first step of start-up -/

/-- What start-up sets before it assigns the roles of the sites. -/
def State.startFirst (s : State) (n : Nat) (warm : Bool) : State :=
  let s := (((s.setTdm { s.tdm with up := 3 }).setStep n).setFld F.TDM_ROLE_MODE 1).setFld F.GLB_STAT_WARM warm.toNat
  if warm then s else s.setReg .STK_LAYOUT_CUR (layoutActs (s.regVal .STK_LAYOUT))

theorem State.startUp_eq (s : State) (n : Nat) (warm : Bool) :
    s.startUp n warm = (List.range 4).foldl (fun s q => s.assignRoles q) (s.startFirst n warm) := by
  cases warm <;> rfl

/-- Registers that start-up writes at its start; the layout in force is kept with the DRAM. -/
def startRegs (warm : Bool) : List RegName :=
  [.STN_SITE, .GLB_STAT, .PWR_STATPIN, .TDM_ROLE] ++ if warm then [] else [.STK_LAYOUT_CUR]

theorem State.startUp_roles (s : State) (n : Nat) (warm : Bool) : (s.startFirst n warm).edits [.STN_SITE] (s.startUp n warm) := by
  rw [State.startUp_eq]
  exact State.edits_foldl (fun t q hq => t.edits_assignRoles (List.mem_range.mp hq)) _

theorem State.edits_single (s : State) {W : List RegName} {f : Fld} (v : Nat) (h : f.reg ∈ resetRegs) (hW : f.reg ∈ W) : s.edits W (s.setFld f v) :=
  s.edits_setFld v (RegName.alone_single h) hW

theorem State.startFirst_edits (s : State) (n : Nat) (warm : Bool) :
    (s.setTdm { s.tdm with up := 3 }).edits (startRegs warm) (s.startFirst n warm) := by
  have hW {w : RegName} (h : w ∈ [RegName.STN_SITE, .GLB_STAT, .PWR_STATPIN, .TDM_ROLE]) : w ∈ startRegs warm := List.mem_append_left _ h
  have h := ((((s.setTdm { s.tdm with up := 3 }).edits_single (f := F.GLB_STAT_STEP) n (by decide) (hW (by decide))).trans
    (State.edits_single _ (f := F.PWR_STATPIN_CODE) n (by decide) (hW (by decide)))).trans
    (State.edits_single _ (f := F.TDM_ROLE_MODE) 1 (by decide) (hW (by decide)))).trans
    (State.edits_single _ (f := F.GLB_STAT_WARM) warm.toNat (by decide) (hW (by decide)))
  cases warm with
  | true => exact h
  | false => exact h.trans (State.edits_setReg _ _ (RegName.alone_single (by decide)) (by decide))

theorem State.startUp_edits (s : State) (n : Nat) (warm : Bool) : (s.setTdm { s.tdm with up := 3 }).edits (startRegs warm) (s.startUp n warm) :=
  (s.startFirst_edits n warm).trans ((s.startUp_roles n warm).mono (by simp [startRegs]))

/-- The layout in force does not move the registers of a unit of the device. -/
theorem State.fld_startLayout (s : State) (warm : Bool) (v : Nat) {f : Fld} (hf : f.reg.addr 0 0 0 ≠ RegName.STK_LAYOUT_CUR.addr 0 0 0) :
    (if warm then s else s.setReg .STK_LAYOUT_CUR v).fld f = s.fld f := by
  split
  · rfl
  · exact s.fld_setReg_other v hf

/-- A field outside the sites' registers reads after start-up as it did before the roles were assigned. -/
theorem State.startUp_fld (s : State) (n : Nat) (warm : Bool) {f : Fld} (h : f.reg ∈ readRegs) :
    (s.startUp n warm).fld f = (s.startFirst n warm).fld f := by
  refine (s.startUp_roles n warm).regs.fld (elsewhere_single h ?_)
  rw [List.mem_singleton]
  rintro hf
  rw [hf] at h
  exact absurd h (by decide)

theorem State.startUp_step (s : State) (n : Nat) (warm : Bool) : (s.startUp n warm).fld F.GLB_STAT_STEP = n % 16 := by
  rw [s.startUp_fld n warm (by decide), State.startFirst, State.fld_startLayout _ _ _ (by decide),
    State.fld_setFld_beside (f := F.GLB_STAT_WARM) (g := F.GLB_STAT_STEP) _ _ _ _ _ rfl (by decide) (by decide), State.fld_setFld_other _ _ (by decide),
    State.setStep, State.fld_setFld_other _ _ (by decide)]
  exact State.fld_setFld_same _ _ _ _ _ _ (by decide)

theorem State.startUp_code (s : State) (n : Nat) (warm : Bool) : (s.startUp n warm).fld F.PWR_STATPIN_CODE = n % 16 := by
  rw [s.startUp_fld n warm (by decide), State.startFirst, State.fld_startLayout _ _ _ (by decide), State.fld_setFld_other _ _ (by decide),
    State.fld_setFld_other _ _ (by decide)]
  exact State.fld_setFld_same _ _ _ _ _ _ (by decide)

theorem State.startUp_mode (s : State) (n : Nat) (warm : Bool) : (s.startUp n warm).fld F.TDM_ROLE_MODE = 1 := by
  rw [s.startUp_fld n warm (by decide), State.startFirst, State.fld_startLayout _ _ _ (by decide), State.fld_setFld_other _ _ (by decide)]
  exact State.fld_setFld_same _ _ _ _ _ _ (by decide)

theorem State.startUp_warm (s : State) (n : Nat) (warm : Bool) : (s.startUp n warm).fld F.GLB_STAT_WARM = warm.toNat := by
  rw [s.startUp_fld n warm (by decide), State.startFirst, State.fld_startLayout _ _ _ (by decide), State.fld_setFld_same _ _ _ _ _ _ (by decide)]
  cases warm <;> rfl

/-- The other fields of `GLB_STAT` are left alone. -/
theorem State.startUp_beside (s : State) (n : Nat) (warm : Bool) {f : Fld} (hr : f.reg = .GLB_STAT) (hf : 7 ≤ f.lo ∨ f.lo + f.width ≤ 1) :
    (s.startUp n warm).fld f = s.fld f := by
  have ha {m : RegName} (h : RegName.GLB_STAT.addr 0 0 0 ≠ m.addr 0 0 0) : f.reg.addr 0 0 0 ≠ m.addr 0 0 0 := by rwa [hr]
  have hw : f.lo + f.width ≤ F.GLB_STAT_WARM.lo ∨ F.GLB_STAT_WARM.lo + F.GLB_STAT_WARM.width ≤ f.lo := hf.symm.imp_left (Nat.le_trans · (by decide))
  have hs : f.lo + f.width ≤ F.GLB_STAT_STEP.lo ∨ F.GLB_STAT_STEP.lo + F.GLB_STAT_STEP.width ≤ f.lo := hf.symm.imp_right (Nat.le_trans (by decide))
  rw [s.startUp_fld n warm (by rw [hr]; decide), State.startFirst, State.fld_startLayout _ _ _ (ha (by decide)),
    State.fld_setFld_beside (f := F.GLB_STAT_WARM) _ _ _ _ _ hr (by decide) hw, State.fld_setFld_other _ _ (ha (by decide)), State.setStep,
    State.fld_setFld_other _ _ (ha (by decide)), State.fld_setFld_beside (f := F.GLB_STAT_STEP) _ _ _ _ _ hr (by decide) hs]
  rfl

theorem layoutActs_lt (v : Nat) : layoutActs v < 2 ^ 64 := by
  unfold layoutActs layoutBounds
  dsimp only
  omega

/-- Unless the DRAM was kept, the layout takes effect. -/
theorem State.startUp_layout (s : State) (n : Nat) : (s.startUp n false).regVal .STK_LAYOUT_CUR = layoutActs (s.regVal .STK_LAYOUT) := by
  rw [(s.startUp_roles n false).regs.regVal (elsewhere_single (by decide) (by decide)), State.startFirst]
  simp only [Bool.false_eq_true, if_false]
  rw [State.regVal_setReg_same, Nat.mod_eq_of_lt (layoutActs_lt _), State.setFld, State.regVal_setReg_other _ _ (by decide), State.setFld,
    State.regVal_setReg_other _ _ (by decide), State.setStep, State.setFld, State.regVal_setReg_other _ _ (by decide), State.setFld,
    State.regVal_setReg_other _ _ (by decide)]
  rfl

/-! ### The recorder at power-on -/

/-- Registers that records and events count in. -/
def recordRegs : List RegName := [.EVR_CNT, .TL_EVT_STAT]

/-- From `s` to `t` the recorder has written records and reported them: its store, its counts, events and interrupts differ, PCYC does not. -/
structure State.records (s t : State) : Prop where
  rest : t = { s with regs := t.regs, tl := t.tl, intc := t.intc, evr := t.evr }
  regs : s.keepsAt (elsewhere recordRegs) t
  pcyc : t.evr.pcyc = s.evr.pcyc

theorem State.records.refl (s : State) : s.records s := ⟨rfl, .refl s _, rfl⟩

theorem State.records.trans {s t u : State} (h : s.records t) (g : t.records u) : s.records u := by
  refine ⟨?_, h.regs.trans g.regs, g.pcyc.trans h.pcyc⟩
  have e := g.rest
  rw [h.rest] at e
  exact e

theorem State.records_foldl {α : Type} {f : State → α → State} (hf : ∀ (t : State) (a : α), t.records (f t a)) (l : List α) (s : State) :
    s.records (l.foldl f s) :=
  List.foldlRecOn l f (.refl s) fun t ht a _ => ht.trans (hf t a)

theorem State.records_setEvr (s : State) {x : Evr} (h : x.pcyc = s.evr.pcyc) : s.records (s.setEvr x) := ⟨rfl, .refl s _, h⟩

theorem State.records_count (s : State) {f : Fld} (h : f.reg = .EVR_CNT) (n : Nat) : s.records (s.count f n) := by
  refine ⟨rfl, s.keepsAt_count n (not_elsewhere (w := .EVR_CNT) ?_ (by decide)), rfl⟩
  rw [h]
  exact RegName.alone_single (by decide)

theorem State.raise_eq (s : State) (n : Nat) : s.raise n = { s with intc := (s.raise n).intc } := by
  unfold State.raise
  split
  · rfl
  · split
    · split <;> rfl
    · rfl

theorem State.records_raise (s : State) (n : Nat) : s.records (s.raise n) := by
  have e := s.raise_eq n
  exact ⟨e.trans (by rw [e]), State.keepsAt_of_regs _ (s.raise_regs n), by rw [e]⟩

theorem State.records_event (s : State) (src cls : Nat) (payload : List Nat) : s.records (s.event src cls payload) := by
  obtain ⟨e, hr⟩ := s.event_eq src cls payload
  refine ⟨e.trans (by rw [e]), hr.keepsAt ?_, by rw [e]⟩
  intro a ha
  rw [List.mem_singleton.mp ha]
  exact not_elsewhere (RegName.alone_single (by decide)) (w := .TL_EVT_STAT) (by decide)

theorem State.records_setEvrSlot (s : State) (i : Nat) (d : BitVec 2048) : s.records (s.setEvrSlot i d) := ⟨rfl, .refl s _, rfl⟩

theorem State.records_head (s : State) (n i : Nat) : s.records (s.setEvr { s.evr with writeNo := n, head := i }) := ⟨rfl, .refl s _, rfl⟩

theorem State.records_evrWrite (s : State) (slot kind inst : Nat) (d : BitVec 2048) (o : Bool) : s.records (s.evrWrite slot kind inst d o) := by
  unfold State.evrWrite
  extract_lets n t
  exact (s.records_setEvrSlot _ _).trans (t.records_head n slot)

theorem State.records_evrDamaged (s : State) (slot : Nat) : s.records (s.evrDamaged slot false) := by
  unfold State.evrDamaged
  exact ((s.records_setEvrSlot _ _).trans (State.records_raise _ _)).trans (State.records_event _ _ _ _)

theorem State.records_closeLeft (s : State) (i : Nat) : s.records (s.closeLeft i) := by
  unfold State.closeLeft
  dsimp only
  refine (s.records_setEvr (x := { s.evr with count := s.evr.count + 1 }) rfl).trans ?_
  split
  · exact State.records_evrWrite _ _ _ _ _ _
  · exact (State.records_setEvrSlot _ _ _).trans (State.records_evrDamaged _ _)

theorem State.records_openRec (s : State) (kind inst slot : Nat) : s.records (s.openRec kind inst slot) := by
  unfold State.openRec
  exact (s.records_setEvr (by rfl)).trans (State.records_evrWrite _ _ _ _ _ _)

theorem State.records_openNext (s : State) (kind inst : Nat) : s.records (s.openNext kind inst) := by
  have hopen (t : State) (i : Nat) : t.records ((t.setEvr { t.evr with ringAt := i }).openRec kind inst i) :=
    (t.records_setEvr (x := { t.evr with ringAt := i }) rfl).trans (State.records_openRec _ _ _ _)
  unfold State.openNext
  extract_lets i _ t _
  have ht : s.records t := by
    unfold t
    split
    · exact .refl s
    · exact (s.records_count (f := F.EVR_CNT_WRAPS) rfl 1).trans (State.records_setEvr _ (by rfl))
  exact ht.trans (hopen t i)

/-- The recorder at power-on counts the power cycle; beyond that it writes records. -/
theorem State.evrPowerOn_records (s : State) (torn : List (BitVec 14 × BitVec 2048)) :
    (s.setEvr { s.evr with pcyc := (s.evr.pcyc + 1) % 2 ^ 32, opens := [], ckptAt := 0 }).records (s.evrPowerOn torn) := by
  unfold State.evrPowerOn
  extract_lets _ s1 s2 left s3
  have h2 : s1.records s2 := by
    refine State.records_foldl (fun t x => ?_) torn s1
    split
    · exact t.records_setEvrSlot _ _
    · exact .refl t
  have h3 : s2.records s3 := State.records_foldl (fun t i => t.records_closeLeft i) left s2
  exact (h2.trans h3).trans (State.records_foldl (fun t (k : Nat × Nat) => t.records_openNext k.1 k.2) evrKinds s3)

end Sys2Proof.Machine
end

section
/-!
The resets of the device as commands: what power-on, `PORST_N` and a package reset leave (R401, R406, R407, R410).
-/
namespace Sys2Proof.Machine
open Sys2Proof

/-! ### Lists of registers (Table 16-4) -/

/-- The registers of the settings ledger. -/
def ledgerRegs : List RegName := [.STK_LAYOUT, .SEC_DEBUG, .SEC_VER, .SEC_LEDGER]

/-- Registers of the always-on domain. -/
def alwaysRegs : List RegName :=
  [.EVR_CTL, .EVR_CURSOR, .EVR_CNT, .PWR_CTL, .PWR_LIMIT, .PWR_THERM, .PWR_LP_CTL, .GLB_IMG_BASE, .GLB_IMG_LEN]

/-- Registers of the units that lose their state. -/
def unitRegs : List RegName := [.XLT_CTL, .XLT_SEG_ATTR, .XLT_CTX_BIND, .MOV_CH_CTX, .COH_CTL, .STK_CTL, .STN_LOOM_STAT, .PORT_CTL, .PORT_LNK_STAT,
  .HUB_CTL, .HUB_RT_DEF, .TL_CTL, .INTC_GRP_CFG, .CHK_CTL, .GLB_IMG_STAT]

/-- Every register of `l` holds what it held. -/
def State.keepsRegs (s t : State) (l : List RegName) : Prop := ∀ off r, regAt off = .reg r → r.reg ∈ l → ∀ d, smGet d t.regs off = smGet d s.regs off

/-- Every register of `l` holds its reset value. -/
def State.losesRegs (t : State) (l : List RegName) : Prop := ∀ off r, regAt off = .reg r → r.reg ∈ l → ∀ d, smGet d t.regs off = d

/-! ### Start-up after a reset -/

theorem State.resetOf.setPower {s t : State} {k : DeviceReset} (h : s.resetOf k t) (x : Power) : s.resetOf k (t.setPower x) := h.of rfl

theorem State.resetOf.setTdm {s t : State} {k : DeviceReset} (h : s.resetOf k t) (x : Tandem) : s.resetOf k (t.setTdm x) := h.of rfl

theorem State.resetOf.setStart {s t : State} {k : DeviceReset} (h : s.resetOf k t) (x : Start) : s.resetOf k (t.setStart x) := h.of rfl

theorem State.resetOf.setEvr {s t : State} {k : DeviceReset} (h : s.resetOf k t) (x : Evr) : s.resetOf k (t.setEvr x) := h.of rfl

theorem State.freshOf.setPower {s t : State} {k : DeviceReset} (h : s.freshOf k t) (x : Power) : s.freshOf k (t.setPower x) := h.of rfl

theorem State.freshOf.setTdm {s t : State} {k : DeviceReset} (h : s.freshOf k t) (x : Tandem) : s.freshOf k (t.setTdm x) := h.of rfl

theorem State.freshOf.setStart {s t : State} {k : DeviceReset} (h : s.freshOf k t) (x : Start) : s.freshOf k (t.setStart x) := h.of rfl

theorem State.resetOf.startUp {s v : State} {k : DeviceReset} (h : s.resetOf k v) (n : Nat) (warm : Bool) : s.resetOf k (v.startUp n warm) :=
  (h.setTdm _).edits (v.startUp_edits n warm)

theorem State.freshOf.startUp {s v : State} {k : DeviceReset} (h : s.freshOf k v) (n : Nat) (warm : Bool) : s.freshOf k (v.startUp n warm) :=
  (h.setTdm _).edits (v.startUp_edits n warm)

theorem State.regsOf.startUp {s v : State} {k : DeviceReset} {W : List RegName} (h : s.regsOf k W v) (n : Nat) (warm : Bool) :
    s.regsOf k (W ++ startRegs warm) (v.startUp n warm) := 
  (h.of_regs (v.setTdm_regs _)).write (v.startUp_edits n warm).regs

section Edits
variable {s t : State} {W : List RegName}

theorem State.edits.tdm (h : s.edits W t) : t.tdm = s.tdm := by rw [h.rest]
theorem State.edits.start (h : s.edits W t) : t.start = s.start := by rw [h.rest]
theorem State.edits.power (h : s.edits W t) : t.power = s.power := by rw [h.rest]

end Edits

theorem State.startUp_tdm (v : State) (n : Nat) (warm : Bool) : (v.startUp n warm).tdm = { v.tdm with up := 3 } := (v.startUp_edits n warm).tdm
theorem State.startUp_start (v : State) (n : Nat) (warm : Bool) : (v.startUp n warm).start = v.start := (v.startUp_edits n warm).start
theorem State.startUp_power (v : State) (n : Nat) (warm : Bool) : (v.startUp n warm).power = v.power := (v.startUp_edits n warm).power

/-! ### `PORST_N` (R406) -/

theorem execPorstNAssert_eq (s : State) :
    exec .porstNAssert s = .next (s.powerLoss.setPower { s.powerLoss.power with porst := true, off := false }) := rfl

theorem State.powerLoss_reset (s : State) : s.resetOf .powerOn s.powerLoss ∧ s.freshOf .powerOn s.powerLoss ∧ s.regsOf .powerOn afterResetRegs s.powerLoss ∧
    s.powerLoss.tdm = {} ∧ s.powerLoss.start = {} :=
  ⟨s.afterReset_resetOf .powerOn, s.afterReset_freshOf .powerOn, s.afterReset_regsOf .powerOn, s.afterReset_tdm .powerOn, s.afterReset_start .powerOn⟩

theorem porstNAssert_holds (s : State) : ∃ t, exec .porstNAssert s = .next t ∧ t.heldReset = true ∧ s.blank t ∧ t.coh = {} ∧ t.pool = {} ∧ t.stks = [] ∧
    t.tl = {} ∧ t.intc = {} ∧ t.tdm = {} ∧ t.start = {} ∧ t.now = 0 ∧ t.evr.slots = s.evr.slots ∧ t.sec.owner = s.sec.owner ∧ t.sec.log = s.sec.log ∧
    t.sec.retired = s.sec.retired ∧ s.keepsRegs t ledgerRegs ∧ t.losesRegs (.GLB_SCRATCH :: .GLB_STAT :: .STK_LAYOUT_CUR :: alwaysRegs ++ unitRegs) := by
  obtain ⟨h, g, hr, htdm, hstart⟩ := s.powerLoss_reset
  rw [execPorstNAssert_eq]
  generalize s.powerLoss = v at *
  generalize hx : { v.power with porst := true, off := false } = x
  have hheld : (v.setPower x).heldReset = true := by
    rw [← hx]
    rfl
  have h := h.setPower x
  have g := g.setPower x
  have hr := hr.of_regs (u := v.setPower x) rfl
  exact ⟨v.setPower x, rfl, hheld, h.blank, h.coh, h.pool, h.stks (by decide), g.tl, g.intc, (v.setPower_tdm x).trans htdm,
    (v.setPower_start x).trans hstart, h.now, g.slots, g.owner, g.log, g.retired, hr.kept (by decide +kernel), hr.lost (by decide +kernel)⟩

/-! ### Power-on (R401) -/

/-- The device as power-on finds it: `PORST_N` is released, the cause is 0, the reference clock runs. -/
def State.powered (s : State) (cause : Nat) : State :=
  ((s.powerLoss.setPower { s.powerLoss.power with porst := false, off := false }).setFld F.GLB_RST_STAT_PKG_CAUSE cause).setFld F.CLK_STAT_REF_OK 1

theorem State.powerOn_eq (s : State) (cause : Nat) (torn : List (BitVec 14 × BitVec 2048)) :
    s.powerOn cause torn = ((s.powered cause).startUp 1 false).evrPowerOn torn := rfl

theorem State.powered_edits (s : State) (cause : Nat) :
    (s.powerLoss.setPower { s.powerLoss.power with porst := false, off := false }).edits [.GLB_RST_STAT, .CLK_STAT] (s.powered cause) :=
  (State.edits_single _ (f := F.GLB_RST_STAT_PKG_CAUSE) cause (by decide) (by decide)).trans
    (State.edits_single _ (f := F.CLK_STAT_REF_OK) 1 (by decide) (by decide))

theorem State.powered_cause (s : State) (cause : Nat) : (s.powered cause).fld F.GLB_RST_STAT_PKG_CAUSE = cause % 16 := by
  rw [State.powered, State.fld_setFld_other _ _ (by decide)]
  exact State.fld_setFld_same _ _ _ _ _ _ (by decide)

theorem execPowerOnReset_held {s : State} (h : s.power.porst = true) (straps : BitVec 3) (torn : List (BitVec 14 × BitVec 2048)) :
    exec (.powerOnReset straps torn) s = .next ((s.powerOn 0 torn).setPower { (s.powerOn 0 torn).power with straps := straps.toNat }) :=
  congrArg Host.Outcome.next (if_pos h)

theorem execPowerOnReset_running {s : State} (h : s.power.porst = false) (straps : BitVec 3) (torn : List (BitVec 14 × BitVec 2048)) :
    exec (.powerOnReset straps torn) s = .next s :=
  congrArg Host.Outcome.next (if_neg (by rw [h]; decide))

theorem State.resetOf.records {s t u : State} {k : DeviceReset} (h : s.resetOf k t) (g : t.records u) : s.resetOf k u :=
  h.of (g.rest.trans (by rw [g.rest]))

section Records
variable {s t : State}

theorem State.records.tdm (h : s.records t) : t.tdm = s.tdm := by rw [h.rest]
theorem State.records.power (h : s.records t) : t.power = s.power := by rw [h.rest]

theorem State.records.fld (h : s.records t) {f : Fld} (hf : f.reg ∈ readRegs) : t.fld f = s.fld f :=
  h.regs.fld (elsewhere_single hf (by revert hf; generalize f.reg = n; revert n; decide +kernel))

end Records

/-- What the device is as power-on finds it. -/
theorem State.powered_reset (s : State) : s.resetOf .powerOn (s.powered 0) ∧ s.freshOf .powerOn (s.powered 0) ∧
    s.regsOf .powerOn (afterResetRegs ++ [.GLB_RST_STAT, .CLK_STAT]) (s.powered 0) ∧ (s.powered 0).tdm = {} ∧
    (s.powered 0).power.porst = false ∧ (s.powered 0).power.off = false := by
  obtain ⟨h, g, hr, htdm, -⟩ := s.powerLoss_reset
  have he := s.powered_edits 0
  generalize s.powerLoss = v at *
  exact ⟨(h.setPower _).edits he, (g.setPower _).edits he, (hr.of_regs (v.setPower_regs _)).write he.regs, (he.tdm.trans (v.setPower_tdm _)).trans htdm,
    by rw [he.power]; rfl, by rw [he.power]; rfl⟩

/-- The device after power-on. -/
theorem State.powerOn_reset (s : State) (torn : List (BitVec 14 × BitVec 2048)) :
    s.resetOf .powerOn (s.powerOn 0 torn) ∧ s.regsOf .powerOn (afterResetRegs ++ [.GLB_RST_STAT, .CLK_STAT] ++ startRegs false ++ recordRegs) (s.powerOn 0 torn) ∧
    (s.powerOn 0 torn).tdm = { up := 3 } ∧ (s.powerOn 0 torn).power.porst = false ∧ (s.powerOn 0 torn).power.off = false ∧
    (s.powerOn 0 torn).evr.pcyc = (s.evr.pcyc + 1) % 2 ^ 32 := by
  obtain ⟨h, g, hr, htdm, hporst, hoff⟩ := s.powered_reset
  rw [State.powerOn_eq]
  generalize s.powered 0 = v at *
  have h := h.startUp 1 false
  have g := g.startUp 1 false
  have hr := hr.startUp 1 false
  have htdm' : (v.startUp 1 false).tdm = { up := 3 } := by rw [v.startUp_tdm, htdm]
  have hpower := v.startUp_power 1 false
  generalize v.startUp 1 false = x at *
  have hrec := x.evrPowerOn_records torn
  generalize x.evrPowerOn torn = y at *
  refine ⟨(h.setEvr _).records hrec, (hr.of_regs (x.setEvr_regs _)).write hrec.regs, hrec.tdm.trans ((x.setEvr_tdm _).trans htdm'), ?_, ?_, ?_⟩
  · rw [hrec.power, x.setEvr_power, hpower, hporst]
  · rw [hrec.power, x.setEvr_power, hpower, hoff]
  · simp only [hrec.pcyc, x.setEvr_evr, g.pcyc]

theorem State.fld_setEvr (t : State) (x : Evr) (f : Fld) : (t.setEvr x).fld f = t.fld f := rfl

theorem State.regVal_setEvr (t : State) (x : Evr) (r : RegName) : (t.setEvr x).regVal r = t.regVal r := rfl

theorem State.heldReset_straps {t : State} (h : t.power.porst = false) (g : t.power.off = false) (n : Nat) :
    (t.setPower { t.power with straps := n }).heldReset = false := by
  simp [State.heldReset, h, g]

theorem State.fld_setPower (t : State) (x : Power) (f : Fld) : (t.setPower x).fld f = t.fld f := rfl

theorem State.regVal_setPower (t : State) (x : Power) (r : RegName) : (t.setPower x).regVal r = t.regVal r := rfl

/-- Start-up after power-on: a field of a register that is read then is the one that start-up left. -/
theorem State.powerOn_fld (s : State) (torn : List (BitVec 14 × BitVec 2048)) {f : Fld} (hf : f.reg ∈ readRegs) :
    (s.powerOn 0 torn).fld f = ((s.powered 0).startUp 1 false).fld f := by
  rw [State.powerOn_eq]
  exact ((State.evrPowerOn_records _ torn).fld hf).trans (State.fld_setEvr _ _ _)

/-- Start-up writes the cause of the reset no more. -/
theorem State.startUp_cause (v : State) (n : Nat) (warm : Bool) {f : Fld} (h : f.reg = .GLB_RST_STAT) : (v.startUp n warm).fld f = v.fld f := by
  have hn : f.reg ∉ startRegs warm := by
    rw [h]
    cases warm <;> decide
  exact (v.startUp_edits n warm).regs.fld (elsewhere_single (by rw [h]; decide) hn)

/-- The registers that start-up sets at power-on. -/
theorem State.powerOn_started (s : State) (torn : List (BitVec 14 × BitVec 2048)) :
    (s.powerOn 0 torn).fld F.GLB_STAT_STEP = 1 ∧ (s.powerOn 0 torn).fld F.PWR_STATPIN_CODE = 1 ∧ (s.powerOn 0 torn).fld F.TDM_ROLE_MODE = 1 ∧
    (s.powerOn 0 torn).fld F.GLB_RST_STAT_PKG_CAUSE = 0 ∧ (s.powerOn 0 torn).fld F.GLB_STAT_READY = 0 := by
  refine ⟨?_, ?_, ?_, ?_, ?_⟩ <;> rw [s.powerOn_fld torn (by decide)]
  · rw [State.startUp_step]
  · rw [State.startUp_code]
  · rw [State.startUp_mode]
  · rw [State.startUp_cause _ _ _ rfl, State.powered_cause]
  · obtain ⟨-, -, hr, -⟩ := s.powered_reset
    rw [State.startUp_beside _ _ _ rfl (by decide), hr.fld_lost (by decide) (by decide) (by decide)]
    decide

theorem State.powerOn_layout (s : State) (torn : List (BitVec 14 × BitVec 2048)) :
    (s.powerOn 0 torn).regVal .STK_LAYOUT_CUR = layoutActs (s.regVal .STK_LAYOUT) := by
  obtain ⟨-, -, hr, -⟩ := s.powered_reset
  rw [State.powerOn_eq, (State.evrPowerOn_records _ torn).regs.regVal (elsewhere_single (by decide) (by decide)), State.regVal_setEvr, State.startUp_layout,
    hr.regVal_kept (by decide) (by decide) (by decide)]

theorem powerOnReset_holds (straps : BitVec 3) (torn : List (BitVec 14 × BitVec 2048)) (s : State) (hp : s.power.porst = true) :
    ∃ t, exec (.powerOnReset straps torn) s = .next t ∧ t.heldReset = false ∧ t.power.straps = straps.toNat ∧
      t.fld F.GLB_STAT_STEP = 1 ∧ t.fld F.PWR_STATPIN_CODE = 1 ∧ t.flag F.GLB_STAT_READY = false ∧ t.fld F.GLB_RST_STAT_PKG_CAUSE = 0 ∧
      t.fld F.TDM_ROLE_MODE = 1 ∧ t.tdm = { up := 3 } ∧ t.evr.pcyc = (s.evr.pcyc + 1) % 2 ^ 32 ∧ t.now = 0 ∧ t.pool = {} ∧ t.coh = {} ∧ s.blank t ∧
      t.regVal .STK_LAYOUT_CUR = layoutActs (s.regVal .STK_LAYOUT) ∧ s.keepsRegs t ledgerRegs ∧ t.losesRegs (.GLB_SCRATCH :: unitRegs) := by
  obtain ⟨h, hr, htdm, hporst, hoff, hpcyc⟩ := s.powerOn_reset torn
  obtain ⟨hstep, hcode, hmode, hcause, hready⟩ := s.powerOn_started torn
  have hlayout := s.powerOn_layout torn
  have hheld := State.heldReset_straps hporst hoff straps.toNat
  refine ⟨_, execPowerOnReset_held hp straps torn, hheld, ?_, ?_, ?_, ?_, ?_, ?_, ?_, ?_, (h.setPower _).now, (h.setPower _).pool, (h.setPower _).coh,
    (h.setPower _).blank, ?_, (hr.of_regs (State.setPower_regs _ _)).kept (by decide +kernel), (hr.of_regs (State.setPower_regs _ _)).lost (by decide +kernel)⟩
  · rw [State.setPower_power]
  · rw [State.fld_setPower, hstep]
  · rw [State.fld_setPower, hcode]
  · rw [State.flag, State.fld_setPower, hready]
    rfl
  · rw [State.fld_setPower, hcause]
  · rw [State.fld_setPower, hmode]
  · rw [State.setPower_tdm, htdm]
  · rw [State.setPower_evr, hpcyc]
  · rw [State.regVal_setPower, hlayout]

end Sys2Proof.Machine
end

section
/-!
A package reset and the reset commands (R406, R407, Table 16-5).
-/
namespace Sys2Proof.Machine
open Sys2Proof

/-! ### Down notices (R407) -/

/-- From `s` to `t` flits have left on the links; nothing else changes. -/
def State.onLinks (s t : State) : Prop := t = { s with links := t.links, wire := t.wire }

theorem State.onLinks.trans {s t u : State} (h : s.onLinks t) (g : t.onLinks u) : s.onLinks u := by
  unfold State.onLinks at h g
  rw [h] at g
  exact g

theorem State.sendLctl_onLinks (s : State) (p sub cause : Nat) : s.onLinks (s.sendLctl p sub cause) := by
  unfold State.sendLctl
  split <;> rfl

theorem State.downNotices_onLinks (s : State) : s.onLinks s.downNotices := by
  unfold State.downNotices
  refine List.foldlRecOn (motive := fun t : State => s.onLinks t) _ _ rfl fun t ht p _ => ?_
  split
  · exact ht.trans (t.sendLctl_onLinks p 5 6)
  · exact ht

section Links
variable {s t : State}

theorem State.onLinks.regs (h : s.onLinks t) : t.regs = s.regs := by rw [h]
theorem State.onLinks.now (h : s.onLinks t) : t.now = s.now := by rw [h]
theorem State.onLinks.time (h : s.onLinks t) : t.time = s.time := by rw [h]
theorem State.onLinks.evr (h : s.onLinks t) : t.evr = s.evr := by rw [h]
theorem State.onLinks.sec (h : s.onLinks t) : t.sec = s.sec := by rw [h]

theorem State.onLinks.fld (h : s.onLinks t) (f : Fld) (inst i j : Nat) : t.fld f inst i j = s.fld f inst i j := by
  unfold State.fld State.regVal
  rw [h.regs]

end Links

/-! ### A package reset (R406) -/

/-- A package reset before start-up begins. -/
def State.packaged (s : State) (cause : Nat) : State :=
  (((s.downNotices).afterReset .package).setFld F.GLB_RST_STAT_PKG_CAUSE cause).count F.GLB_RST_STAT_PKGS

theorem State.packageReset_held {s : State} (h : s.heldReset = true) (cause : Nat) : s.packageReset cause = s := if_pos h

theorem State.packageReset_running {s : State} (h : s.heldReset = false) (cause : Nat) : s.packageReset cause = (s.packaged cause).startUp 2 false :=
  if_neg (by rw [h]; decide)

theorem State.packaged_edits (s : State) (cause : Nat) : (s.downNotices.afterReset .package).edits [.GLB_RST_STAT] (s.packaged cause) :=
  (State.edits_single _ (f := F.GLB_RST_STAT_PKG_CAUSE) cause (by decide) (by decide)).trans
    (State.edits_single _ (f := F.GLB_RST_STAT_PKGS) _ (by decide) (by decide))

theorem State.packaged_cause (s : State) (cause : Nat) : (s.packaged cause).fld F.GLB_RST_STAT_PKG_CAUSE = cause % 16 := by
  rw [State.packaged, State.count, State.fld_setFld_beside (f := F.GLB_RST_STAT_PKGS) (g := F.GLB_RST_STAT_PKG_CAUSE) _ _ _ _ _ rfl (by decide) (by decide)]
  exact State.fld_setFld_same _ _ _ _ _ _ (by decide)

theorem State.packaged_count (s : State) (cause : Nat) :
    (s.packaged cause).fld F.GLB_RST_STAT_PKGS = min (s.fld F.GLB_RST_STAT_PKGS + 1) (2 ^ F.GLB_RST_STAT_PKGS.width - 1) := by
  have hkept := ((s.downNotices).afterReset_regsOf .package).fld_kept (f := F.GLB_RST_STAT_PKGS) (by decide) (by decide) (by decide)
  rw [State.packaged, State.fld_count_same _ _ _ _ _ _ (by decide),
    State.fld_setFld_beside (f := F.GLB_RST_STAT_PKG_CAUSE) (g := F.GLB_RST_STAT_PKGS) _ _ _ _ _ rfl (by decide) (by decide), hkept, s.downNotices_onLinks.fld]

/-- What a package reset of `s` leaves: start-up is at step 2, with the cause. -/
def State.boots (s t : State) (cause : Nat) : Prop :=
  t.fld F.GLB_STAT_STEP = 2 ∧ t.fld F.GLB_RST_STAT_PKG_CAUSE = cause ∧
    t.fld F.GLB_RST_STAT_PKGS = min (s.fld F.GLB_RST_STAT_PKGS + 1) (2 ^ F.GLB_RST_STAT_PKGS.width - 1) ∧ t.fld F.TDM_ROLE_MODE = 1 ∧
    t.tdm = { up := 3 } ∧ t.now = s.now ∧ t.evr = s.evr ∧ t.time.off = s.time.off ∧ t.pool = {} ∧ t.coh = {} ∧ t.stks = [] ∧ t.tl = {} ∧ t.intc = {} ∧
    s.downNotices.blank t ∧ t.sec.owner = s.sec.owner ∧ s.keepsRegs t (ledgerRegs ++ alwaysRegs) ∧ t.losesRegs (.GLB_SCRATCH :: unitRegs)

theorem State.packageReset_boots {s : State} (h : s.heldReset = false) {cause : Nat} (hc : cause < 16) : s.boots (s.packageReset cause) cause := by
  have he := s.packaged_edits cause
  have hu := ((s.downNotices.afterReset_resetOf .package).edits he).startUp 2 false
  have hf := ((s.downNotices.afterReset_freshOf .package).edits he).startUp 2 false
  have hr := ((s.downNotices.afterReset_regsOf .package).write he.regs).startUp 2 false
  have htdm := he.tdm.trans (s.downNotices.afterReset_tdm .package)
  have hd := s.downNotices_onLinks
  rw [State.packageReset_running h]
  refine ⟨State.startUp_step _ _ _, ?_, ?_, State.startUp_mode _ _ _, ?_, ?_, ?_, ?_, hu.pool, hu.coh, hu.stks (by decide), hf.tl, hf.intc, hu.blank, ?_, ?_,
    hr.lost (by decide +kernel)⟩
  · rw [State.startUp_cause _ _ _ rfl, State.packaged_cause, Nat.mod_eq_of_lt hc]
  · rw [State.startUp_cause _ _ _ rfl, State.packaged_count]
  · rw [State.startUp_tdm, htdm]
  · rw [hu.now, if_pos (by decide), hd.now]
  · rw [hf.evr (by decide), hd.evr]
  · rw [hu.timeOff (by decide), hd.time]
  · rw [hf.owner, hd.sec]
  · intro off r ha hm d
    rw [hr.kept (l := ledgerRegs ++ alwaysRegs) (by decide +kernel) off r ha hm d, hd.regs]

theorem packageReset_holds (s : State) : (s.heldReset = true → exec .packageReset s = .next s) ∧
    (s.heldReset = false → ∃ t, exec .packageReset s = .next t ∧ s.boots t 4) :=
  ⟨fun h => congrArg Host.Outcome.next (State.packageReset_held h 4), fun h => ⟨_, rfl, State.packageReset_boots h (by decide)⟩⟩

/-! ### Reset commands (Table 16-5) -/

theorem hostWriter_iff (w : Writer) : hostWriter w = true ↔ w ∈ [Writer.tl0, .tl1, .sideband] := by
  simp [hostWriter, or_assoc]

theorem confirm_iff (c : BitVec 8) : c.toNat = 0xA5 ↔ c = 0xA5 := by
  rw [← BitVec.toNat_inj]
  rfl

/-- The device after it has taken a reset command. -/
def State.took (u : State) : State := { u with start := { u.start with cmdAt := some u.now }, rsp := (.ok, 0) }

section Command
variable {s u : State} {w : Writer} {c : BitVec 8} {f : State → Option State}

/-- An admitted command of a writer that may not give it, or without its confirmation. -/
theorem State.resetCmd_denied (h : s.admits w .GLB_RST_CMD 0) (hd : w ∉ [Writer.tl0, .tl1, .sideband] ∨ c ≠ 0xA5) :
    s.resetCmd w c.toNat f = (s.wakeFor w).respond .accessDenied := by
  rw [State.resetCmd, State.regWrite_admitted h]
  refine if_pos (hd.imp (fun hw => ?_) fun hc => mt (confirm_iff c).mp hc)
  rw [Bool.not_eq_true', ← Bool.not_eq_true]
  exact mt (hostWriter_iff w).mp hw

/-- A command that may be given acts on the device as the access woke it, unless it meets another of the instant. -/
theorem State.resetCmd_given (h : s.admits w .GLB_RST_CMD 0) (hw : w ∈ [Writer.tl0, .tl1, .sideband]) (hc : c = 0xA5) :
    s.resetCmd w c.toNat f = if (s.wakeFor w).start.cmdAt = some (s.wakeFor w).now then (s.wakeFor w).respond .busy
      else ((f (s.wakeFor w)).map State.took).getD ((s.wakeFor w).respond .busy) := by
  rw [State.resetCmd, State.regWrite_admitted h, if_neg]
  · split
    · rfl
    · cases f (s.wakeFor w) <;> rfl
  · rw [(hostWriter_iff w).mpr hw, hc]
    decide

theorem State.resetCmd_meets (h : s.admits w .GLB_RST_CMD 0) (hw : w ∈ [Writer.tl0, .tl1, .sideband]) (hc : c = 0xA5)
    (hm : (s.wakeFor w).start.cmdAt = some (s.wakeFor w).now) : s.resetCmd w c.toNat f = (s.wakeFor w).respond .busy := by
  rw [State.resetCmd_given h hw hc, if_pos hm]

theorem State.resetCmd_refused (h : s.admits w .GLB_RST_CMD 0) (hw : w ∈ [Writer.tl0, .tl1, .sideband]) (hc : c = 0xA5)
    (hm : (s.wakeFor w).start.cmdAt ≠ some (s.wakeFor w).now) (hf : f (s.wakeFor w) = none) :
    s.resetCmd w c.toNat f = (s.wakeFor w).respond .busy := by
  rw [State.resetCmd_given h hw hc, if_neg hm, hf]
  rfl

theorem State.resetCmd_taken (h : s.admits w .GLB_RST_CMD 0) (hw : w ∈ [Writer.tl0, .tl1, .sideband]) (hc : c = 0xA5)
    (hm : (s.wakeFor w).start.cmdAt ≠ some (s.wakeFor w).now) (hf : f (s.wakeFor w) = some u) : s.resetCmd w c.toNat f = u.took := by
  rw [State.resetCmd_given h hw hc, if_neg hm, hf]
  rfl

end Command

/-- A warm or quarter reset waits for a device that is READY and that no warm reset prepares. -/
theorem ready_guard (s : State) {α : Type} (x : α) :
    ((s.flag F.GLB_STAT_READY = false ∨ s.start.warm = true) → (if !s.flag F.GLB_STAT_READY ∨ s.start.warm then none else some x) = none) ∧
    (s.flag F.GLB_STAT_READY = true → s.start.warm = false → (if !s.flag F.GLB_STAT_READY ∨ s.start.warm then none else some x) = some x) := by
  refine ⟨fun h => if_pos (h.imp_left fun h => by rw [h]; rfl), fun h g => if_neg ?_⟩
  rw [h, g]
  decide

theorem State.beginQuarter_down {s : State} {q : Nat} (h : s.quarterDown q = true) (cause : Nat) (dead : Bool) : s.beginQuarter q cause dead = s :=
  if_pos (.inl h)

theorem resetCommands_hold (w : Writer) (q : Quarter) (confirm : BitVec 8) (s : State) (h : s.admits w .GLB_RST_CMD 0) :
    let s1 := s.wakeFor w
    let all (u : State) : Prop := exec (.packageResetCmd w confirm) s = .next u ∧ exec (.warmResetCmd w confirm) s = .next u ∧
      exec (.quarterResetCmd w q confirm) s = .next u
    (w ∉ [.tl0, .tl1, .sideband] ∨ confirm ≠ 0xA5 → all (s1.respond .accessDenied)) ∧
    (w ∈ [.tl0, .tl1, .sideband] → confirm = 0xA5 → s1.start.cmdAt = some s1.now → all (s1.respond .busy)) ∧
    (w ∈ [.tl0, .tl1, .sideband] → confirm = 0xA5 → s1.start.cmdAt ≠ some s1.now →
      (∃ u, exec (.packageResetCmd w confirm) s = .next u.took ∧ s1.boots u 5) ∧
      (s1.flag F.GLB_STAT_READY = false ∨ s1.start.warm = true →
        exec (.warmResetCmd w confirm) s = .next (s1.respond .busy) ∧ exec (.quarterResetCmd w q confirm) s = .next (s1.respond .busy)) ∧
      (s1.flag F.GLB_STAT_READY = true → s1.start.warm = false →
        exec (.warmResetCmd w confirm) s = .next s1.beginWarm.took ∧
        exec (.quarterResetCmd w q confirm) s = .next (s1.beginQuarter q.val 4 false).took ∧
        (s1.quarterDown q.val = true → exec (.quarterResetCmd w q confirm) s = .next s1.took))) := by
  intro s1 all
  have hall {u : State} (hu : ∀ f, s.resetCmd w confirm.toNat f = u) : all u :=
    ⟨congrArg Host.Outcome.next (hu _), congrArg Host.Outcome.next (hu _), congrArg Host.Outcome.next (hu _)⟩
  refine ⟨fun hd => hall fun f => State.resetCmd_denied h hd, fun hw hc hm => hall fun f => State.resetCmd_meets h hw hc hm, fun hw hc hm => ?_⟩
  refine ⟨⟨s1.packageReset 5, congrArg Host.Outcome.next (State.resetCmd_taken h hw hc hm rfl), State.packageReset_boots h.1 (by decide)⟩, fun hr => ?_,
    fun hr hp => ?_⟩
  · exact ⟨congrArg Host.Outcome.next (State.resetCmd_refused h hw hc hm ((ready_guard s1 _).1 hr)),
      congrArg Host.Outcome.next (State.resetCmd_refused h hw hc hm ((ready_guard s1 _).1 hr))⟩
  · have hq : exec (.quarterResetCmd w q confirm) s = .next (s1.beginQuarter q.val 4 false).took :=
      congrArg Host.Outcome.next (State.resetCmd_taken h hw hc hm ((ready_guard s1 _).2 hr hp))
    refine ⟨congrArg Host.Outcome.next (State.resetCmd_taken h hw hc hm ((ready_guard s1 _).2 hr hp)), hq, fun hd => ?_⟩
    rw [hq, State.beginQuarter_down hd]

/-! ### Bridges (R12, R13) -/

/-- An edge source of no quarter becomes pending when its event occurs. -/
theorem State.raise_pends (s : State) {n : Nat} (h : srcLevel n = false) (g : srcReserved n = false) (hq : srcQuarter n = none) : s.raise n = s.pends n := by
  simp [State.raise, h, g, hq]

theorem State.pends_raised (s : State) (n : Nat) : s.raised (s.pends n) n := by
  refine ⟨rfl, ?_⟩
  have hwet : (s.pends n).intc.wet =
      smSet 0 s.intc.wet (RegName.INTC_SRC_PEND.addr 0 (n / 64) 0) (smGet 0 s.intc.wet (RegName.INTC_SRC_PEND.addr 0 (n / 64) 0) ||| 2 ^ (n % 64)) := rfl
  rw [hwet, smGet_smSet_same, Nat.testBit_or, Nat.testBit_two_pow_self, Bool.or_true]

theorem State.pends_eq (s : State) (n : Nat) : s.pends n = { s with intc := (s.pends n).intc } := rfl

theorem srcBridge_edge (b : Fin 4) : srcLevel (0x1B0 + b.val) = false ∧ srcReserved (0x1B0 + b.val) = false ∧ srcQuarter (0x1B0 + b.val) = none := by
  revert b
  decide

/-- Power management once bridge `b` is down. -/
def State.bridgeLost (s : State) (b : Nat) : Power :=
  { s.power with bridgeFails := smSet 0 s.power.bridgeFails b 0, bridgeDown := s.power.bridgeDown ||| 2 ^ b }

/-- The third failure in a row of a bridge: it is down, and its source reports it. -/
def State.bridgeFell (s : State) (b : Nat) : State :=
  ((s.setPower (s.bridgeLost b)).event (srcBridge b) 1 [smGet 0 s.power.bridgeFails b + 1]).pends (0x1B0 + b)

theorem State.bridgeFell_holds (s : State) (b : Nat) : (s.bridgeFell b).power = s.bridgeLost b ∧ s.raised (s.bridgeFell b) (0x1B0 + b) ∧
    s.bridgeFell b = { s with power := (s.bridgeFell b).power, regs := (s.bridgeFell b).regs, tl := (s.bridgeFell b).tl, intc := (s.bridgeFell b).intc } ∧
    s.regsBut (s.bridgeFell b) [RegName.TL_EVT_STAT.addr 0 0 0] := by
  unfold State.bridgeFell
  obtain ⟨he, hregs⟩ := (s.setPower (s.bridgeLost b)).event_eq (srcBridge b) 1 [smGet 0 s.power.bridgeFails b + 1]
  generalize (s.setPower (s.bridgeLost b)).event (srcBridge b) 1 [smGet 0 s.power.bridgeFails b + 1] = e at *
  have hintc : e.intc = s.intc := by rw [he]; rfl
  have hpower : e.power = s.bridgeLost b := by rw [he]; rfl
  have hraised := e.pends_raised (0x1B0 + b)
  have heq := e.pends_eq (0x1B0 + b)
  generalize e.pends (0x1B0 + b) = u at *
  refine ⟨?_, ?_, ?_, ?_⟩
  · rw [heq, hpower]
  · unfold State.raised at *
    rw [← hintc]
    exact hraised
  · rw [heq, he]
    rfl
  · intro d a ha
    rw [heq]
    exact hregs d a ha

theorem execBridgeRetrainFailure_eq (b : Fin 4) (s : State) :
    exec (.bridgeRetrainFailure b) s = .next (if s.heldReset ∨ s.power.bridgeDown.testBit b.val then s
      else if smGet 0 s.power.bridgeFails b.val + 1 < 3 then
        s.setPower { s.power with bridgeFails := smSet 0 s.power.bridgeFails b.val (smGet 0 s.power.bridgeFails b.val + 1) }
      else (s.bridgeFell b.val).cutOff.settle) := by
  obtain ⟨hl, hr, hq⟩ := srcBridge_edge b
  unfold State.bridgeFell
  rw [← State.raise_pends _ hl hr hq]
  rfl

theorem bridges_hold (b : Fin 4) (s : State) :
    let n := smGet 0 s.power.bridgeFails b.val + 1
    (∃ t : State, exec (.bridgeRetrain b) s = .next t.settle ∧ t = { s with power := t.power } ∧ smGet 0 t.power.bridgeFails b.val = 0 ∧
      t.power.bridgeDown = s.power.bridgeDown &&& (15 - 2 ^ b.val)) ∧
    (s.heldReset = true ∨ s.power.bridgeDown.testBit b.val = true → exec (.bridgeRetrainFailure b) s = .next s) ∧
    (s.heldReset = false → s.power.bridgeDown.testBit b.val = false →
      (n < 3 → ∃ t, exec (.bridgeRetrainFailure b) s = .next t ∧ t = { s with power := t.power } ∧ smGet 0 t.power.bridgeFails b.val = n ∧
        t.power.bridgeDown = s.power.bridgeDown) ∧
      (3 ≤ n → ∃ u, exec (.bridgeRetrainFailure b) s = .next u.cutOff.settle ∧ u.power.bridgeDown.testBit b.val = true ∧
        smGet 0 u.power.bridgeFails b.val = 0 ∧ s.raised u (0x1B0 + b.val) ∧
        u = { s with power := u.power, regs := u.regs, tl := u.tl, intc := u.intc } ∧ s.regsBut u [RegName.TL_EVT_STAT.addr 0 0 0])) := by
  intro n
  have hset (v : Nat) : smGet 0 (smSet 0 s.power.bridgeFails b.val v) b.val = v := smGet_smSet_same _ _ _
  rw [execBridgeRetrainFailure_eq]
  refine ⟨⟨s.setPower { s.power with bridgeFails := smSet 0 s.power.bridgeFails b.val 0, bridgeDown := s.power.bridgeDown &&& (15 - 2 ^ b.val) }, rfl, rfl,
    hset 0, rfl⟩, fun h => by rw [if_pos h], fun h g => ?_⟩
  rw [if_neg (by simp [h, g])]
  refine ⟨fun hn => ?_, fun hn => ?_⟩
  · rw [if_pos hn]
    exact ⟨_, rfl, rfl, hset n, rfl⟩
  · obtain ⟨hp, hraised, heq, hregs⟩ := s.bridgeFell_holds b.val
    rw [if_neg (by omega)]
    refine ⟨_, rfl, ?_, ?_, hraised, heq, hregs⟩ <;> rw [hp]
    · simp [State.bridgeLost]
    · exact hset 0

end Sys2Proof.Machine
end

section
/-!
A warm start (R407, R408): the stacks are parked, the logic of the device resets, start-up begins; what the stacks report is kept.
-/
namespace Sys2Proof.Machine
open Sys2Proof

/-! ### Scans that are over -/

/-- No scan is recorded at stack `x`: ending it again would change nothing. -/
def State.scanOff (s : State) (x : Nat) : Prop :=
  ∀ d, smGet d (s.setFld F.STK_STAT_SCAN 0 x).regs (RegName.STK_STAT.addr x 0 0) = smGet d s.regs (RegName.STK_STAT.addr x 0 0)

/-- What a key that has been set reads as, whatever an unlisted key is read as. -/
theorem smGet_smSet_at {β : Type} [DecidableEq β] (d e : β) (m : List (Nat × β)) (k : Nat) (v : β) :
    smGet d (smSet e m k v) k = if v = e then d else v := by
  unfold smSet
  split
  · exact smGet_smErase_same m k
  · exact smGet_smInsert_erased m k v

theorem State.regs_setReg_at (s : State) (r : RegName) (v inst i j : Nat) (d : BitVec 64) :
    smGet d (s.setReg r v inst i j).regs (r.addr inst i j) =
      if BitVec.ofNat 64 v = BitVec.ofNat 64 (r.resetVal i) then d else BitVec.ofNat 64 v := smGet_smSet_at _ _ _ _ _

/-- Clearing a bit that is not set changes nothing. -/
theorem setBits_clear {v : Nat} (h : v.testBit 39 = false) : setBits v 39 1 0 = v := by
  refine Nat.eq_of_testBit_eq fun i => ?_
  rw [testBit_setBits]
  split
  · next hi =>
    obtain rfl : i = 39 := by omega
    rw [h, Nat.zero_testBit]
  · rfl

/-- What the register of the stack reads as once its scan has ended. -/
theorem State.regs_endScan (s : State) (x : Nat) (d : BitVec 64) :
    smGet d (s.setFld F.STK_STAT_SCAN 0 x).regs (RegName.STK_STAT.addr x 0 0) =
      if BitVec.ofNat 64 (setBits (s.regVal .STK_STAT x) 39 1 0) = BitVec.ofNat 64 (RegName.STK_STAT.resetVal 0) then d
      else BitVec.ofNat 64 (setBits (s.regVal .STK_STAT x) 39 1 0) := s.regs_setReg_at .STK_STAT _ x 0 0 d

/-- What stands in the register of the stack decides. -/
theorem State.scanOff.of_keepsAt {s t : State} {x : Nat} {A : Nat → Prop} (h : s.scanOff x) (g : s.keepsAt A t)
    (hA : A (RegName.STK_STAT.addr x 0 0)) : t.scanOff x := by
  intro d
  have hv : t.regVal .STK_STAT x = s.regVal .STK_STAT x := g.regVal hA
  rw [g d _ hA, ← h d, State.regs_endScan, State.regs_endScan, hv]

theorem State.scanOff_setReg (s : State) {v x : Nat} (h : (v % 2 ^ 64).testBit 39 = false) : (s.setReg .STK_STAT v x).scanOff x := by
  intro d
  have hmod : BitVec.ofNat 64 (v % 2 ^ 64) = BitVec.ofNat 64 v := BitVec.eq_of_toNat_eq (by simp)
  rw [State.regs_endScan, State.regs_setReg_at, s.regVal_setReg_same, setBits_clear h, hmod]

theorem State.scanOff_setFld {s : State} {f : Fld} {v x : Nat} (hf : f.reg = .STK_STAT)
    (h : (setBits (s.regVal .STK_STAT x) f.lo f.width v).testBit 39 = false) : (s.setFld f v x).scanOff x := by
  rw [State.setFld, hf]
  exact s.scanOff_setReg (by rw [Nat.testBit_mod_two_pow, h, Bool.and_false])

theorem State.scanOff_endScan (s : State) (x : Nat) : (s.setFld F.STK_STAT_SCAN 0 x).scanOff x := by
  refine State.scanOff_setFld rfl ?_
  rw [testBit_setBits, if_pos (by decide), Nat.zero_testBit]

/-- The bit of a scan that is over reads 0. -/
theorem State.scanOff.testBit {s : State} {x : Nat} (h : s.scanOff x) : (s.regVal .STK_STAT x).testBit 39 = false := by
  have hv : (s.setFld F.STK_STAT_SCAN 0 x).regVal .STK_STAT x = s.regVal .STK_STAT x := congrArg BitVec.toNat (h _)
  have hset : (s.setFld F.STK_STAT_SCAN 0 x).regVal .STK_STAT x = setBits (s.regVal .STK_STAT x) 39 1 0 % 2 ^ 64 := s.regVal_setReg_same _ _ _ _ _
  rw [← hv, hset, Nat.testBit_mod_two_pow, testBit_setBits, if_pos (by decide), Nat.zero_testBit, Bool.and_false]

theorem State.scanOff.setState {s : State} {x : Nat} (h : s.scanOff x) (v : Nat) : (s.setFld F.STK_STAT_STATE v x).scanOff x := by
  refine State.scanOff_setFld rfl ?_
  rw [testBit_setBits, if_neg (by decide), h.testBit]

/-! ### Parked stacks -/

/-- One stack of those that stop. -/
def State.parkStk (s : State) (x : Nat) : State :=
  let s := (((s.flushFolds x).dropLines x).takeHints x).flushPlaces x
  let s := (s.setStk x (s.stk x).kept).setFld F.STK_STAT_SCAN 0 x
  let t := s.stkState x
  if t = 2 ∨ t = 3 ∨ t = 4 ∨ t = 6 then s.setStkState x 5 else s

theorem State.parkStacks_all (s : State) : s.parkStacks (fun _ => true) = (List.range 16).foldl State.parkStk s := by
  unfold State.parkStacks
  refine congrArg (fun f => List.foldl f s (List.range 16)) (funext fun s => funext fun x => ?_)
  exact if_pos rfl

theorem stkStat_ne {x y : Nat} (h : y ≠ x) : RegName.STK_STAT.addr y 0 0 ≠ RegName.STK_STAT.addr x 0 0 := by
  rw [RegName.addr_ofStk rfl rfl, RegName.addr_ofStk rfl rfl]
  omega

/-- A stack that goes to self-refresh changes its own register alone. -/
theorem State.setStkState_sleep_regs (s : State) (x : Nat) : (s.setStkState x 5).regs = (s.setFld F.STK_STAT_STATE 5 x).regs := by
  unfold State.setStkState
  simp only [show ¬((5 : Nat) = 7 ∨ (5 : Nat) = 0) by decide, show ¬((5 : Nat) = 2 ∨ (5 : Nat) = 3) by decide, if_false]
  split
  · rfl
  · exact State.raise_regs _ _

/-- Before its scan ends, a stack that stops leaves what the stacks report alone. -/
theorem State.calm_parkFirst (s : State) (x : Nat) :
    s.calm stkStatAt ((((s.flushFolds x).dropLines x).takeHints x).flushPlaces x) :=
  (((s.calm_flushFolds x).trans (State.calm_dropLines _ x)).trans (State.calm_takeHints _ x)).trans (State.calm_flushPlaces _ x)

theorem State.parkStk_scanOff (s : State) (x : Nat) : (s.parkStk x).scanOff x := by
  unfold State.parkStk
  extract_lets a b t
  have hb : b.scanOff x := State.scanOff_endScan _ x
  split
  · exact (hb.setState 5).of_keepsAt (State.keepsAt_of_regs (fun _ => True) (b.setStkState_sleep_regs x)) trivial
  · exact hb

theorem State.parkStk_other {s : State} {x y : Nat} (hy : y < 16) (h : y ≠ x) (hs : s.scanOff y) : (s.parkStk x).scanOff y := by
  have hne : RegName.STK_STAT.addr x 0 0 ≠ RegName.STK_STAT.addr y 0 0 := (stkStat_ne h).symm
  unfold State.parkStk
  extract_lets a b t
  have ha : a.scanOff y := hs.of_keepsAt (s.calm_parkFirst x).regs ⟨y, hy, rfl⟩
  have hstk : (a.setStk x (a.stk x).kept).scanOff y := ha.of_keepsAt (State.keepsAt_of_regs (fun _ => True) (a.setStk_regs x _)) trivial
  have hb : b.scanOff y := hstk.of_keepsAt (State.keepsAt_setFld (A := (· = RegName.STK_STAT.addr y 0 0)) _ 0 hne) rfl
  split
  · have ht : (b.setFld F.STK_STAT_STATE 5 x).scanOff y := hb.of_keepsAt (b.keepsAt_setFld (A := (· = RegName.STK_STAT.addr y 0 0)) 5 hne) rfl
    exact ht.of_keepsAt (State.keepsAt_of_regs (fun _ => True) (b.setStkState_sleep_regs x)) trivial
  · exact hb

theorem State.parkStks_scanOff (n : Nat) (hn : n ≤ 16) (s : State) {x : Nat} (hx : x < n) : ((List.range n).foldl State.parkStk s).scanOff x := by
  induction n with
  | zero => omega
  | succ n ih =>
    rw [List.range_succ, List.foldl_append, List.foldl_cons, List.foldl_nil]
    by_cases h : x = n
    · rw [h]
      exact State.parkStk_scanOff _ n
    · exact State.parkStk_other (by omega) h (ih (by omega) (by omega))

/-- Once the stacks are parked no scan runs. -/
theorem State.parkStacks_scanOff (s : State) {x : Nat} (hx : x < 16) : (s.parkStacks (fun _ => true)).scanOff x := by
  rw [State.parkStacks_all]
  exact State.parkStks_scanOff 16 (by decide) s hx

/-! ### What the reset keeps of the stacks -/

/-- Ending scans that are over keeps every register that holds what it held when they were. -/
theorem State.scansEnd_keeps {s b : State} (hs : ∀ x < 16, s.scanOff x) {a : Nat} (hb : ∀ d, smGet d b.regs a = smGet d s.regs a) (d : BitVec 64) :
    smGet d b.scansEnd.regs a = smGet d s.regs a := by
  refine List.foldlRecOn (motive := fun t : State => ∀ d, smGet d t.regs a = smGet d s.regs a) _ _ hb (fun t ht x hx d => ?_) d
  by_cases ha : a = RegName.STK_STAT.addr x 0 0
  · subst ha
    have hoff : t.scanOff x := (hs x (List.mem_range.mp hx)).of_keepsAt (A := fun a => a = RegName.STK_STAT.addr x 0 0) (fun d a ha => ha ▸ ht d) rfl
    rw [hoff d, ht d]
  · rw [State.keepsAt_setFld t (f := F.STK_STAT_SCAN) (A := (· = a)) 0 (fun he => ha he.symm) d a rfl, ht d]

/-- A warm reset keeps what the stacks report, once no scan runs. -/
theorem State.afterReset_stkStat {s : State} (hs : ∀ x < 16, s.scanOff x) {a : Nat} {r : RegRef} (ha : regAt a = .reg r) (hr : r.reg = .STK_STAT)
    (d : BitVec 64) : smGet d (s.afterReset .warm).regs a = smGet d s.regs a := by
  obtain ⟨b, he, -, -, -, -, hb⟩ := s.afterReset_writes .warm
  rw [he.regs d a ⟨r, ha, by rw [hr]; decide⟩]
  refine State.scansEnd_keeps hs (fun d => ?_) d
  rw [hb, smGet_filter, DeviceReset.keepsAt_reg ha, hr]
  rfl

end Sys2Proof.Machine
end

section
/-!
The end of a warm start (R407, R408), and the statement on resets.
-/
namespace Sys2Proof.Machine
open Sys2Proof

/-! ### Quarters that stay held -/

/-- Quarters that were held stay so: they are under reset, and a transition of the measurements starts. -/
def State.holdAgain (s : State) (hold : Nat) : State :=
  if hold = 0 then s else (((s.setFld F.GLB_STAT_QHOLD hold).setFld F.GLB_STAT_QRST hold).setFld F.SEC_STAT_QRST hold).beginTrans

theorem State.beginTrans_eq (s : State) : s.beginTrans = { s with regs := (s.setFld F.SEC_STAT_TRANS 1).regs, sec := s.beginTrans.sec } := by
  unfold State.beginTrans
  dsimp only
  split <;> rfl

/-- Registers that name the quarters held. -/
def holdRegs : List RegName := [.GLB_STAT, .SEC_STAT]

/-- The quarters under reset are named twice. -/
theorem State.holdFirst_edits (s : State) (hold : Nat) :
    s.edits holdRegs (((s.setFld F.GLB_STAT_QHOLD hold).setFld F.GLB_STAT_QRST hold).setFld F.SEC_STAT_QRST hold) :=
  ((s.edits_single (f := F.GLB_STAT_QHOLD) hold (by decide) (by decide)).trans (State.edits_single _ (f := F.GLB_STAT_QRST) hold (by decide) (by decide))).trans
    (State.edits_single _ (f := F.SEC_STAT_QRST) hold (by decide) (by decide))

theorem State.beginTrans_keeps (s : State) : s.keepsAt (elsewhere [.SEC_STAT]) s.beginTrans := by
  have h := (s.edits_single (W := [.SEC_STAT]) (f := F.SEC_STAT_TRANS) 1 (by decide) (by decide)).regs
  have e := s.beginTrans_eq
  exact h.trans (State.keepsAt_of_regs _ (by rw [e]))

theorem State.holdAgain_eq (s : State) (hold : Nat) :
    s.holdAgain hold = { s with regs := (s.holdAgain hold).regs, sec := (s.holdAgain hold).sec } := by
  unfold State.holdAgain
  split
  · rfl
  · have he := (s.holdFirst_edits hold).rest
    generalize ((s.setFld F.GLB_STAT_QHOLD hold).setFld F.GLB_STAT_QRST hold).setFld F.SEC_STAT_QRST hold = t at *
    rw [t.beginTrans_eq, he]

theorem State.holdAgain_evr (s : State) (hold : Nat) : (s.holdAgain hold).evr = s.evr := by rw [s.holdAgain_eq]
theorem State.holdAgain_tdm (s : State) (hold : Nat) : (s.holdAgain hold).tdm = s.tdm := by rw [s.holdAgain_eq]
theorem State.holdAgain_start (s : State) (hold : Nat) : (s.holdAgain hold).start = s.start := by rw [s.holdAgain_eq]

theorem State.resetOf.holdAgain {s t : State} {k : DeviceReset} (h : s.resetOf k t) (hold : Nat) : s.resetOf k (t.holdAgain hold) :=
  h.of ((t.holdAgain_eq hold).trans (by rw [t.holdAgain_eq]))

theorem State.holdAgain_keeps (s : State) (hold : Nat) : s.keepsAt (elsewhere holdRegs) (s.holdAgain hold) := by
  unfold State.holdAgain
  split
  · exact .refl s _
  · exact (s.holdFirst_edits hold).regs.trans ((State.beginTrans_keeps _).mono fun _ => elsewhere.mono (by decide))

/-- A field of `GLB_STAT` below those of the quarters is left alone. -/
theorem State.holdAgain_fld (s : State) (hold : Nat) {f : Fld} (hr : f.reg = .GLB_STAT) (hf : f.lo + f.width ≤ 32) : (s.holdAgain hold).fld f = s.fld f := by
  have ha : f.reg.addr 0 0 0 ≠ F.SEC_STAT_QRST.reg.addr 0 0 0 := by
    rw [hr]
    decide
  unfold State.holdAgain
  split
  · rfl
  · rw [(State.beginTrans_keeps _).fld (elsewhere_single (by rw [hr]; decide) (by rw [hr]; decide)), State.fld_setFld_other _ _ ha,
      State.fld_setFld_beside (f := F.GLB_STAT_QRST) _ _ _ _ _ hr (by decide) (.inl hf),
      State.fld_setFld_beside (f := F.GLB_STAT_QHOLD) _ _ _ _ _ hr (by decide) (.inl (Nat.le_trans hf (by decide)))]

theorem State.holdAgain_qhold (s : State) {hold : Nat} (hlt : hold < 16) (h0 : s.fld F.GLB_STAT_QHOLD = 0) :
    (s.holdAgain hold).fld F.GLB_STAT_QHOLD = hold := by
  unfold State.holdAgain
  split
  · next h => rw [h0, h]
  · rw [(State.beginTrans_keeps _).fld (elsewhere_single (by decide) (by decide)), State.fld_setFld_other _ _ (by decide),
      State.fld_setFld_beside (f := F.GLB_STAT_QRST) (g := F.GLB_STAT_QHOLD) _ _ _ _ _ rfl (by decide) (by decide),
      State.fld_setFld_same _ _ _ _ _ _ (by decide)]
    exact Nat.mod_eq_of_lt hlt

/-! ### A warm start -/

/-- The device reset, before start-up begins: the kept copy of the image is lost where it cannot be read. -/
def State.warmed (u : State) (kept : Bool) : State :=
  (if kept then u.afterReset .warm else (u.afterReset .warm).setStart { (u.afterReset .warm).start with kept := none }).count F.GLB_RST_STAT_WARMS

/-- What a warm start leaves of the device as it was when it was quiet and its stacks were parked. -/
theorem State.warmed_reset (u : State) (kept : Bool) : u.resetOf .warm (u.warmed kept) ∧ u.freshOf .warm (u.warmed kept) ∧
    (u.afterReset .warm).keepsAt (elsewhere [.GLB_RST_STAT]) (u.warmed kept) ∧ (u.warmed kept).tdm = {} ∧
    (u.warmed kept).start = { kept := if kept then u.start.kept else none } := by
  have h := u.afterReset_resetOf .warm
  have g := u.afterReset_freshOf .warm
  have ht := u.afterReset_tdm .warm
  have hs := u.afterReset_start .warm
  rw [if_pos rfl] at hs
  unfold State.warmed
  generalize u.afterReset .warm = v at *
  have he (t : State) : t.edits [.GLB_RST_STAT] (t.count F.GLB_RST_STAT_WARMS) :=
    t.edits_single (f := F.GLB_RST_STAT_WARMS) _ (by decide) (by decide)
  cases kept with
  | true =>
    simp only [if_true]
    exact ⟨h.edits (he v), g.edits (he v), (he v).regs, (he v).tdm.trans ht, (he v).start.trans hs⟩
  | false =>
    simp only [Bool.false_eq_true, if_false]
    have he := he (v.setStart { v.start with kept := none })
    refine ⟨(h.setStart _).edits he, (g.setStart _).edits he, (State.keepsAt_of_regs _ (v.setStart_regs _)).trans he.regs,
      (he.tdm.trans (v.setStart_tdm _)).trans ht, (he.start.trans (v.setStart_start _)).trans ?_⟩
    rw [hs]

/-- A warm start once the stacks are parked and the notices sent. -/
def State.warmStarted (u : State) (kept : Bool) (hold : Nat) : State := ((u.warmed kept).startUp 1 true).holdAgain hold

/-- A warm start that may begin. -/
def State.mayWarm (s : State) : Prop := s.start.warm = true ∧ s.heldReset = false ∧ s.scopeQuiet (fun _ => true) = true

theorem execWarmStart_no {s : State} (h : ¬s.mayWarm) (kept : Bool) : exec (.warmStart kept) s = .next s := by
  refine congrArg Host.Outcome.next (if_neg fun hc => h ?_)
  simpa [State.mayWarm] using hc

theorem execWarmStart_yes {s : State} (h : s.mayWarm) (kept : Bool) : exec (.warmStart kept) s =
    .next ((s.parkStacks (fun _ => true)).downNotices.warmStarted kept ((s.parkStacks (fun _ => true)).fld F.GLB_STAT_QHOLD)) := by
  refine congrArg Host.Outcome.next (if_pos ?_)
  simpa [State.mayWarm] using h

/-- Registers that a warm start writes after the reset. -/
def warmRegs : List RegName := [.GLB_RST_STAT] ++ startRegs true ++ holdRegs

theorem State.warmStarted_keeps (u : State) (kept : Bool) (hold : Nat) : (u.afterReset .warm).keepsAt (elsewhere warmRegs) (u.warmStarted kept hold) := by
  obtain ⟨-, -, h, -, -⟩ := u.warmed_reset kept
  have hs := (State.keepsAt_of_regs (elsewhere (startRegs true)) ((u.warmed kept).setTdm_regs { (u.warmed kept).tdm with up := 3 })).trans
    ((u.warmed kept).startUp_edits 1 true).regs
  have hh := ((u.warmed kept).startUp 1 true).holdAgain_keeps hold
  exact ((h.mono fun _ => elsewhere.mono (by decide)).trans (hs.mono fun _ => elsewhere.mono (by decide))).trans (hh.mono fun _ => elsewhere.mono (by decide))

/-- The units after a warm start. -/
theorem State.warmStarted_reset (u : State) (kept : Bool) (hold : Nat) : u.resetOf .warm (u.warmStarted kept hold) ∧
    (u.warmStarted kept hold).evr = u.evr ∧ (u.warmStarted kept hold).tdm = { up := 3 } ∧
    (u.warmStarted kept hold).start = { kept := if kept then u.start.kept else none } := by
  obtain ⟨h, g, -, htdm, hstart⟩ := u.warmed_reset kept
  unfold State.warmStarted
  exact ⟨(h.startUp 1 true).holdAgain hold, (State.holdAgain_evr _ _).trans ((g.startUp 1 true).evr (by decide)),
    by rw [State.holdAgain_tdm, State.startUp_tdm, htdm], by rw [State.holdAgain_start, State.startUp_start, hstart]⟩

/-- What start-up sets after a warm reset. -/
theorem State.warmStarted_fields (u : State) (kept : Bool) {hold : Nat} (hlt : hold < 16) :
    (u.warmStarted kept hold).fld F.GLB_STAT_STEP = 1 ∧ (u.warmStarted kept hold).fld F.GLB_STAT_WARM = 1 ∧
    (u.warmStarted kept hold).fld F.GLB_STAT_READY = 0 ∧ (u.warmStarted kept hold).fld F.GLB_STAT_QHOLD = hold := by
  obtain ⟨-, -, h, -, -⟩ := u.warmed_reset kept
  have hr := (u.afterReset_regsOf .warm).write h
  have hlost {f : Fld} (hf : f.reg = .GLB_STAT) (hbits : bits (RegName.GLB_STAT.resetVal 0 % 2 ^ 64) f.lo f.width = 0) : (u.warmed kept).fld f = 0 := by
    rw [hr.fld_lost (by rw [hf]; decide) (by rw [hf]; decide) (by rw [hf]; decide), hf, hbits]
  unfold State.warmStarted
  refine ⟨?_, ?_, ?_, State.holdAgain_qhold _ hlt ?_⟩
  · rw [State.holdAgain_fld _ _ rfl (by decide), State.startUp_step]
  · rw [State.holdAgain_fld _ _ rfl (by decide), State.startUp_warm]
    rfl
  · rw [State.holdAgain_fld _ _ rfl (by decide), State.startUp_beside _ _ _ rfl (by decide), hlost rfl (by decide)]
  · rw [State.startUp_beside _ _ _ rfl (by decide), hlost rfl (by decide)]

/-- The registers that survive a warm start, what the stacks report among them. -/
theorem State.warmStarted_keepsRegs {u : State} (hs : ∀ x < 16, u.scanOff x) (kept : Bool) (hold : Nat) :
    u.keepsRegs (u.warmStarted kept hold) (.GLB_SCRATCH :: .SEC_CTL :: .STK_STAT :: .STK_LAYOUT_CUR :: ledgerRegs ++ alwaysRegs) := by
  have hk := u.warmStarted_keeps kept hold
  have hr := (u.afterReset_regsOf .warm).write hk
  intro off r ha hm d
  by_cases h : r.reg = .STK_STAT
  · rw [hk d off ⟨r, ha, by rw [h]; decide⟩, State.afterReset_stkStat hs ha h]
  · refine hr.kept (l := .GLB_SCRATCH :: .SEC_CTL :: .STK_LAYOUT_CUR :: ledgerRegs ++ alwaysRegs) (by decide +kernel) off r ha ?_ d
    simp only [List.cons_append, List.mem_cons] at hm ⊢
    tauto

theorem State.flag_set {t : State} {f : Fld} (h : t.fld f = 1) : t.flag f = true := by
  rw [State.flag, h]
  rfl

theorem State.flag_clear {t : State} {f : Fld} (h : t.fld f = 0) : t.flag f = false := by
  rw [State.flag, h]
  rfl

theorem warmStart_holds (kept : Bool) (s : State) :
    let u := (s.parkStacks (fun _ => true)).downNotices
    (¬s.mayWarm → exec (.warmStart kept) s = .next s) ∧
    (s.mayWarm → ∃ t, exec (.warmStart kept) s = .next t ∧ t.fld F.GLB_STAT_STEP = 1 ∧ t.flag F.GLB_STAT_WARM = true ∧ t.flag F.GLB_STAT_READY = false ∧
      t.fld F.GLB_STAT_QHOLD = u.fld F.GLB_STAT_QHOLD ∧ t.start = { kept := if kept then u.start.kept else none } ∧ t.tdm = { up := 3 } ∧
      t.pool = u.pool ∧ t.coh = { lost := u.coh.lost } ∧ t.evr = u.evr ∧ t.now = u.now ∧ u.blank t ∧
      u.keepsRegs t (.GLB_SCRATCH :: .SEC_CTL :: .STK_STAT :: .STK_LAYOUT_CUR :: ledgerRegs ++ alwaysRegs) ∧
      t.losesRegs [.XLT_CTL, .XLT_SEG_ATTR, .COH_CTL, .PORT_CTL, .PORT_LNK_STAT, .HUB_CTL, .INTC_GRP_CFG, .GLB_IMG_STAT]) := by
  intro u
  refine ⟨fun h => execWarmStart_no h kept, fun h => ?_⟩
  have hlinks := (s.parkStacks (fun _ => true)).downNotices_onLinks
  have hs (x : Nat) (hx : x < 16) : u.scanOff x :=
    (s.parkStacks_scanOff hx).of_keepsAt (State.keepsAt_of_regs (fun _ => True) hlinks.regs) trivial
  have hexec := execWarmStart_yes h kept
  rw [← hlinks.fld F.GLB_STAT_QHOLD 0 0 0] at hexec
  obtain ⟨hr, hevr, htdm, hstart⟩ := u.warmStarted_reset kept (u.fld F.GLB_STAT_QHOLD)
  obtain ⟨hstep, hwarm, hready, hqhold⟩ := u.warmStarted_fields kept (hold := u.fld F.GLB_STAT_QHOLD) (bits_lt _ _ _)
  have hl := (u.afterReset_regsOf .warm).write (u.warmStarted_keeps kept (u.fld F.GLB_STAT_QHOLD))
  exact ⟨_, hexec, hstep, State.flag_set hwarm, State.flag_clear hready, hqhold, hstart, htdm, hr.pool, hr.coh, hevr, hr.now, hr.blank,
    State.warmStarted_keepsRegs hs kept _, hl.lost (by decide +kernel)⟩

/-- Settles O39. A reset of the device leaves a base state whose registers are those of Table 16-4; start-up, the recorder and held quarters then write
registers of their own. Before a warm reset the parked stacks have no scan, so that ending their scans changes nothing that they report. -/
theorem resetsLeaveWhatSurvivesThem : Obligations.ResetsLeaveWhatSurvivesThem :=
  ⟨porstNAssert_holds, fun straps torn s => ⟨fun h => execPowerOnReset_running h straps torn, powerOnReset_holds straps torn s⟩,
    ⟨packageReset_holds, resetCommands_hold⟩, warmStart_holds, bridges_hold⟩

end Sys2Proof.Machine
end

section
/-!
Instructions that convert addresses and read system registers (R45, R205, R225, R226): what they leave in their station.
-/
namespace Sys2Proof.Machine
open Sys2Proof

/-! ### A scalar and a predicate written together -/

theorem Stn.setS_preg (t : Stn) (d n : Nat) (v : BitVec 64) : (t.setS d v).preg n = t.preg n := by
  rw [Stn.setS_eq]
  rfl

theorem Stn.setP_sreg (t : Stn) (d n : Nat) (v : BitVec 64) : (t.setP d v).sreg n = t.sreg n := by
  rw [Stn.setP_eq]
  rfl

/-- An instruction that writes D and then the predicate of its field RB leaves both, and moves on. -/
theorem Stn.putS_setP_holds (t : Stn) (i : Insn) (v p : BitVec 64) :
    let u := ((t.putS i v).setP (pN i.rb) p).advance
    t.movedOn u (fun y => { y with s := u.s, p := u.p }) ∧
    (∀ n, u.sreg n = if n = i.rd.toNat ∧ n ≠ 0 then v else t.sreg n) ∧
    ∀ n, u.preg n = if n = i.rb.toNat - 52 ∧ n ≠ 0 then p else t.preg n := by
  refine ⟨?_, fun n => ?_, fun n => ?_⟩
  · unfold Stn.movedOn Stn.advance Stn.putS
    rw [Stn.setP_eq, Stn.setS_eq]
  · exact (Stn.setP_sreg (t.putS i v) _ n p).trans (Stn.sreg_setS t _ n v)
  · refine (Stn.preg_setP (t.putS i v) _ n p).trans ?_
    unfold Stn.putS
    rw [Stn.setS_preg]
    rfl

/-! ### Conversions -/

/-- A conversion between host addresses and handles: its word writes what `f` gives for A in the station's context, and whether that is not 0. -/
theorem State.issues_convert {s : State} {c : Instr} {x : SiteId} {word : BitVec 64} (f : State → Nat → Nat → Nat)
    (he : exec c s = .next (s.issue x word { rd := some .s, ra := some .s, rb := some .p } false (fun s k t i =>
      .stn ((t.putS i (BitVec.ofNat 64 (f s (s.siteCtx k) (t.sa i).toNat))).setP (pN i.rb) (allBits (f s (s.siteCtx k) (t.sa i).toNat ≠ 0)))))) :
    s.issues c x word { rd := some .s, ra := some .s, rb := some .p } false (fun u =>
      let t := s.stn (siteKey x)
      let v := f s (s.siteCtx (siteKey x)) (t.sreg (insnOf word).ra.toNat).toNat
      s.onlyStn u (siteKey x) ∧ t.movedOn (u.stn (siteKey x)) (fun y => { y with s := (u.stn (siteKey x)).s, p := (u.stn (siteKey x)).p }) ∧
      (∀ n, (u.stn (siteKey x)).sreg n = if n = (insnOf word).rd.toNat ∧ n ≠ 0 then BitVec.ofNat 64 v else t.sreg n) ∧
      ∀ n, (u.stn (siteKey x)).preg n =
        if n = (insnOf word).rb.toNat - 52 ∧ n ≠ 0 then (if v ≠ 0 then BitVec.allOnes 64 else 0) else t.preg n) := by
  refine State.issues_of_issue he fun _ _ => ⟨State.onlyStn_setStn _ _ _, ?_⟩
  simp only [State.apply, State.stn_setStn_same]
  refine (Stn.putS_setP_holds _ _ _ _).imp_right fun h => h.imp_right fun hp n => (hp n).trans ?_
  simp only [allBits, decide_eq_true_eq]
  rfl

/-! ### System registers (Table 8-13) -/

theorem siteI_siteKey (x : SiteId) : siteI (siteKey x) = x.i.val := by
  unfold siteI siteKey
  omega

theorem siteQ_siteKey (x : SiteId) : siteQ (siteKey x) = x.q.val := by
  unfold siteQ siteKey
  omega

/-- The system registers of a site's station, in the order of their numbers. -/
theorem State.sysreg_eq (s : State) (x : SiteId) (t : Stn) {n : Nat} (h : n < 8) :
    s.sysreg (siteKey x) t n = [x.i.val + x.q.val * 512, s.siteCtx (siteKey x), (s.now - t.loadAt) * 8 / 5, t.beats,
      if s.locked then s.netNow else s.now, t.entry, t.arg.toNat, t.rctr.toNat].getD n 0 := by
  interval_cases n <;> simp [State.sysreg, siteI_siteKey, siteQ_siteKey]

theorem sysregNumber_eq (i : Insn) : i.immBits 0 4 = i.imm.toNat % 16 := by
  simp [Insn.immBits, bits]

theorem sysr_issues (x : SiteId) (w : BitVec 54) (s : State) :
    let t := s.stn (siteKey x)
    let i := insnOf (mifelWord 7 9 w)
    s.issues (.sysr x w) x (mifelWord 7 9 w) { rd := some .s } (8 ≤ i.imm.toNat % 16) (fun u =>
      s.onlyStn u (siteKey x) ∧ t.wroteS (u.stn (siteKey x)) i.rd.toNat (BitVec.ofNat 64 ([x.i.val + x.q.val * 512, s.siteCtx (siteKey x),
        (s.now - t.loadAt) * 8 / 5, t.beats, if s.locked then s.netNow else s.now, t.entry, t.arg.toNat, t.rctr.toNat].getD (i.imm.toNat % 16) 0))) := by
  intro t i
  have he : exec (.sysr x w) s = .next (s.issue x (mifelWord 7 9 w) { rd := some .s } (8 ≤ i.imm.toNat % 16) (fun s k t i =>
      .stn (t.putS i (BitVec.ofNat 64 (s.sysreg k t (i.immBits 0 4)))))) := by
    rw [← sysregNumber_eq i]
    rfl
  refine State.issues_of_issue he fun _ hb => ⟨State.onlyStn_setStn _ _ _, ?_⟩
  have hn : i.imm.toNat % 16 < 8 := by simpa using hb
  rw [← s.sysreg_eq x t hn, ← sysregNumber_eq]
  simpa only [State.apply, State.stn_setStn_same] using Stn.wroteS_putS t i _

/-- Settles O18: the two conversions share one argument; a system register is the entry of its number in Table 8-13, whose CYCLE is the local time
since the load in cycles of 1.6 GHz (log 84). -/
theorem handleAndSystemReads : Obligations.HandleAndSystemReads :=
  fun x w s => ⟨State.issues_convert State.cvtHdl rfl, State.issues_convert State.cvtHva rfl, sysr_issues x w s⟩

end Sys2Proof.Machine
end

section
/-!
Requests that enter the pool from a port (R34, R35, R67, R68, R305, R343): what a packet's arrival, its policer and admission leave.
-/
namespace Sys2Proof.Machine
open Sys2Proof

/-! ### Packets that a command takes -/

/-- The state once the hub's delivery of a packet is taken. -/
def State.taken (s : State) (p : Nat) (k : Packet) : State := { s with hub := { s.hub with delivered := s.hub.delivered.erase (p, k) } }

theorem State.onArrival_otherType {s : State} {p typ : Nat} {k : Packet} (h : k.typN ≠ typ) (f : State → State) : s.onArrival p typ k f = s := if_neg h

theorem State.onArrival_delivered {s : State} {p typ : Nat} {k : Packet} (hd : (p, k) ∈ s.hub.delivered) (ht : k.typN = typ) (f : State → State) :
    s.onArrival p typ k f = f (s.taken p k) := by
  have hc : s.hub.delivered.contains (p, k) = true := List.contains_iff_mem.2 hd
  simp only [State.onArrival, State.arrive, State.takeDelivered, hc, if_pos ht, if_true]
  rfl

/-! ### Admission -/

/-- What admission may set of a request: its number, and what refuses it. -/
def Req.admittedAs (r r' : Req) : Prop := r' = { r with id := r'.id, refused := r'.refused, fixed := r'.fixed, pieces := r'.pieces }

/-- From `s` to `u` the request `r` has joined its channel last, as `r'`: refused BUSY while the channel refuses or where `shut` holds, which starts a
refusal; ACCESS_DENIED when its TAG is outstanding; else as it came (R67, R68). -/
structure State.placed (s : State) (r : Req) (shut : Prop) (u : State) (r' : Req) : Prop where
  ord : u.ord = { s.ord with reqs := s.ord.reqs ++ [r'], nextId := s.ord.nextId + 1, refusing := u.ord.refusing }
  rest : u = { s with regs := u.regs, ord := u.ord }
  id : r'.id = s.ord.nextId
  same : r.admittedAs r'
  busy : s.refusing r.chan = true ∨ shut → r'.refused = true ∧ r'.fixed = some .busy ∧ r'.pieces = []
  starts : s.refusing r.chan = false → shut → (r.chan, s.ord.nextId) ∈ u.ord.refusing
  keeps : s.refusing r.chan = false → ¬shut → r'.refused = r.refused ∧ u.ord.refusing = s.ord.refusing
  twice : s.refusing r.chan = false → ¬shut → (∃ x ∈ s.ord.reqs, x.chan = r.chan ∧ x.tag = r.tag) → r'.fixed = some .accessDenied ∧ r'.pieces = []
  enters : s.refusing r.chan = false → ¬shut → (¬∃ x ∈ s.ord.reqs, x.chan = r.chan ∧ x.tag = r.tag) → r'.fixed = r.fixed ∧ r'.pieces = r.pieces

/-- The channel or its ingress engine holds all the requests it may (R67). -/
def State.chanFull (s : State) (p : Nat) (c : Chan) : Bool := 256 ≤ s.chanCount c || 4096 ≤ s.portCount (.port p)

/-- A request that is refused, or fixed as ACCESS_DENIED: it has no pieces. -/
def Req.refusedBusy (r : Req) : Req := { r with refused := true, fixed := some .busy, pieces := [] }
def Req.denied (r : Req) : Req := { r with fixed := some .accessDenied, pieces := [] }

/-- Admission of a request of a port, case by case. -/
theorem State.admitReq_ofPort (s : State) {r : Req} {p : Nat} (hp : r.chan.eng = .port p) (drop : Bool) :
    s.admitReq r drop =
      if s.refusing r.chan then s.addReq r.refusedBusy
      else if s.chanFull p r.chan || drop then
        let t := (if s.chanFull p r.chan then s.count F.XLT_ORD_CNT_REFUSE 1 (Engine.port p).quarter else s).addReq r.refusedBusy
        t.setOrd { t.ord with refusing := t.ord.refusing ++ [(r.chan, s.ord.nextId)] }
      else if s.ord.reqs.any (fun x => x.chan == r.chan && x.tag == r.tag) then s.addReq r.denied
      else s.addReq r := by
  unfold State.admitReq State.chanFull
  simp only [hp, Bool.or_false]
  split_ifs <;> rfl

theorem State.admitReq_placed (s : State) {r : Req} {p : Nat} (hp : r.chan.eng = .port p) (drop : Bool) :
    ∃ r', s.placed r (s.chanFull p r.chan = true ∨ drop = true) (s.admitReq r drop) r' := by
  rw [s.admitReq_ofPort hp]
  split_ifs with hr ho hf ht
  · exact ⟨{ r.refusedBusy with id := s.ord.nextId }, by constructor <;> simp_all [State.addReq, State.setOrd, Req.admittedAs, Req.refusedBusy]⟩
  · exact ⟨{ r.refusedBusy with id := s.ord.nextId }, by
      constructor <;> simp_all [State.addReq, State.setOrd, Req.admittedAs, Req.refusedBusy, State.count, State.setFld, State.setReg]⟩
  · exact ⟨{ r.refusedBusy with id := s.ord.nextId }, by constructor <;> simp_all [State.addReq, State.setOrd, Req.admittedAs, Req.refusedBusy]⟩
  · exact ⟨{ r.denied with id := s.ord.nextId }, by constructor <;> simp_all [State.addReq, State.setOrd, Req.admittedAs, Req.denied]⟩
  · exact ⟨{ r with id := s.ord.nextId }, by constructor <;> simp_all [State.addReq, State.setOrd, Req.admittedAs]⟩

theorem State.refusing_congr {s b : State} (h : b.ord = s.ord) (c : Chan) : b.refusing c = s.refusing c := by
  unfold State.refusing
  rw [h]

theorem State.chanFull_congr {s b : State} (h : b.ord = s.ord) (p : Nat) (c : Chan) : b.chanFull p c = s.chanFull p c := by
  unfold State.chanFull State.chanCount State.portCount
  rw [h]

/-! ### The policer (R305) -/

/-- What metering and counting a request may change: the policer's tokens and registers. -/
def State.metered (s b : State) : Prop := b = { s with hub := { s.hub with pol := b.hub.pol }, regs := b.regs }

theorem State.metered.trans {s b u : State} (h : s.metered b) (g : b.metered u) : s.metered u := by
  unfold State.metered at *
  rw [g, h]

theorem State.metered.ord {s b : State} (h : s.metered b) : b.ord = s.ord := by rw [h]

theorem State.metered_setPol (s : State) (x : List (Nat × (Int × Nat))) : s.metered { s with hub := { s.hub with pol := x } } := rfl

theorem State.metered_count (s : State) (f : Fld) (n inst i : Nat) : s.metered (s.count f n inst i) := rfl

theorem State.police_metered (s : State) (c cost : Nat) : s.metered (s.police c cost).2 := by
  unfold State.police
  extract_lets act rate burst t u
  split_ifs
  · rfl
  · exact s.metered_setPol _
  · exact (s.metered_setPol _).trans (State.metered_count _ _ _ _ _)
  · exact (s.metered_setPol _).trans (State.metered_count _ _ _ _ _)

theorem State.denyPieces_metered (s : State) (q : Nat) (ps : List Piece) : s.metered (s.denyPieces q ps) := by
  unfold State.denyPieces
  split_ifs
  · exact s.metered_count _ _ _ _
  · rfl

/-- What the policer of a port's request decides; the device's own packets pass. -/
def State.meter (s : State) (p c : Nat) (k : Packet) : Police × State := if p < 14 then s.police c k.cost else (.pass, s)

theorem State.meter_metered (s : State) (p c : Nat) (k : Packet) : s.metered (s.meter p c k).2 := by
  unfold State.meter
  split_ifs
  · exact s.police_metered c _
  · rfl

theorem State.meter_fst (s : State) (p c : Nat) (k : Packet) : (s.meter p c k).1 = if p < 14 then (s.police c k.cost).1 else .pass :=
  apply_ite Prod.fst _ _ _

theorem State.meter_snd (s : State) (p c : Nat) (k : Packet) : (s.meter p c k).2 = if p < 14 then (s.police c k.cost).2 else s :=
  apply_ite Prod.snd _ _ _

/-! ### Intake -/

/-- A kind of request that is nothing without pieces. -/
def ReqKind.needsPieces (k : ReqKind) : Prop := k.isRead = true ∨ k.isWrite = true ∨ k.isCaching = true ∨ k = .hint

section Intake
variable {s : State} {p : Nat} {k : Packet} {kind : ReqKind} {mk : State → Nat → Option (List Piece)} {c : Nat}

theorem State.intake_unbound (h : s.ctxOf p k.srcN = none) : s.intake p k kind mk = (s.countDeny (arrQuarter p)).refuse p k .accessDenied := by
  simp only [State.intake, h]

theorem State.intake_sealed (h : s.ctxOf p k.srcN = some c) (hs : s.sealed_ p k = true) : s.intake p k kind mk = s.refuse p k .accessDenied := by
  simp only [State.intake, h, hs, if_true]

theorem State.intake_noPieces (h : s.ctxOf p k.srcN = some c) (hs : s.sealed_ p k = false) (hm : mk (s.meter p c k).2 c = none) :
    s.intake p k kind mk = (s.meter p c k).2.admitReq { portReq c p k kind [] ((s.meter p c k).1 == .mark) with fixed := some .accessDenied }
      ((s.meter p c k).1 == .drop) := by
  unfold State.meter at *
  simp only [State.intake, h, hs, Bool.false_eq_true, if_false, hm]

theorem State.intake_pieces (h : s.ctxOf p k.srcN = some c) (hs : s.sealed_ p k = false) {ps : List Piece} (hm : mk (s.meter p c k).2 c = some ps)
    (hne : kind.needsPieces → ps ≠ []) :
    s.intake p k kind mk = ((s.meter p c k).2.denyPieces (arrQuarter p) ps).admitReq (portReq c p k kind ps ((s.meter p c k).1 == .mark))
      ((s.meter p c k).1 == .drop) := by
  have hif : ¬(ps.isEmpty = true ∧ (kind.isRead = true ∨ kind.isWrite = true ∨ kind.isCaching = true ∨ kind = .hint)) :=
    fun hp => hne hp.2 (List.isEmpty_iff.1 hp.1)
  unfold State.meter at *
  simp only [State.intake, h, hs, Bool.false_eq_true, if_false, hm, if_neg hif]

/-- The request that intake hands to admission, and the state it does so in. -/
theorem State.intake_admits (h : s.ctxOf p k.srcN = some c) (hs : s.sealed_ p k = false)
    (hne : ∀ t ps, mk t c = some ps → kind.needsPieces → ps ≠ []) :
    ∃ b r, s.intake p k kind mk = b.admitReq r ((s.meter p c k).1 == .drop) ∧ s.metered b ∧
      r = { portReq c p k kind r.pieces ((s.meter p c k).1 == .mark) with fixed := r.fixed } ∧
      (mk (s.meter p c k).2 c = none → r.fixed = some .accessDenied ∧ r.pieces = []) ∧
      ∀ ps, mk (s.meter p c k).2 c = some ps → r.fixed = none ∧ r.pieces = ps := by
  cases hm : mk (s.meter p c k).2 c with
  | none => exact ⟨_, _, State.intake_noPieces h hs hm, s.meter_metered p c k, rfl, fun _ => ⟨rfl, rfl⟩, fun _ e => nomatch e⟩
  | some ps =>
    refine ⟨_, _, State.intake_pieces h hs hm (hne _ _ hm), (s.meter_metered p c k).trans (State.denyPieces_metered _ _ _), rfl, fun e => (nomatch e), ?_⟩
    rintro _ ⟨⟩
    exact ⟨rfl, rfl⟩

/-- How a delivered packet's request enters, as O47 has it, where its command answers `res` from the state `s` that has taken the packet. -/
def State.takesPlace (s : State) (p : Nat) (k : Packet) (kind : ReqKind) (mk : State → Nat → Option (List Piece)) (res : Res) : Prop :=
  (s.ctxOf p k.srcN = none → res = .next (((s.countDeny (arrQuarter p)).refuse p k .accessDenied).settle)) ∧
  (∀ c, s.ctxOf p k.srcN = some c → s.sealed_ p k = true → res = .next ((s.refuse p k .accessDenied).settle)) ∧
  (∀ c, s.ctxOf p k.srcN = some c → s.sealed_ p k = false →
    let v : Police := if p < 14 then (s.police c k.cost).1 else .pass
    let s2 : State := if p < 14 then (s.police c k.cost).2 else s
    let ch : Chan := ⟨c, .port p, k.chN⟩
    let full : Prop := 256 ≤ s.chanCount ch ∨ 4096 ≤ s.portCount (.port p)
    let twice : Prop := ∃ x ∈ s.ord.reqs, x.chan = ch ∧ x.tag = k.tagN
    ∃ (u : State) (r : Req), res = .next u.settle ∧
      u.ord = { s.ord with reqs := s.ord.reqs ++ [r], nextId := s.ord.nextId + 1, refusing := u.ord.refusing } ∧
      u = { s with hub := { s.hub with pol := u.hub.pol }, regs := u.regs, ord := u.ord } ∧
      r.id = s.ord.nextId ∧ r.chan = ch ∧ r.tag = k.tagN ∧ r.kind = kind ∧ r.len = k.lenN ∧ r.vh = k.w4.toNat ∧ r.dest = .port p k ∧
      r.marked = (v == .mark) ∧
      (s.refusing ch = true ∨ full ∨ v = .drop → r.refused = true ∧ r.fixed = some .busy ∧ r.pieces = []) ∧
      (s.refusing ch = false → full ∨ v = .drop → (ch, s.ord.nextId) ∈ u.ord.refusing) ∧
      (s.refusing ch = false → ¬full → v ≠ .drop → r.refused = false ∧ u.ord.refusing = s.ord.refusing ∧
        (twice ∨ mk s2 c = none → r.fixed = some .accessDenied ∧ r.pieces = []) ∧
        (∀ ps, ¬twice → mk s2 c = some ps → r.fixed = none ∧ r.pieces = ps)))

theorem State.intake_takesPlace (s : State) (p : Nat) (k : Packet) {kind : ReqKind} {mk : State → Nat → Option (List Piece)}
    (hne : ∀ t c ps, mk t c = some ps → kind.needsPieces → ps ≠ []) : s.takesPlace p k kind mk (.next (s.intake p k kind mk).settle) := by
  refine ⟨fun h => by rw [State.intake_unbound h], fun c h hs => by rw [State.intake_sealed h hs], fun c h hs => ?_⟩
  obtain ⟨b, r, hu, hb, hr, hnone, hsome⟩ := State.intake_admits h hs (hne · c)
  have hchan : r.chan = ⟨c, .port p, k.chN⟩ := by rw [hr]; rfl
  have htag : r.tag = k.tagN := by rw [hr]; rfl
  obtain ⟨r', hj⟩ := b.admitReq_placed (show r.chan.eng = .port p by rw [hchan]) ((s.meter p c k).1 == .drop)
  have hshut : (b.chanFull p r.chan = true ∨ ((s.meter p c k).1 == Police.drop) = true) =
      ((256 ≤ s.chanCount ⟨c, .port p, k.chN⟩ ∨ 4096 ≤ s.portCount (.port p)) ∨ (s.meter p c k).1 = .drop) := by
    rw [State.chanFull_congr hb.ord, hchan]
    simp [State.chanFull]
  rw [← hu, hshut] at hj
  generalize hU : s.intake p k kind mk = u at hj
  obtain ⟨hord, hrest, hid, hsame, hbusy, hstarts, hkeeps, htwice, henters⟩ := hj
  rw [hb.ord] at hord hid hstarts hkeeps htwice henters
  rw [State.refusing_congr hb.ord, hchan] at hbusy hstarts hkeeps htwice henters
  rw [htag] at htwice henters
  rw [← s.meter_fst, ← s.meter_snd]
  intro v s2 ch full twice
  refine ⟨u, r', rfl, hord, ?_, hid, ?_⟩
  · rw [hrest, hb]
  refine ⟨(congrArg Req.chan hsame).trans hchan, (congrArg Req.tag hsame).trans htag, (congrArg Req.kind hsame).trans (congrArg Req.kind hr),
    (congrArg Req.len hsame).trans (congrArg Req.len hr), (congrArg Req.vh hsame).trans (congrArg Req.vh hr),
    (congrArg Req.dest hsame).trans (congrArg Req.dest hr), (congrArg Req.marked hsame).trans (congrArg Req.marked hr), hbusy, hstarts,
    fun h0 hf hd => ?_⟩
  have hn : ¬(full ∨ v = .drop) := by rintro (e | e) <;> contradiction
  refine ⟨(hkeeps h0 hn).1.trans (congrArg Req.refused hr), (hkeeps h0 hn).2, ?_, fun ps ht hm => ?_⟩
  · rintro ht
    by_cases h2 : twice
    · exact htwice h0 hn h2
    · obtain ⟨e1, e2⟩ := henters h0 hn h2
      obtain ⟨f1, f2⟩ := hnone (ht.resolve_left h2)
      exact ⟨e1.trans f1, e2.trans f2⟩
  · obtain ⟨e1, e2⟩ := henters h0 hn ht
    obtain ⟨f1, f2⟩ := hsome ps hm
    exact ⟨e1.trans f1, e2.trans f2⟩

end Intake

end Sys2Proof.Machine
end

section
/-!
Completions and aborts of pool requests (R39, R73, R75, R76, R282), and the statement on pool requests.
-/
namespace Sys2Proof.Machine
open Sys2Proof

/-! ### Requests with pieces -/

theorem splitPages_ne_nil {n len : Nat} (h : len ≠ 0) (off addr : Nat) : splitPages (n + 1) off addr len ≠ [] := by
  simp [splitPages, h]

theorem pageSplit_ne_nil {len : Nat} (h : lenOk len = true) (addr : Nat) : splitPages (pageCount len) 0 addr len ≠ [] := by
  simp only [lenOk, Bool.and_eq_true, decide_eq_true_eq] at h
  exact splitPages_ne_nil (by omega) 0 addr

theorem plainOf_ne_nil {k : Packet} {s : State} {c : Nat} {ps : List Piece} (h : plainOf k s c = some ps) : ps ≠ [] := by
  unfold plainOf at h
  split_ifs at h with hl
  rw [← Option.some.inj h]
  simpa [State.plainPieces] using pageSplit_ne_nil hl _

theorem versionOf_ne_nil {k : Packet} {s : State} {c : Nat} {ps : List Piece} (h : versionOf k s c = some ps) : ps ≠ [] := by
  unfold versionOf at h
  split_ifs at h with hl
  rw [← Option.some.inj h]
  simpa [versionPieces] using pageSplit_ne_nil hl _

section Delivered
variable {p : Arr} {k : Packet} {s : State}

/-! ### Requests of a port -/

/-- A packet of one type that the hub delivered enters by `State.intake`. -/
theorem State.onArrival_takesPlace (hd : (p.val, k) ∈ s.hub.delivered) {typ : Nat} (ht : k.typN = typ) (kind : ReqKind)
    {mk : State → Nat → Option (List Piece)} (hne : ∀ t c ps, mk t c = some ps → kind.needsPieces → ps ≠ []) {f : State → State}
    (hf : f (s.taken p k) = ((s.taken p k).intake p k kind mk).settle) :
    (s.taken p k).takesPlace p k kind mk (.next (s.onArrival p typ k f)) := by
  rw [State.onArrival_delivered hd ht, hf]
  exact State.intake_takesPlace _ _ _ hne

theorem State.writeIntake_first (h : k.offN = 0) (q : Nat) (kind : ReqKind) (mk : State → Nat → Option (List Piece)) :
    s.writeIntake q k kind mk = s.intake q k kind mk := if_pos h

theorem State.writeIntake_more (h : k.offN ≠ 0) (q : Nat) (kind : ReqKind) (mk : State → Nat → Option (List Piece)) :
    s.writeIntake q k kind mk = s.moreData q k := if_neg h

/-- A versioned operation of the command's SUBOP enters without pieces; one of another SUBOP is taken and does nothing. -/
theorem State.vop_holds (hd : (p.val, k) ∈ s.hub.delivered) (ht : k.typN = 3) (sub : Nat) {kind : ReqKind} (hk : ¬kind.needsPieces) :
    (k.subop = sub → (s.taken p k).takesPlace p k kind (fun _ _ => some []) (.next (s.vop p k sub kind))) ∧
    (k.subop ≠ sub → (.next (s.vop p k sub kind) : Res) = .next (s.taken p k)) :=
  ⟨fun h => State.onArrival_takesPlace hd ht kind (fun _ _ _ _ hn => absurd hn hk) (if_pos h),
    fun h => congrArg _ ((State.onArrival_delivered hd ht _).trans (if_neg h))⟩

end Delivered

/-! ### Pieces of a request -/

theorem Req.updPiece_pieces (r : Req) (n : Nat) (f : Piece → Piece) : r.updPiece n f = { r with pieces := (r.updPiece n f).pieces } := by
  unfold Req.updPiece
  split <;> rfl

theorem Req.updPiece_some {r : Req} {n : Nat} {x : Piece} (h : r.pieces[n]? = some x) (f : Piece → Piece) :
    (r.updPiece n f).pieces = setAt r.pieces n (f x) := by
  unfold Req.updPiece
  rw [h]

theorem Req.updPiece_of_fixed {f : Piece → Piece} (hf : ∀ x, f x = x) (r : Req) (n : Nat) : r.updPiece n f = r := by
  unfold Req.updPiece
  split
  · next x h =>
    obtain ⟨hn, he⟩ := List.getElem?_eq_some_iff.1 h
    rw [hf x, ← he]
    simp only [setAt, List.set_getElem_self]
  · rfl

theorem pieceSectors_nil (base off len : Nat) : pieceSectors base off [] len = [] := rfl

/-! ### Data of a forwarded read -/

/-- A piece of a read with the sectors that the mask of an RDATA packet names failed. -/
def Piece.maskedBy (base o len mask : Nat) (y : Piece) : Piece :=
  { y with failed := (pieceSectors base o ((List.range 32).filter mask.testBit) len).foldl (fun a i => insertSorted i a) y.failed }

/-- Request `r` whose piece `n`, `x` when the packet arrived, receives the data of an RDATA packet. -/
def Req.receives (base : Nat) (x : Piece) (n : Nat) (k : Packet) (r : Req) : Req :=
  ({ r with data := r.data.take (x.off + k.offN) ++ k.payload.take (min k.payload.length (x.len - k.offN)) ++
      r.data.drop (x.off + k.offN + min k.payload.length (x.len - k.offN)) } : Req).updPiece n
    (Piece.maskedBy base (x.off + k.offN) (min k.payload.length (x.len - k.offN)) (bits k.w3.toNat 32 32))

theorem Piece.maskedBy_zero (base o len : Nat) (y : Piece) : y.maskedBy base o len 0 = y := by
  have hf : (List.range 32).filter (Nat.testBit 0) = [] := by simp
  unfold Piece.maskedBy
  rw [hf, pieceSectors_nil]
  rfl

theorem Req.receives_unmasked (base : Nat) (x : Piece) (n : Nat) {k : Packet} (h : bits k.w3.toNat 32 32 = 0) (y : Req) :
    (y.receives base x n k).pieces = y.pieces := by
  unfold Req.receives
  rw [h, Req.updPiece_of_fixed (Piece.maskedBy_zero _ _ _)]

section Delivered
variable {p : Arr} {k : Packet} {s : State}

theorem execRdata_unknown (hd : (p.val, k) ∈ s.hub.delivered) (ht : k.typN = 0x10) (h : (s.taken p k).remotePiece p k.tagN k.chN = none) :
    exec (.rdata p k) s = .next (s.taken p k) := by
  refine congrArg Host.Outcome.next ((State.onArrival_delivered hd ht _).trans ?_)
  simp only [h]

theorem execRdata_known (hd : (p.val, k) ∈ s.hub.delivered) (ht : k.typN = 0x10) {r : Req} {n : Nat} {x : Piece}
    (h : (s.taken p k).remotePiece p k.tagN k.chN = some (r, n, x)) :
    exec (.rdata p k) s = .next ((s.taken p k).updReq r.id (Req.receives r.base x n k)) := by
  refine congrArg Host.Outcome.next ((State.onArrival_delivered hd ht _).trans ?_)
  simp only [h]
  rfl

theorem rdata_holds (hd : (p.val, k) ∈ s.hub.delivered) (ht : k.typN = 0x10) :
    let s1 := s.taken p k
    (s1.remotePiece p.val k.tagN k.chN = none → exec (.rdata p k) s = .next s1) ∧
    (∀ r n x, s1.remotePiece p.val k.tagN k.chN = some (r, n, x) →
      let o := x.off + k.offN
      let len := min k.payload.length (x.len - k.offN)
      ∃ (t : State) (g : Req → List Piece), exec (.rdata p k) s = .next t ∧ t = { s1 with ord := { s1.ord with reqs := t.ord.reqs } } ∧
        t.ord.reqs = s1.ord.reqs.map (fun y => if y.id = r.id then
          { y with data := y.data.take o ++ k.payload.take len ++ y.data.drop (o + len), pieces := g y } else y) ∧
        ∀ y, bits k.w3.toNat 32 32 = 0 → g y = y.pieces) := by
  refine ⟨execRdata_unknown hd ht, fun r n x h => ?_⟩
  refine ⟨_, fun y => (y.receives r.base x n k).pieces, execRdata_known hd ht h, rfl, ?_, fun y h0 => Req.receives_unmasked _ _ _ h0 y⟩
  refine List.map_congr_left fun y _ => ?_
  split_ifs
  · exact Req.updPiece_pieces _ _ _
  · rfl

/-! ### Completions of forwarded pieces -/

end Delivered

/-- The failed sectors, of those of the piece `x`, that the outcome block of a completion names (R73, Table 3-2). -/
def failedIn (x : Piece) (payload : List (BitVec 8)) : List Nat :=
  let w0 := wordAt payload 0
  let st := statusOf (bits w0 20 4)
  let all := List.range ((x.len + 63) / 64)
  if st = .ok then [] else if w0.testBit 28 then all.filter (wordAt payload 8).testBit
  else if st = .partialFail then (if x.failed.isEmpty then all.filter (bits w0 32 32 ≤ ·) else []) else all

/-- A forwarded piece, `x` when the packet arrived, that its home device's completion serves. -/
def Piece.servedBy (base : Nat) (x : Piece) (payload : List (BitVec 8)) (y : Piece) : Piece :=
  let st := statusOf (bits (wordAt payload 0) 20 4)
  { y with
    state := .served
    status := worseOf y.status (if st = .partialFail then statusOf (bits (wordAt payload 0) 24 4) else st)
    failed := (pieceSectors base x.off (failedIn x payload) x.len).foldl (fun a i => insertSorted i a) y.failed }

/-- The flows once the completion of a request the device forwarded has arrived. -/
def State.flowEnded (s : State) (k : Packet) : State :=
  { s with hub := { s.hub with flows := s.hub.flows.filter (fun f => !(f.onChan 15 k.dstN k.chN && f.pkt.tag == k.tag)) } }

theorem Piece.servedBy_ok (base : Nat) (x : Piece) {payload : List (BitVec 8)} (h : statusOf (bits (wordAt payload 0) 20 4) = .ok) (y : Piece) :
    (Piece.servedBy base x payload y).failed = y.failed := by
  have hf : failedIn x payload = [] := if_pos h
  unfold Piece.servedBy
  rw [hf, pieceSectors_nil]
  rfl

theorem State.mem_flowEnded (s : State) (k : Packet) (f : Flow) :
    f ∈ (s.flowEnded k).hub.flows ↔ f ∈ s.hub.flows ∧ ¬(f.onChan 15 k.dstN k.chN = true ∧ f.pkt.tag = k.tag) := by
  simp only [State.flowEnded, List.mem_filter, Bool.not_eq_true', ← Bool.not_eq_true, Bool.and_eq_true, beq_iff_eq]

section Delivered
variable {p : Arr} {k : Packet} {s : State}

theorem execCmplPacket_unknown (hd : (p.val, k) ∈ s.hub.delivered) (ht : k.typN = 0x11) (h : (s.taken p k).remotePiece p k.tagN k.chN = none) :
    exec (.cmplPacket p k) s = .next ((s.taken p k).chainAnswer k) := by
  refine congrArg Host.Outcome.next ((State.onArrival_delivered hd ht _).trans ?_)
  simp only [h]

theorem execCmplPacket_known (hd : (p.val, k) ∈ s.hub.delivered) (ht : k.typN = 0x11) {r : Req} {n : Nat} {x : Piece}
    (h : (s.taken p k).remotePiece p k.tagN k.chN = some (r, n, x)) :
    exec (.cmplPacket p k) s = .next ((((s.taken p k).flowEnded k).updPiece r.id n (Piece.servedBy r.base x k.payload)).settle) := by
  refine congrArg Host.Outcome.next ((State.onArrival_delivered hd ht _).trans ?_)
  simp only [h]
  rfl

theorem cmplPacket_holds (hd : (p.val, k) ∈ s.hub.delivered) (ht : k.typN = 0x11) :
    let s1 := s.taken p k
    (s1.remotePiece p.val k.tagN k.chN = none → exec (.cmplPacket p k) s = .next (s1.chainAnswer k)) ∧
    (∀ r n x, s1.remotePiece p.val k.tagN k.chN = some (r, n, x) →
      let st := statusOf (bits (wordAt k.payload 0) 20 4)
      ∃ (u : State) (g : Req → List Piece), exec (.cmplPacket p k) s = .next u.settle ∧
        u = { s1 with hub := { s1.hub with flows := u.hub.flows }, ord := { s1.ord with reqs := u.ord.reqs } } ∧
        (∀ f, f ∈ u.hub.flows ↔ f ∈ s1.hub.flows ∧ ¬(f.onChan 15 k.dstN k.chN = true ∧ f.pkt.tag = k.tag)) ∧
        u.ord.reqs = s1.ord.reqs.map (fun y => if y.id = r.id then { y with pieces := g y } else y) ∧
        ∀ y z, y.pieces[n]? = some z → ∃ f, g y = setAt y.pieces n { z with
          state := .served, failed := f
          status := worseOf z.status (if st = .partialFail then statusOf (bits (wordAt k.payload 0) 24 4) else st) } ∧
          (st = .ok → f = z.failed)) := by
  refine ⟨execCmplPacket_unknown hd ht, fun r n x h => ?_⟩
  refine ⟨_, fun y => (y.updPiece n (Piece.servedBy r.base x k.payload)).pieces, execCmplPacket_known hd ht h, rfl,
    (s.taken p k).mem_flowEnded k, ?_, fun y z hz => ⟨_, Req.updPiece_some hz _, fun h0 => Piece.servedBy_ok _ _ h0 z⟩⟩
  refine List.map_congr_left fun y _ => ?_
  split_ifs
  · exact Req.updPiece_pieces _ _ _
  · rfl

/-! ### Aborts -/

theorem abort_holds (hd : (p.val, k) ∈ s.hub.delivered) (ht : k.typN = 6) :
    let s1 := s.taken p k
    (s1.ctxOf p.val k.srcN = none → exec (.abort p k) s = .next ((s1.countDeny (arrQuarter p.val)).refuse p.val k .accessDenied)) ∧
    ∀ c, s1.ctxOf p.val k.srcN = some c → exec (.abort p k) s =
      .next (s1.decideLate (.abort ⟨c, .port p.val, bits k.w4.toNat 16 3⟩ (bits k.w4.toNat 0 16) (.port p.val k c))) := by
  constructor
  · intro h
    refine congrArg Host.Outcome.next ((State.onArrival_delivered hd ht _).trans ?_)
    simp only [h]
  · intro c h
    refine congrArg Host.Outcome.next ((State.onArrival_delivered hd ht _).trans ?_)
    simp only [h]

end Delivered

/-! ### What ends requests where they wait -/

/-- Requests, registers and translation apart, `t` is `s`. -/
def State.onReqs (s t : State) : Prop := t = { s with ord := { s.ord with reqs := t.ord.reqs }, regs := t.regs, xlt := t.xlt }

theorem State.onReqs.trans {s t u : State} (h : s.onReqs t) (g : t.onReqs u) : s.onReqs u := by
  unfold State.onReqs at *
  rw [g, h]

theorem State.onReqs_setReg (s : State) (r : RegName) (v inst i j : Nat) : s.onReqs (s.setReg r v inst i j) := rfl

theorem State.onReqs_updReq (s : State) (id : Nat) (f : Req → Req) : s.onReqs (s.updReq id f) := rfl

theorem State.onReqs_unjoin (s : State) (r : Req) : s.onReqs (s.unjoin r) := rfl

theorem State.onReqs_dropWaiters (s : State) : s.onReqs s.dropWaiters := rfl

@[simp] theorem State.dropWaiters_regs (s : State) : s.dropWaiters.regs = s.regs := rfl

@[simp] theorem State.dropWaiters_ord (s : State) : s.dropWaiters.ord = s.ord := rfl

/-! ### Registers of a state with the same registers -/

theorem State.fld_congr {s t : State} (h : t.regs = s.regs) (f : Fld) (inst i j : Nat) : t.fld f inst i j = s.fld f inst i j := by
  unfold State.fld State.regVal
  rw [h]

theorem State.count_congr {s t : State} (h : t.regs = s.regs) (f : Fld) (n inst i j : Nat) : (t.count f n inst i j).regs = (s.count f n inst i j).regs := by
  unfold State.count State.setFld State.setReg State.fld State.regVal
  rw [h]

/-! ### Aborts at the end of the cycle -/

/-- The request an abort ends (R75). -/
def Req.aborted (r : Req) : Req := { r with fixed := some .busy, abt := true, pieces := [] }

/-- The state once an abort has stopped request `r`. -/
def State.abortWon (s : State) (r : Req) : State :=
  (((s.unjoin r).updReq r.id Req.aborted).count F.XLT_ORD_CNT_ABORT_WON 1 r.chan.eng.quarter).dropWaiters

section Abort
variable {s : State} {ch : Chan} {tag : Nat}

/-- A request an abort of this cycle can stop (Table 3-5). -/
def State.stops (s : State) (r : Req) : Bool := r.abortable && !r.pieces.any (fun y => y.retried == some s.now)

/-- The request an abort names. -/
def State.abortTarget (s : State) (ch : Chan) (tag : Nat) : Option Req := s.ord.reqs.find? (fun r => r.chan == ch && r.tag == tag && !r.refused)

theorem State.abort_lost (h : ∀ r, s.abortTarget ch tag = some r → s.stops r = false) : s.abort ch tag = (false, s) := by
  unfold State.abort
  split
  · next r hr =>
    have := h r hr
    unfold State.stops at this
    rw [this]
    rfl
  · rfl

theorem State.abort_won {r : Req} (h : s.abortTarget ch tag = some r) (hs : s.stops r = true) : s.abort ch tag = (true, s.abortWon r) := by
  unfold State.abort
  unfold State.abortTarget at h
  unfold State.stops at hs
  rw [h]
  simp only [hs, if_true]
  rfl

/-- `XLT_ORD_CNT` of no quarter stands where `HUB_RT_STAT` does. -/
theorem hubRtStat_ne_ordCnt (q : Nat) : RegName.HUB_RT_STAT.addr 0 0 0 ≠ RegName.XLT_ORD_CNT.addr q 0 0 := by
  simp only [RegName.addr, RegName.home, RegName.spec, Block.origin, Bool.false_eq_true, if_false]
  omega

theorem State.abortWon_regs (s : State) (r : Req) : (s.abortWon r).regs = (s.count F.XLT_ORD_CNT_ABORT_WON 1 r.chan.eng.quarter).regs :=
  (State.dropWaiters_regs _).trans (State.count_congr (t := (s.unjoin r).updReq r.id Req.aborted) rfl _ _ _ _ _)

theorem State.abortWon_epoch (s : State) (r : Req) : (s.abortWon r).epoch = s.epoch := by
  have h : (s.abortWon r).fld F.HUB_RT_STAT_EPOCH = s.fld F.HUB_RT_STAT_EPOCH :=
    (State.fld_congr (s.abortWon_regs r) _ _ _ _).trans
      (s.fld_setFld_other (f := F.XLT_ORD_CNT_ABORT_WON) (g := F.HUB_RT_STAT_EPOCH) _ (hubRtStat_ne_ordCnt _))
  unfold State.epoch State.flag
  rw [h]

theorem State.abortWon_count (s : State) (r : Req) :
    (s.abortWon r).fld F.XLT_ORD_CNT_ABORT_WON r.chan.eng.quarter =
      min (s.fld F.XLT_ORD_CNT_ABORT_WON r.chan.eng.quarter + 1) (2 ^ F.XLT_ORD_CNT_ABORT_WON.width - 1) := by
  rw [State.fld_congr (s.abortWon_regs r), State.fld_count_same _ _ _ _ _ _ (by decide)]

theorem State.abortWon_reqs (s : State) (r : Req) : (s.abortWon r).ord.reqs = s.ord.reqs.map (fun y => if y.id = r.id then y.aborted else y) :=
  congrArg Ord.reqs (State.dropWaiters_ord _)

theorem State.onReqs_abortWon (s : State) (r : Req) : s.onReqs (s.abortWon r) :=
  (((s.onReqs_unjoin r).trans (State.onReqs_updReq _ _ _)).trans (State.onReqs_setReg _ _ _ _ _ _)).trans (State.onReqs_dropWaiters _)

theorem lateAbort_holds (s : State) (ch : Chan) (tag p c : Nat) (k : Packet) :
    let target := s.abortTarget ch tag
    let reply (st : Status) : Packet := { (⟨k.tagN, k.chN, false, st, .ok, false, 0, 0⟩ : Outcome16).packet k with epoch := s.epoch }
    ((∀ r, target = some r → s.stops r = false) →
      s.lateNow (.abort ch tag (.port p k c)) = s.sendReply p (some c) false (reply .alreadyComplete)) ∧
    ∀ r, target = some r → s.stops r = true →
      ∃ u : State, s.lateNow (.abort ch tag (.port p k c)) = u.sendReply p (some c) false (reply .ok) ∧
        u.ord.reqs = s.ord.reqs.map (fun y => if y.id = r.id then { y with fixed := some .busy, abt := true, pieces := [] } else y) ∧
        u.fld F.XLT_ORD_CNT_ABORT_WON r.chan.eng.quarter =
          min (s.fld F.XLT_ORD_CNT_ABORT_WON r.chan.eng.quarter + 1) (2 ^ F.XLT_ORD_CNT_ABORT_WON.width - 1) ∧
        u = { s with ord := { s.ord with reqs := u.ord.reqs }, regs := u.regs, xlt := u.xlt } := by
  refine ⟨fun h => ?_, fun r hr hs => ⟨s.abortWon r, ?_, s.abortWon_reqs r, s.abortWon_count r, s.onReqs_abortWon r⟩⟩
  · simp only [State.lateNow, State.abort_lost h, State.abortAnswer]
    rfl
  · simp only [State.lateNow, State.abort_won hr hs, State.abortAnswer, State.abortWon_epoch]
    rfl

end Abort

/-! ### Pieces that are served, channels and outcomes -/

theorem poolPieceComplete_holds (id n : Nat) (s : State) :
    ((∀ x, s.piece id n = some x → x.state ≠ .served) → exec (.poolPieceComplete id n) s = .next s) ∧
    (∀ x, s.piece id n = some x → x.state = .served →
      exec (.poolPieceComplete id n) s = .next ((s.updPiece id n (fun y => { y with state := .done })).settle)) := by
  show (_ → execPoolPieceComplete id n s = _) ∧ ∀ x, _ → _ → execPoolPieceComplete id n s = _
  unfold execPoolPieceComplete
  cases hp : s.piece id n with
  | none => exact ⟨fun _ => rfl, fun _ h => nomatch h⟩
  | some x =>
    refine ⟨fun h => ?_, fun y hy hs => ?_⟩
    · simp only [if_neg (h x rfl)]
    · rw [← Option.some.inj hy] at hs
      simp only [if_pos hs]

/-- A channel completes nothing past its first request that is not complete. -/
theorem State.drainChan_stops {s : State} {c : Chan} {r : Req} (h : s.ord.reqs.find? (fun x => x.chan == c) = some r) (hr : r.complete = false)
    (n : Nat) : s.drainChan n c = s := by
  cases n with
  | zero => rfl
  | succ n => simp only [State.drainChan, h, hr, Bool.false_eq_true, if_false]

theorem outcomeOf_status (tag ch len : Nat) (failed : List Nat) (worst : Status) :
    (outcomeOf tag ch len failed worst).status =
      (if failed = [] then .ok else if failed.length < (len + 63) / 64 then .partialFail else worst) := by
  simp only [outcomeOf, List.isEmpty_iff]
  split_ifs <;> rfl

/-! ### The statement -/

/-- Commands do nothing with a packet of another type. -/
theorem poolCommands_otherType (p : Arr) (k : Packet) (s : State) :
    (k.typN ≠ 1 → exec (.rd p k) s = .next s) ∧ (k.typN ≠ 2 → exec (.wr p k) s = .next s) ∧ (k.typN ≠ 4 → exec (.vrd p k) s = .next s) ∧
    (k.typN ≠ 5 → exec (.vwr p k) s = .next s) ∧ (k.typN ≠ 7 → exec (.hint p k) s = .next s) ∧ (k.typN ≠ 6 → exec (.abort p k) s = .next s) ∧
    (k.typN ≠ 0x10 → exec (.rdata p k) s = .next s) ∧ (k.typN ≠ 0x11 → exec (.cmplPacket p k) s = .next s) ∧
    (k.typN ≠ 3 → exec (.vopOpen p k) s = .next s ∧ exec (.vopClose p k) s = .next s ∧ exec (.vopBegin p k) s = .next s ∧
      exec (.vopPublish p k) s = .next s ∧ exec (.vopDiscard p k) s = .next s) := by
  have other {typ : Nat} (h : k.typN ≠ typ) (f : State → State) : (.next (s.onArrival p typ k f) : Res) = .next s :=
    congrArg _ (State.onArrival_otherType h f)
  exact ⟨(other · _), (other · _), (other · _), (other · _), (other · _), (other · _), (other · _), (other · _),
    fun h => ⟨other h _, other h _, other h _, other h _, other h _⟩⟩

/-- Settles O47: a delivered packet is taken, metered and admitted, each described once; replies and aborts act on one request. A request refused for its
own fault keeps its place (log 24), and so does one of a LEN not allowed (log 26); an abort is decided at the end of its cycle (log 144). -/
theorem poolRequestsEnterCompleteAndAbort : Obligations.PoolRequestsEnterCompleteAndAbort := by
  refine ⟨poolCommands_otherType, fun p k s hd => ?_, lateAbort_holds, fun id n s => poolPieceComplete_holds id n s,
    fun s n c r h hr => State.drainChan_stops h hr n, outcomeOf_status⟩
  have plain {kind : ReqKind} : ∀ t c ps, plainOf k t c = some ps → kind.needsPieces → ps ≠ [] := fun _ _ _ h _ => plainOf_ne_nil h
  have versioned {kind : ReqKind} : ∀ t c ps, versionOf k t c = some ps → kind.needsPieces → ps ≠ [] := fun _ _ _ h _ => versionOf_ne_nil h
  have more {typ : Nat} (ht : k.typN = typ) (h : k.offN ≠ 0) (kind : ReqKind) (mk : State → Nat → Option (List Piece)) :
      (.next (s.onArrival p typ k (fun s => (s.writeIntake p k kind mk).settle)) : Res) = .next (((s.taken p k).moreData p k).settle) :=
    congrArg _ ((State.onArrival_delivered hd ht _).trans (congrArg State.settle (State.writeIntake_more h _ _ _)))
  refine ⟨fun ht => State.onArrival_takesPlace hd ht .read plain rfl,
    fun ht => ⟨fun h => State.onArrival_takesPlace hd ht .write plain (congrArg State.settle (State.writeIntake_first h _ _ _)), fun h => more ht h _ _⟩,
    fun ht => State.onArrival_takesPlace hd ht .vread versioned rfl,
    fun ht => ⟨fun h => State.onArrival_takesPlace hd ht .vwrite versioned (congrArg State.settle (State.writeIntake_first h _ _ _)), fun h => more ht h _ _⟩,
    fun ht => State.onArrival_takesPlace hd ht .hint plain rfl, fun ht => ?_, rdata_holds hd, cmplPacket_holds hd, abort_holds hd⟩
  have vop (sub : Nat) {kind : ReqKind} (hk : ¬kind.needsPieces) := State.vop_holds hd ht sub hk
  have hopen := vop 0 (kind := .vopen) (by simp [ReqKind.needsPieces, ReqKind.isRead, ReqKind.isWrite, ReqKind.isCaching])
  have hclose := vop 1 (kind := .vclose) (by simp [ReqKind.needsPieces, ReqKind.isRead, ReqKind.isWrite, ReqKind.isCaching])
  have hbegin := vop 2 (kind := .vbegin) (by simp [ReqKind.needsPieces, ReqKind.isRead, ReqKind.isWrite, ReqKind.isCaching])
  have hpublish := vop 3 (kind := .vpublish) (by simp [ReqKind.needsPieces, ReqKind.isRead, ReqKind.isWrite, ReqKind.isCaching])
  have hdiscard := vop 4 (kind := .vdiscard) (by simp [ReqKind.needsPieces, ReqKind.isRead, ReqKind.isWrite, ReqKind.isCaching])
  exact ⟨hopen.1, hopen.2, hclose.1, hclose.2, hbegin.1, hbegin.2, hpublish.1, hpublish.2, hdiscard.1, hdiscard.2⟩

end Sys2Proof.Machine
end

section
/-!
The directory leaves translation alone: its recalls, invalidations and grants, and the transactions they conclude, keep the contexts, segments and
buffers of R36 to R50.
-/
namespace Sys2Proof.Machine
open Sys2Proof

/-! ### What keeps translation -/

/-- The offsets below the coherence window of quarter 0: among them the device registers of translation (Table 16-6). -/
def xltAt (a : Nat) : Prop := a < 0x1200000

theorem RegName.le_addr (r : RegName) (inst i j : Nat) : r.spec.block.origin.1 + r.spec.base ≤ r.addr inst i j := by
  unfold RegName.addr
  omega

theorem not_xltAt {r : RegName} (h : 0x1200000 ≤ r.spec.block.origin.1 + r.spec.base) (inst i j : Nat) : ¬xltAt (r.addr inst i j) :=
  Nat.not_lt.2 (Nat.le_trans h (r.le_addr inst i j))

/-- From `s` to `t` translation's tables and the registers below the coherence window are left alone. -/
structure State.keepsXlt (s t : State) : Prop where
  xlt : t.xlt = s.xlt
  regs : s.keepsAt xltAt t

section KeepsXlt
variable {s t u : State}

theorem State.keepsXlt.refl (s : State) : s.keepsXlt s := ⟨rfl, .refl s _⟩

theorem State.keepsXlt.trans (h : s.keepsXlt t) (g : t.keepsXlt u) : s.keepsXlt u := ⟨g.xlt.trans h.xlt, h.regs.trans g.regs⟩

theorem State.keepsXlt_of_eq (hx : t.xlt = s.xlt) (hr : t.regs = s.regs) : s.keepsXlt t := ⟨hx, State.keepsAt_of_regs _ hr⟩

theorem State.keepsXlt_foldl {α : Type} {f : State → α → State} (hf : ∀ (t : State) (a : α), t.keepsXlt (f t a)) (l : List α) (s : State) :
    s.keepsXlt (l.foldl f s) :=
  List.foldlRecOn l f (.refl s) fun t ht a _ => ht.trans (hf t a)

theorem State.keepsXlt_setFld (s : State) {f : Fld} (h : 0x1200000 ≤ f.reg.spec.block.origin.1 + f.reg.spec.base) (v inst i j : Nat) :
    s.keepsXlt (s.setFld f v inst i j) := ⟨rfl, s.keepsAt_setFld v (not_xltAt h inst i j)⟩

theorem State.keepsXlt_count (s : State) {f : Fld} (h : 0x1200000 ≤ f.reg.spec.block.origin.1 + f.reg.spec.base) (n inst i j : Nat) :
    s.keepsXlt (s.count f n inst i j) := s.keepsXlt_setFld h _ inst i j

theorem State.keepsXlt_setCoh (s : State) (c : Coh) : s.keepsXlt (s.setCoh c) := State.keepsXlt_of_eq rfl rfl

theorem State.keepsXlt_setDir (s : State) (line : Nat) (e : Option DirEntry) : s.keepsXlt (s.setDir line e) := s.keepsXlt_setCoh _

theorem State.keepsXlt_openTxn (s : State) (x : Txn) : s.keepsXlt (s.openTxn x) := s.keepsXlt_setCoh _

theorem State.keepsXlt_endTxn (s : State) (line : Nat) : s.keepsXlt (s.endTxn line) := s.keepsXlt_setCoh _

theorem State.keepsXlt_toStack (s : State) (l : LineReq) : s.keepsXlt (s.toStack l) := State.keepsXlt_of_eq rfl rfl

theorem State.keepsXlt_updReq (s : State) (id : Nat) (f : Req → Req) : s.keepsXlt (s.updReq id f) := State.keepsXlt_of_eq rfl rfl

theorem State.keepsXlt_updPiece (s : State) (id n : Nat) (f : Piece → Piece) : s.keepsXlt (s.updPiece id n f) := s.keepsXlt_updReq _ _

theorem State.keepsXlt_lineDone (s : State) (l : LineReq) (failed : Option Status) : s.keepsXlt (s.lineDone l failed) := s.keepsXlt_updPiece _ _ _

theorem State.keepsXlt_lineRead (s : State) (l : LineReq) (bytes : List (BitVec 8)) (poison : Bool) : s.keepsXlt (s.lineRead l bytes poison) := by
  unfold State.lineRead
  split
  · exact (s.keepsXlt_count (f := F.STK_UE_CNT_PRD) (by decide) _ _ _ _).trans (State.keepsXlt_lineDone _ _ _)
  · split
    · exact .refl s
    · exact (s.keepsXlt_updReq _ _).trans (State.keepsXlt_lineDone _ _ _)

/-! ### Messages -/

theorem State.keepsXlt_enqueue (s : State) (p q : Nat) (k : Packet) : s.keepsXlt (s.enqueue p q k) := by
  unfold State.enqueue
  split
  · exact State.keepsXlt_of_eq rfl rfl
  · exact .refl s

theorem State.keepsXlt_countDiscard (s : State) (v : Verdict) : s.keepsXlt (s.countDiscard v) := by
  unfold State.countDiscard
  split
  · exact s.keepsXlt_count (f := F.HUB_CNT_DOWNED) (by decide) _ _ _ _
  · exact s.keepsXlt_count (f := F.HUB_CNT_NOROUTE) (by decide) _ _ _ _
  · exact .refl s

theorem State.keepsXlt_originate (s : State) (ctx : Option Nat) (k : Packet) : s.keepsXlt (s.originate ctx k).2 := by
  unfold State.originate
  dsimp only
  split
  · exact s.keepsXlt_enqueue _ _ _
  · exact State.keepsXlt_of_eq rfl rfl
  · exact s.keepsXlt_countDiscard _

theorem State.keepsXlt_sendCoh (s : State) (port : Option Nat) (k : Packet) : s.keepsXlt (s.sendCoh port k) := by
  unfold State.sendCoh
  dsimp only
  split
  · exact State.keepsXlt_of_eq rfl rfl
  · split
    · exact s.keepsXlt_enqueue _ _ _
    · exact s.keepsXlt_originate _ _

theorem State.keepsXlt_toAgent (s : State) (i code line gtag : Nat) (go : Bool) (tag : BitVec 16) (ch : BitVec 3) (data : List (BitVec 8)) (poison : Bool) :
    s.keepsXlt (s.toAgent i code line gtag go tag ch data poison) := by
  unfold State.toAgent
  dsimp only
  split <;> exact s.keepsXlt_sendCoh _ _

theorem State.keepsXlt_toPeer (s : State) (n code addr agent : Nat) : s.keepsXlt (s.toPeer n code addr agent) := s.keepsXlt_sendCoh _ _

theorem State.keepsXlt_snoop (s : State) (line : Nat) (p : Nat × Nat) (inv : Bool) : s.keepsXlt (s.snoop line p inv) :=
  s.keepsXlt_toAgent _ _ _ _ _ _ _ _ _

theorem State.keepsXlt_nextGtag (s : State) (line : Nat) : s.keepsXlt (s.nextGtag line).2 := s.keepsXlt_setCoh _

/-! ### Recalls -/

theorem State.keepsXlt_broadcast (s : State) (line : Nat) (keep : Option Nat) : s.keepsXlt (s.broadcast line keep).2.2 :=
  ((s.keepsXlt_count (f := F.COH_CNT_BCAST) (by decide) _ _ _ _).trans (State.keepsXlt_foldl (fun t _ => t.keepsXlt_snoop _ _ _) _ _)).trans
    (State.keepsXlt_foldl (fun t _ => t.keepsXlt_toPeer _ _ _ _) _ _)

theorem State.keepsXlt_invalidateCopies (s : State) (line : Nat) (e : DirEntry) (keep : Option Nat) : s.keepsXlt (s.invalidateCopies line e keep).2.2 := by
  unfold State.invalidateCopies
  split
  · exact s.keepsXlt_broadcast _ _
  · exact State.keepsXlt_foldl (fun t _ => t.keepsXlt_snoop _ _ _) _ s

theorem State.keepsXlt_reclaimLine (s : State) (line agent : Nat) : s.keepsXlt (s.reclaimLine line agent) := by
  unfold State.reclaimLine State.reclaimFor
  extract_lets f s1 s2 q c s3 w
  have h1 : s.keepsXlt s1 := s.keepsXlt_toStack _
  have h2 : s1.keepsXlt s2 := by
    unfold s2
    split
    · exact s1.keepsXlt_count (f := F.COH_RCL_STAT_POISONED) (by decide) _ _ _ _
    · exact .refl s1
  have h3 : s2.keepsXlt s3 := s2.keepsXlt_setCoh _
  refine ((h1.trans h2).trans h3).trans ?_
  split
  · exact s3.keepsXlt_setCoh _
  · exact s3.keepsXlt_setFld (f := F.COH_RCL_STAT_OVF) (by decide) _ _ _ _

theorem State.keepsXlt_dropDead (s : State) (line : Nat) : s.keepsXlt (s.dropDead line) := by
  unfold State.dropDead
  split
  · exact .refl s
  · split
    · split
      · split
        · exact (s.keepsXlt_reclaimLine _ _).trans (State.keepsXlt_setDir _ _ _)
        · exact .refl s
      · exact .refl s
    · dsimp only
      split
      · exact .refl s
      · exact s.keepsXlt_setDir _ _
    · exact .refl s

theorem State.keepsXlt_recall (s : State) (line : Nat) (room : Option Nat) : s.keepsXlt (s.recall line room) := by
  unfold State.recall
  extract_lets s1
  have h1 : s.keepsXlt s1 := s.keepsXlt_dropDead line
  split
  · exact h1
  · exact (h1.trans (s1.keepsXlt_invalidateCopies line _ none)).trans (State.keepsXlt_openTxn _ _)

/-! ### Transactions that end -/

theorem State.keepsXlt_readFor (s : State) (x : Txn) : s.keepsXlt (s.readFor x) :=
  ((s.keepsXlt_endTxn _).trans (State.keepsXlt_openTxn _ _)).trans (State.keepsXlt_toStack _ _)

theorem State.keepsXlt_writeBack (s : State) (line : Nat) (bytes : List (BitVec 8)) : s.keepsXlt (s.writeBack line bytes) := s.keepsXlt_toStack _

theorem State.keepsXlt_grant (s : State) (line id : Nat) (owned : Bool) (data : Option (List (BitVec 8) × Bool)) (dirty : Bool) :
    s.keepsXlt (s.grant line id owned data dirty) := by
  unfold State.grant
  split
  · exact .refl s
  · dsimp only
    split
    · refine State.keepsXlt.trans ?_ (State.keepsXlt_updPiece _ _ _ _)
      split
      · split
        · exact s.keepsXlt_writeBack _ _
        · exact .refl s
      · exact .refl s
    · exact (((s.keepsXlt_nextGtag line).trans (State.keepsXlt_setDir _ _ _)).trans (State.keepsXlt_toAgent _ _ _ _ _ _ _ _ _ _)).trans
        (State.keepsXlt_updPiece _ _ _ _)

theorem State.keepsXlt_sendStash (s : State) (line : Nat) (why : TxnWhy) (target : Nat) (bytes : List (BitVec 8)) :
    s.keepsXlt (s.sendStash line why target bytes) :=
  (((s.keepsXlt_nextGtag line).trans (State.keepsXlt_toAgent _ _ _ _ _ _ _ _ _ _)).trans (State.keepsXlt_endTxn _ _)).trans (State.keepsXlt_openTxn _ _)

theorem State.keepsXlt_dropLine (s : State) (line : Nat) (e : Option DirEntry) : s.keepsXlt ((s.endTxn line).setDir line e) :=
  (s.keepsXlt_endTxn line).trans (State.keepsXlt_setDir _ _ _)

theorem State.keepsXlt_writePhase (s : State) (line : Nat) (l : LineReq) (target : Option Nat) (data : Option (List (BitVec 8)))
    (got : Option (List (BitVec 8) × Bool)) : s.keepsXlt (s.writePhase line l target data got) := by
  unfold State.writePhase
  split
  · split
    · exact s.keepsXlt_sendStash _ _ _ _
    · split
      · exact s.keepsXlt_sendStash _ _ _ _
      · exact s.keepsXlt_sendStash _ _ _ _
      · exact (s.keepsXlt_dropLine _ _).trans (State.keepsXlt_lineDone _ _ _)
      · exact s.keepsXlt_readFor _
  · exact (s.keepsXlt_dropLine _ _).trans (State.keepsXlt_toStack _ _)

/-- A grant that reads the line first where no owner returned its data. -/
theorem State.keepsXlt_read (s : State) (x : Txn) : s.keepsXlt ((s.setDir x.line none).readFor x) :=
  (s.keepsXlt_setDir _ _).trans (State.keepsXlt_readFor _ _)

theorem State.keepsXlt_conclude (s : State) (x : Txn) : s.keepsXlt (s.conclude x) := by
  have granted (id : Nat) (owned : Bool) (d : Option (List (BitVec 8) × Bool)) (dirty : Bool) :
      s.keepsXlt (((s.endTxn x.line).setDir x.line none).grant x.line id owned d dirty) :=
    (s.keepsXlt_dropLine _ _).trans (State.keepsXlt_grant _ _ _ _ _ _)
  unfold State.conclude
  extract_lets own written ended
  have hwritten : s.keepsXlt written := by
    unfold written
    split
    · exact s.keepsXlt_writeBack _ _
    · exact .refl s
  have hown (id : Nat) : s.keepsXlt (own id) := by
    unfold own
    split
    · exact (s.keepsXlt_endTxn _).trans (State.keepsXlt_grant _ _ _ _ _ _)
    · exact granted _ _ _ _
    · exact s.keepsXlt_read x
  split
  · exact hwritten.trans (State.keepsXlt_dropLine _ _ _)
  · refine (s.keepsXlt_endTxn x.line).trans ?_
    split
    · exact State.keepsXlt_lineRead _ _ _ _
    · exact State.keepsXlt_toStack _ _
  · split
    · exact (s.keepsXlt_dropLine _ _).trans (State.keepsXlt_toStack _ _)
    · exact s.keepsXlt_writePhase _ _ _ _ _
  · split
    · exact (s.keepsXlt_endTxn _).trans (State.keepsXlt_grant _ _ _ _ _ _)
    · exact ((s.keepsXlt_dropLine _ _).trans (State.keepsXlt_writeBack _ _ _)).trans (State.keepsXlt_grant _ _ _ _ _ _)
    · exact s.keepsXlt_read x
  · exact hown _
  · split
    · exact granted _ _ _ _
    · exact hown _

theorem State.keepsXlt_progress (s : State) : s.keepsXlt s.progress := by
  refine State.keepsXlt_foldl (fun t x => ?_) _ s
  split
  · split
    · exact t.keepsXlt_conclude _
    · exact .refl t
  · exact .refl t

theorem State.keepsXlt_recallFrame (s : State) (frame : Nat) : s.keepsXlt (s.recallFrame frame) := by
  refine (State.keepsXlt_foldl (fun t l => ?_) _ s).trans (State.keepsXlt_progress _)
  split
  · exact t.keepsXlt_setCoh _
  · exact t.keepsXlt_recall _ _

end KeepsXlt

end Sys2Proof.Machine
end

section
/-!
Bindings, segments and extents as they are written (R36 to R38, R43), and walks (R48 to R50).
-/
namespace Sys2Proof.Machine
open Sys2Proof

section Writes
variable {w : Writer} {s : State}

/-! ### Bindings and segments -/

theorem xltCtxBindWrite_holds (c : Ctx) (v : BitVec 64) (h : s.admits w .XLT_CTX_BIND 0) :
    let s1 := s.wakeFor w
    let cur := s1.regVal .XLT_CTX_BIND 0 c.val
    let bound : Prop := F.XLT_CTX_BIND_V.of cur = 1
    let taken : Prop := F.XLT_CTX_BIND_V.of v.toNat = 1 ∧ (s1.ctxOf (F.XLT_CTX_BIND_PORT.of v.toNat) (F.XLT_CTX_BIND_SRC_EP.of v.toNat)).isSome = true
    (bound → exec (.xltCtxBindWrite w c v) s =
      .next (s1.respond (if v.toNat &&& RegName.XLT_CTX_BIND.mask accRW = cur then .ok else .accessDenied))) ∧
    (¬bound → F.XLT_CTX_BIND_PORT.of v.toNat = 14 ∨ taken → exec (.xltCtxBindWrite w c v) s = .next (s1.respond .accessDenied)) ∧
    (¬bound → F.XLT_CTX_BIND_PORT.of v.toNat ≠ 14 → ¬taken →
      ∃ t, exec (.xltCtxBindWrite w c v) s = .next t ∧ s1.stored t .XLT_CTX_BIND 0 c.val 0 v.toNat) := by
  intro s1 cur bound taken
  have he : exec (.xltCtxBindWrite w c v) s = .next
      (if bound then s1.respond (if v.toNat &&& RegName.XLT_CTX_BIND.mask accRW = cur then .ok else .accessDenied)
      else if F.XLT_CTX_BIND_PORT.of v.toNat = 14 then s1.respond .accessDenied
      else if taken then s1.respond .accessDenied else s1.plainWrite .XLT_CTX_BIND 0 c.val 0 v.toNat) :=
    congrArg Host.Outcome.next (State.regWrite_admitted h _)
  refine ⟨fun hb => ?_, fun hb ht => ?_, fun hb hp ht => ⟨_, ?_, s1.stored_plainWrite _ _ _ _ _⟩⟩
  · rw [he, if_pos hb]
  · rw [he, if_neg hb]
    by_cases hp : F.XLT_CTX_BIND_PORT.of v.toNat = 14
    · rw [if_pos hp]
    · rw [if_neg hp, if_pos (ht.resolve_left hp)]
  · rw [he, if_neg hb, if_neg hp, if_neg ht]

theorem xltSegAttrWrite_holds (c : Ctx) (g : Fin 8) (v : BitVec 64) (h : s.admits w .XLT_SEG_ATTR 0) :
    let s1 := s.wakeFor w
    let x := v.toNat
    let cur := s1.segAttr c.val g.val
    let valid : Prop := F.XLT_SEG_ATTR_V.of cur = 1
    let sets : Prop := F.XLT_SEG_ATTR_V.of x = 1
    let moved : Prop := F.XLT_SEG_ATTR_REMOTE.of cur = 0 ∧ attrNoTable x = attrNoTable cur ∧ s1.segSetOk c.val g.val x = true
    let allowed : Prop := if valid then moved else if sets then s1.segSetOk c.val g.val x = true ∧ attrReserved x = false else F.XLT_SEG_ATTR_PCLASS.of x ≠ 3
    (s1.flag F.XLT_CTX_GEN_RVK 0 c.val = true → exec (.xltSegAttrWrite w c g v) s = .next (s1.respond .busy)) ∧
    (s1.flag F.XLT_CTX_GEN_RVK 0 c.val = false →
      (¬allowed → exec (.xltSegAttrWrite w c g v) s = .next (s1.respond .accessDenied)) ∧
      (allowed → ∃ t, exec (.xltSegAttrWrite w c g v) s = .next t ∧ s1.stored t .XLT_SEG_ATTR 0 c.val g.val x)) := by
  intro s1 x cur valid sets moved allowed
  have he : exec (.xltSegAttrWrite w c g v) s = .next
      (if s1.flag F.XLT_CTX_GEN_RVK 0 c.val then s1.respond .busy
      else if valid then (if moved then s1.plainWrite .XLT_SEG_ATTR 0 c.val g.val x else s1.respond .accessDenied)
      else if sets then
        (if s1.segSetOk c.val g.val x && !attrReserved x then s1.plainWrite .XLT_SEG_ATTR 0 c.val g.val x else s1.respond .accessDenied)
      else if F.XLT_SEG_ATTR_PCLASS.of x = 3 then s1.respond .accessDenied else s1.plainWrite .XLT_SEG_ATTR 0 c.val g.val x) :=
    congrArg Host.Outcome.next (State.regWrite_admitted h _)
  refine ⟨fun hr => by rw [he, if_pos hr], fun hr => ?_⟩
  rw [hr, if_neg Bool.false_ne_true] at he
  suffices hs : exec (.xltSegAttrWrite w c g v) s = .next (if allowed then s1.plainWrite .XLT_SEG_ATTR 0 c.val g.val x else s1.respond .accessDenied) from
    ⟨fun ha => by rw [hs, if_neg ha], fun ha => ⟨_, by rw [hs, if_pos ha], s1.stored_plainWrite _ _ _ _ _⟩⟩
  rw [he]
  congr 1
  unfold allowed
  split_ifs <;> simp_all

/-! ### Extents -/

theorem State.extWords_lt (s : State) (i : Nat) : (s.extWords i).1 < 2 ^ 64 ∧ (s.extWords i).2 < 2 ^ 64 := ⟨BitVec.isLt _, BitVec.isLt _⟩

theorem extRead_holds (h : s.admits w .XLT_EXT_OP 0) :
    let s1 := s.wakeFor w
    let i := s1.fld F.XLT_EXT_INDEX_INDEX
    ∃ t, exec (.extRead w) s = .next t ∧ t.regVal .XLT_EXT_DATA0 = (s1.extWords i).1 ∧ t.regVal .XLT_EXT_DATA1 = (s1.extWords i).2 ∧
      t = { s1 with regs := t.regs, rsp := (.ok, 0) } ∧ s1.regsBut t [RegName.XLT_EXT_DATA0.addr 0 0 0, RegName.XLT_EXT_DATA1.addr 0 0 0] := by
  intro s1 i
  obtain ⟨h0, h1⟩ := s1.extWords_lt i
  refine ⟨((s1.setReg .XLT_EXT_DATA0 (s1.extWords i).1).setReg .XLT_EXT_DATA1 (s1.extWords i).2).respond .ok,
    congrArg Host.Outcome.next (State.regWrite_admitted h _), ?_, ?_, rfl, ?_⟩
  · exact (State.regVal_setReg_other _ _ (by decide)).trans ((State.regVal_setReg_same _ _ _ _ _ _).trans (Nat.mod_eq_of_lt h0))
  · exact (State.regVal_setReg_same _ _ _ _ _ _).trans (Nat.mod_eq_of_lt h1)
  · exact (s1.regsBut_setReg .XLT_EXT_DATA0 _ 0 0 0).trans (State.regsBut_setReg _ .XLT_EXT_DATA1 _ 0 0 0)

/-- A state whose extent entry `i` holds two words. -/
def State.putExt (s : State) (i : Nat) (e : Nat × Nat) : State :=
  s.setPool { s.pool with ext := smSet 0 (smSet 0 s.pool.ext (2 * i) (BitVec.ofNat 64 e.1)) (2 * i + 1) (BitVec.ofNat 64 e.2) }

theorem State.extWords_putExt (s : State) (i : Nat) {e : Nat × Nat} (h1 : e.1 < 2 ^ 64) (h2 : e.2 < 2 ^ 64) (j : Nat) :
    (s.putExt i e).extWords j = if j = i then e else s.extWords j := by
  unfold State.extWords State.putExt State.setPool
  simp only [smGet_smSet, Nat.add_right_cancel_iff, Nat.mul_left_cancel_iff (Nat.zero_lt_two)]
  rw [if_neg (by omega), if_neg (by omega : ¬2 * j + 1 = 2 * i)]
  split_ifs with hj
  · exact Prod.ext ((BitVec.toNat_ofNat _ _).trans (Nat.mod_eq_of_lt h1)) ((BitVec.toNat_ofNat _ _).trans (Nat.mod_eq_of_lt h2))
  · rfl

theorem extWrite_holds (h : s.admits w .XLT_EXT_OP 0) :
    let s1 := s.wakeFor w
    let i := s1.fld F.XLT_EXT_INDEX_INDEX
    let e := (s1.regVal .XLT_EXT_DATA0, s1.regVal .XLT_EXT_DATA1)
    (s1.extWriteOk e = false → exec (.extWrite w) s = .next (s1.respond .accessDenied)) ∧
    (s1.extWriteOk e = true → ∃ t, exec (.extWrite w) s = .next t ∧ t = { s1 with pool := { s1.pool with ext := t.pool.ext }, rsp := (.ok, 0) } ∧
      (∀ j, t.extWords j = if j = i then e else s1.extWords j) ∧ (smWf 0 s1.pool.ext = true → smWf 0 t.pool.ext = true)) := by
  intro s1 i e
  have he : exec (.extWrite w) s = .next (if s1.extWriteOk e then (s1.putExt i e).respond .ok else s1.respond .accessDenied) :=
    congrArg Host.Outcome.next (State.regWrite_admitted h _)
  refine ⟨fun ho => by rw [he, ho]; rfl, fun ho => ⟨(s1.putExt i e).respond .ok, by rw [he, ho]; rfl, rfl, ?_, fun hw => smSet_wf _ _ (smSet_wf _ _ hw)⟩⟩
  exact s1.extWords_putExt i (s1.regVal_lt _ _ _ _) (s1.regVal_lt _ _ _ _)

end Writes

/-! ### Walks -/

section Walks

/-- A miss of the quarter that no walk serves. -/
def State.wantsWalk (s : State) (q : Nat) (m : Miss) : Bool := m.q == q && !m.fault && !s.xlt.walks.any (fun x => x.serves m)

/-- Walker `n` of the quarter is at work. -/
def State.walkerTaken (s : State) (q n : Nat) : Bool := (s.xlt.walks.filter (fun x => x.q == q)).any (fun x => x.walker == n)

theorem State.walkerTaken_iff (s : State) (q n : Nat) : s.walkerTaken q n = true ↔ ∃ x ∈ s.xlt.walks, x.q = q ∧ x.walker = n := by
  simp [State.walkerTaken]

/-- The walk that walker `n` begins for a miss. -/
def State.newWalk (s : State) (q n : Nat) (m : Miss) : Walk :=
  { q := q, walker := n, ctx := m.ctx, seg := m.seg, block := m.page / 16, gen := s.gen m.ctx
    ents := s.walkEnts m.ctx m.seg (m.page / 16), probes := s.walkProbes m.ctx m.seg m.page }

def State.beginWalk (s : State) (x : Walk) : State := ({ s with xlt := { s.xlt with walks := s.xlt.walks ++ [x] } } : State).sendProbe x

/-- A walk whose context changed generation, as it begins again (R50). -/
def State.walkAgain (s : State) (x : Walk) : Walk :=
  { x with gen := s.gen x.ctx, ents := s.walkEnts x.ctx x.seg x.block, probes := s.walkProbes x.ctx x.seg (x.block * 16) }

def State.restartWalk (s : State) (x : Walk) : State :=
  ({ s with xlt := { s.xlt with walks := s.xlt.walks.map (fun z => if z = x then s.walkAgain x else z) } } : State).sendProbe (s.walkAgain x)

/-- A walk ends, and does what it found for each of its misses. -/
def State.endWalk (s : State) (x : Walk) (bad : Bool) : State :=
  ((s.xlt.missQ.filter (fun m => x.serves m && !m.fault)).foldl (fun (u : State) m => u.walkMiss x bad m)
    { s with xlt := { s.xlt with walks := s.xlt.walks.filter (· ≠ x) } }).settle

theorem execWalkStart_eq (q : Quarter) (s : State) :
    exec (.walkStart q) s = .next ((s.xlt.missQ.find? (s.wantsWalk q)).elim s fun m =>
      ((List.range 32).find? (fun n => !s.walkerTaken q n)).elim s fun n => s.beginWalk (s.newWalk q n m)) := by
  show execWalkStart q s = _
  unfold execWalkStart State.wantsWalk State.walkerTaken
  cases s.xlt.missQ.find? _ with
  | none => rfl
  | some m =>
    dsimp only [Option.elim]
    cases (List.range 32).find? _ <;> rfl

theorem execWalkEnd_eq (q : Quarter) (n : Fin 32) (bad : CopyErr) (s : State) :
    exec (.walkEnd q n bad) s = .next ((s.xlt.walks.find? (fun x => x.q == q.val && x.walker == n.val)).elim s fun x =>
      if !x.probes.isEmpty then s else if s.gen x.ctx ≠ x.gen then s.restartWalk x else s.endWalk x (bad.c0 && bad.c1 && bad.c2)) := by
  show execWalkEnd q n bad s = _
  unfold execWalkEnd
  cases s.xlt.walks.find? _ <;> rfl

theorem walkStart_holds (q : Quarter) (s : State) :
    let wants (m : Miss) : Bool := m.q == q.val && !m.fault && !s.xlt.walks.any (fun x => x.serves m)
    let taken (n : Nat) : Prop := ∃ x ∈ s.xlt.walks, x.q = q.val ∧ x.walker = n
    (s.xlt.missQ.find? wants = none ∨ (∀ n, n < 32 → taken n) → exec (.walkStart q) s = .next s) ∧
    (∀ m n, s.xlt.missQ.find? wants = some m → n < 32 → ¬taken n → (∀ j, j < n → taken j) →
      exec (.walkStart q) s = .next (s.beginWalk (s.newWalk q n m))) := by
  intro wants taken
  have htaken (n : Nat) : (!s.walkerTaken q n) = true ↔ ¬taken n := by rw [Bool.not_eq_true', ← Bool.not_eq_true, s.walkerTaken_iff]
  refine ⟨fun h => ?_, fun m n hm hn hfree hlow => ?_⟩
  · rw [execWalkStart_eq]
    rcases h with h | h
    · rw [show s.xlt.missQ.find? (s.wantsWalk q) = none from h]
      rfl
    · have hnone : (List.range 32).find? (fun n => !s.walkerTaken q n) = none := by
        rw [List.find?_eq_none]
        exact fun n hn => (htaken n).not.2 (not_not_intro (h n (List.mem_range.1 hn)))
      rw [hnone]
      cases s.xlt.missQ.find? _ <;> rfl
  · have hsome : (List.range 32).find? (fun n => !s.walkerTaken q n) = some n := by
      rw [List.find?_range_eq_some]
      refine ⟨(htaken n).2 hfree, List.mem_range.2 hn, fun j hj => ?_⟩
      rw [Bool.not_not, s.walkerTaken_iff]
      exact hlow j hj
    rw [execWalkStart_eq, show s.xlt.missQ.find? (s.wantsWalk q) = some m from hm, hsome]
    rfl

theorem walkEnd_holds (q : Quarter) (n : Fin 32) (bad : CopyErr) (s : State) :
    ((∀ x ∈ s.xlt.walks, ¬(x.q = q.val ∧ x.walker = n.val)) → exec (.walkEnd q n bad) s = .next s) ∧
    ∀ x, s.xlt.walks.find? (fun x => x.q == q.val && x.walker == n.val) = some x →
      (x.probes ≠ [] → exec (.walkEnd q n bad) s = .next s) ∧
      (x.probes = [] → s.gen x.ctx ≠ x.gen → exec (.walkEnd q n bad) s = .next (s.restartWalk x)) ∧
      (x.probes = [] → s.gen x.ctx = x.gen → exec (.walkEnd q n bad) s = .next (s.endWalk x (bad.c0 && bad.c1 && bad.c2))) := by
  refine ⟨fun h => ?_, fun x hx => ?_⟩
  · rw [execWalkEnd_eq, List.find?_eq_none.2 fun x hx => by simpa using h x hx]
    rfl
  · rw [execWalkEnd_eq, hx]
    dsimp only [Option.elim]
    refine ⟨fun hp => ?_, fun hp hg => ?_, fun hp hg => ?_⟩
    · rw [if_pos (by simpa using hp)]
    · rw [if_neg (by simp [hp]), if_pos hg]
    · rw [if_neg (by simp [hp]), if_neg (not_not_intro hg)]

end Walks

end Sys2Proof.Machine
end

section
/-!
Faults (R51 to R56): entries, records, resumes and timeouts.
-/
namespace Sys2Proof.Machine
open Sys2Proof

/-! ### Entries and records -/

theorem faultEntryAllocate_holds (q : Quarter) (s : State) :
    ((∀ m ∈ s.xlt.missQ, ¬(m.q = q.val ∧ m.fault = true)) → exec (.faultEntryAllocate q) s = .next s) ∧
    (∀ m, s.xlt.missQ.find? (fun m => m.q == q.val && m.fault) = some m → exec (.faultEntryAllocate q) s = .next ((s.fault m).settle)) := by
  show (_ → execFaultEntryAllocate q s = _) ∧ ∀ m, _ → execFaultEntryAllocate q s = _
  unfold execFaultEntryAllocate
  refine ⟨fun h => ?_, fun m hm => by rw [hm]⟩
  rw [List.find?_eq_none.2 fun m hm => by simpa using h m hm]

/-- How many accesses have joined the entry of a record, or had when it freed (R53). -/
def State.joinedCount (s : State) (r : LogRec) : Nat :=
  r.entry.elim r.waiters fun e => ((s.xlt.faults.find? (fun f => f.q == e.1 && f.e == e.2)).map (·.joined)).getD r.waiters

/-- The words of a record as it leaves: a fault's third word holds the count of its accesses (Table 2-4). -/
def State.leavingWords (s : State) (r : LogRec) : List Nat :=
  if bits (r.words.getD 0 0) 16 8 = 1 then setAt r.words 3 (r.words.getD 3 0 + min (s.joinedCount r) 65535 * 2 ^ 42) else r.words

theorem getD_setAt_ne (l : List Nat) {i j : Nat} (h : j ≠ i) (x : Nat) : (setAt l i x).getD j 0 = l.getD j 0 := by
  simp only [setAt, List.getD_eq_getElem?_getD, List.getElem?_set_ne (Ne.symm h)]

theorem State.leavingWords_getD (s : State) (r : LogRec) {j : Nat} (h : j ≠ 3) : (s.leavingWords r).getD j 0 = r.words.getD j 0 := by
  unfold State.leavingWords
  split_ifs
  · exact getD_setAt_ne _ h _
  · rfl

/-- The state once a record has left the queue for the host's ring. -/
def State.recordTaken (s : State) (r : LogRec) : State :=
  { s with xlt := { s.xlt with recQ := s.xlt.recQ.erase r }, tl := { s.tl with outFault := s.tl.outFault ++ [(false, srcXlt r.q)] } }

theorem State.recordTaken_fld (s : State) (r : LogRec) (f : Fld) : (s.recordTaken r).fld f = s.fld f := rfl

/-- The state once a record's write stands in the channel to the host. -/
def State.recordSent (s : State) (r : LogRec) : State :=
  (s.recordTaken r).hostWrite ((s.recordTaken r).fld F.XLT_FLT_LOG_BASE_BASE * 4096 +
    (s.fld F.XLT_FLT_PROD_PROD + s.tl.outFault.length) % ringSlots (s.fld F.XLT_FLT_LOG_SIZE_LOG2N) 6 16 * 64) (wordBytes (s.leavingWords r))
    (.ring .fault (srcXlt r.q))

theorem execFaultRecordWrite_none {q : Quarter} {s : State} (h : s.xlt.recQ.find? (fun r => r.q == q.val) = none) :
    exec (.faultRecordWrite q) s = .next s := by
  show execFaultRecordWrite q s = _
  unfold execFaultRecordWrite
  rw [h]

theorem execFaultRecordWrite_waits {q : Quarter} {s : State} {r : LogRec} (h : s.xlt.recQ.find? (fun r => r.q == q.val) = some r)
    (hw : s.logFull = true ∨ (!s.msgRoom) = true) : exec (.faultRecordWrite q) s = .next s := by
  show execFaultRecordWrite q s = _
  unfold execFaultRecordWrite
  rw [h]
  dsimp only
  rw [if_pos hw]

theorem execFaultRecordWrite_sent {q : Quarter} {s : State} {r : LogRec} (h : s.xlt.recQ.find? (fun r => r.q == q.val) = some r)
    (hw : ¬(s.logFull = true ∨ (!s.msgRoom) = true)) : exec (.faultRecordWrite q) s = .next (s.recordSent r) := by
  show execFaultRecordWrite q s = _
  unfold execFaultRecordWrite State.recordSent State.leavingWords State.joinedCount State.recordTaken State.setTl
  rw [h]
  dsimp only
  rw [if_neg hw]
  cases r.entry <;> rfl

theorem State.logFull_iff (s : State) :
    s.logFull = true ↔ ringSlots (s.fld F.XLT_FLT_LOG_SIZE_LOG2N) 6 16 ≤
      (s.fld F.XLT_FLT_PROD_PROD + s.tl.outFault.length + 2 ^ 32 - s.fld F.XLT_FLT_CONS_CONS) % 2 ^ 32 :=
  beq_iff_eq.trans Nat.sub_eq_zero_iff_le

/-- The log takes a record: it exists and is not full, and the channel to the host has room (R53, R316). -/
theorem State.recordWaits_iff (s : State) :
    (s.logFull = true ∨ (!s.msgRoom) = true) ↔
      ¬(ringSlots (s.fld F.XLT_FLT_LOG_SIZE_LOG2N) 6 16 ≠ 0 ∧
        (s.fld F.XLT_FLT_PROD_PROD + s.tl.outFault.length + 2 ^ 32 - s.fld F.XLT_FLT_CONS_CONS) % 2 ^ 32 < ringSlots (s.fld F.XLT_FLT_LOG_SIZE_LOG2N) 6 16 ∧
        s.msgRoom = true) := by
  rw [s.logFull_iff, Bool.not_eq_true', ← Bool.not_eq_true]
  generalize ringSlots (s.fld F.XLT_FLT_LOG_SIZE_LOG2N) 6 16 = n
  generalize (s.fld F.XLT_FLT_PROD_PROD + s.tl.outFault.length + 2 ^ 32 - s.fld F.XLT_FLT_CONS_CONS) % 2 ^ 32 = m
  have hn : n ≤ m ↔ ¬(n ≠ 0 ∧ m < n) := by omega
  tauto

theorem faultRecordWrite_holds (q : Quarter) (s : State) :
    ((∀ r ∈ s.xlt.recQ, r.q ≠ q.val) → exec (.faultRecordWrite q) s = .next s) ∧
    (∀ r, s.xlt.recQ.find? (fun r => r.q == q.val) = some r →
      let n := ringSlots (s.fld F.XLT_FLT_LOG_SIZE_LOG2N) 6 16
      let k := s.fld F.XLT_FLT_PROD_PROD + s.tl.outFault.length
      let room : Prop := n ≠ 0 ∧ (k + 2 ^ 32 - s.fld F.XLT_FLT_CONS_CONS) % 2 ^ 32 < n ∧ s.msgRoom = true
      (¬room → exec (.faultRecordWrite q) s = .next s) ∧
      (room → ∃ (u : State) (words : List Nat), exec (.faultRecordWrite q) s =
          .next (u.hostWrite (s.fld F.XLT_FLT_LOG_BASE_BASE * 4096 + k % n * 64) (wordBytes words) (.ring .fault (srcXlt r.q))) ∧
        (∀ j, j ≠ 3 → words.getD j 0 = r.words.getD j 0) ∧ u.xlt.recQ = s.xlt.recQ.erase r ∧ u.tl.outFault = s.tl.outFault ++ [(false, srcXlt r.q)] ∧
        u = { s with xlt := { s.xlt with recQ := u.xlt.recQ }, tl := { s.tl with outFault := u.tl.outFault } })) := by
  refine ⟨fun h => execFaultRecordWrite_none (List.find?_eq_none.2 fun r hr => by simpa using h r hr), fun r hr => ?_⟩
  intro n k room
  refine ⟨fun h => execFaultRecordWrite_waits hr (s.recordWaits_iff.2 h), fun h => ⟨s.recordTaken r, s.leavingWords r, ?_,
    fun j hj => s.leavingWords_getD r hj, rfl, rfl, rfl⟩⟩
  rw [execFaultRecordWrite_sent hr (s.recordWaits_iff.not.2 (not_not_intro h)), State.recordSent, s.recordTaken_fld]

/-! ### Resumes -/

/-- The waiters of an entry, let go to walk again. -/
def State.letGo (s : State) (f : FaultEntry) : State :=
  f.waiters.foldl (fun z x => z.updPiece x.1 x.2 (fun p => { p with state := .waiting, retried := some s.now })) s

/-- A fold of updates of pieces keeps all but the requests. -/
theorem State.foldl_updPiece_eq {α : Type} (g : State → α → Nat × Nat × (Piece → Piece)) (l : List α) (s : State) :
    let u := l.foldl (fun z x => z.updPiece (g z x).1 (g z x).2.1 (g z x).2.2) s
    u = { s with ord := { s.ord with reqs := u.ord.reqs } } := by
  intro u
  refine List.foldlRecOn (motive := fun u : State => u = { s with ord := { s.ord with reqs := u.ord.reqs } }) l _ rfl fun z hz x _ => ?_
  generalize g z x = e
  rw [hz]
  rfl

theorem State.letGo_eq (s : State) (f : FaultEntry) : s.letGo f = { s with ord := { s.ord with reqs := (s.letGo f).ord.reqs } } :=
  State.foldl_updPiece_eq (α := Nat × Nat) (fun _ x => (x.1, x.2, fun p => { p with state := .waiting, retried := some s.now })) f.waiters s

/-- The time does not pass while waiters are let go. -/
theorem State.letGo_now (f : FaultEntry) (s : State) :
    f.waiters.foldl (fun z x => z.updPiece x.1 x.2 (fun p => { p with state := .waiting, retried := some z.now })) s = s.letGo f := by
  unfold State.letGo
  have go (l : List (Nat × Nat)) (n : Nat) (s : State) (hn : s.now = n) :
      l.foldl (fun z x => z.updPiece x.1 x.2 (fun p => { p with state := .waiting, retried := some z.now })) s =
        l.foldl (fun z x => z.updPiece x.1 x.2 (fun p => { p with state := .waiting, retried := some n })) s := by
    induction l generalizing s with
    | nil => rfl
    | cons x l ih =>
      subst hn
      exact ih _ rfl
  exact go _ _ _ rfl

section Resume
variable {w : Writer} {s : State}

theorem execResumeRetry_eq (fid : BitVec 16) (h : s.admits w .XLT_FLT_RESUME 0) :
    exec (.resumeRetry w fid) s = .next (((s.wakeFor w).faultOf fid.toNat).elim (((s.wakeFor w).setRstat fid.toNat 1 0).respond .ok) fun f =>
      (((((s.wakeFor w).letGo f).setRstat fid.toNat 0 f.waiters.length).dropWaiters).settle).respond .ok) := by
  refine (congrArg Host.Outcome.next (State.regWrite_admitted h _)).trans ?_
  cases (s.wakeFor w).faultOf fid.toNat with
  | none => rfl
  | some f =>
    dsimp only [Option.elim]
    rw [State.letGo_now]

theorem execResumeFail_eq (fid : BitVec 16) (h : s.admits w .XLT_FLT_RESUME 0) :
    exec (.resumeFail w fid) s = .next (((s.wakeFor w).faultOf fid.toNat).elim (((s.wakeFor w).setRstat fid.toNat 1 0).respond .ok) fun f =>
      ((((((s.wakeFor w).setRstat fid.toNat 0 f.waiters.length).failWaiters f (fun _ => true) .accessDenied).dropWaiters).settle).respond .ok)) := by
  refine (congrArg Host.Outcome.next (State.regWrite_admitted h _)).trans ?_
  cases (s.wakeFor w).faultOf fid.toNat <;> rfl

theorem State.setRstat_result (s : State) (fid : BitVec 16) (result n : Nat) :
    (s.setRstat fid.toNat result n).fld F.XLT_FLT_RSTAT_RESULT = result % 4 := by
  have hf := fid.isLt
  have hv : (s.setRstat fid.toNat result n).fld F.XLT_FLT_RSTAT_RESULT = bits ((fid.toNat + result * 2 ^ 16 + n * 2 ^ 18) % 2 ^ 64) 16 2 :=
    congrArg (bits · 16 2) (State.regVal_setReg_same _ _ _ _ _ _)
  rw [hv]
  simp only [bits, Nat.shiftRight_eq_div_pow]
  omega

/-- The state once the waiters of an entry are let go, as its registers show. -/
def State.retried (s : State) (fid : Nat) (f : FaultEntry) : State := ((s.letGo f).setRstat fid 0 f.waiters.length).dropWaiters

theorem State.onReqs_letGo (s : State) (f : FaultEntry) : s.onReqs (s.letGo f) := by
  rw [s.letGo_eq f]
  rfl

theorem State.onReqs_retried (s : State) (fid : Nat) (f : FaultEntry) : s.onReqs (s.retried fid f) :=
  ((s.onReqs_letGo f).trans (State.onReqs_setReg _ _ _ _ _ _)).trans (State.onReqs_dropWaiters _)

theorem State.retried_result (s : State) (fid : BitVec 16) (f : FaultEntry) : (s.retried fid.toNat f).fld F.XLT_FLT_RSTAT_RESULT = 0 := by
  unfold State.retried
  rw [State.fld_congr (State.dropWaiters_regs _), State.setRstat_result]

theorem State.retried_reqs (s : State) (fid : Nat) (f : FaultEntry) : (s.retried fid f).ord.reqs = (s.letGo f).ord.reqs := by
  unfold State.retried State.setRstat
  rw [State.dropWaiters_ord, State.setReg_ord]

theorem State.regsBut_retried (s : State) (fid : Nat) (f : FaultEntry) : s.regsBut (s.retried fid f) [RegName.XLT_FLT_RSTAT.addr 0 0 0] := by
  have hr : (s.letGo f).regs = s.regs := by rw [s.letGo_eq f]
  intro d a ha
  unfold State.retried
  rw [State.dropWaiters_regs, ← hr]
  exact State.regsBut_setReg (s.letGo f) .XLT_FLT_RSTAT _ 0 0 0 d a ha

theorem resumes_hold (fid : BitVec 16) (h : s.admits w .XLT_FLT_RESUME 0) :
    let s1 := s.wakeFor w
    (s1.faultOf fid.toNat = none →
      exec (.resumeRetry w fid) s = .next ((s1.setRstat fid.toNat 1 0).respond .ok) ∧
      exec (.resumeFail w fid) s = .next ((s1.setRstat fid.toNat 1 0).respond .ok)) ∧
    (∀ f, s1.faultOf fid.toNat = some f →
      (∃ u : State, exec (.resumeRetry w fid) s = .next (u.settle.respond .ok) ∧ u.fld F.XLT_FLT_RSTAT_RESULT = 0 ∧
        u.ord.reqs = (f.waiters.foldl (fun z x => z.updPiece x.1 x.2 (fun p => { p with state := .waiting, retried := some s1.now })) s1).ord.reqs ∧
        u = { s1 with ord := { s1.ord with reqs := u.ord.reqs }, regs := u.regs, xlt := u.xlt } ∧ s1.regsBut u [RegName.XLT_FLT_RSTAT.addr 0 0 0]) ∧
      exec (.resumeFail w fid) s =
        .next (((((s1.setRstat fid.toNat 0 f.waiters.length).failWaiters f (fun _ => true) .accessDenied).dropWaiters).settle).respond .ok)) := by
  intro s1
  rw [execResumeRetry_eq fid h, execResumeFail_eq fid h]
  refine ⟨fun hf => ?_, fun f hf => ?_⟩
  · rw [hf]
    exact ⟨rfl, rfl⟩
  · rw [hf]
    exact ⟨⟨s1.retried fid.toNat f, rfl, s1.retried_result fid f, s1.retried_reqs _ f, s1.onReqs_retried _ f, s1.regsBut_retried _ f⟩, rfl⟩

end Resume

end Sys2Proof.Machine
end

section
/-!
Fault timeouts (R55, R56): what is due, and that the end of the cycle fails the accesses an entry has held too long.
-/
namespace Sys2Proof.Machine
open Sys2Proof

/-! ### What failing a channel keeps -/

/-- From `s` to `t` translation, registers and time stay, and a piece that is found in `t` is found in `s`, held since then. -/
structure State.failsOnly (s t : State) : Prop where
  xlt : t.xlt = s.xlt
  regs : t.regs = s.regs
  now : t.now = s.now
  held : ∀ id n p, t.piece id n = some p → ∃ p', s.piece id n = some p' ∧ p'.heldAt = p.heldAt

theorem State.failsOnly.refl (s : State) : s.failsOnly s := ⟨rfl, rfl, rfl, fun _ _ p hp => ⟨p, hp, rfl⟩⟩

theorem State.failsOnly.trans {s t u : State} (h : s.failsOnly t) (g : t.failsOnly u) : s.failsOnly u := by
  refine ⟨g.xlt.trans h.xlt, g.regs.trans h.regs, g.now.trans h.now, fun id n p hp => ?_⟩
  obtain ⟨p1, h1, e1⟩ := g.held id n p hp
  obtain ⟨p2, h2, e2⟩ := h.held id n p1 h1
  exact ⟨p2, h2, e2.trans e1⟩

/-- A change of requests that keeps numbers and where pieces stand, and since when each is held. -/
def Req.keepsHolds (r r' : Req) : Prop :=
  r'.id = r.id ∧ ∀ (n : Nat) (p : Piece), r'.pieces[n]? = some p → ∃ p', r.pieces[n]? = some p' ∧ p'.heldAt = p.heldAt

theorem Req.keepsHolds.refl (r : Req) : r.keepsHolds r := ⟨rfl, fun _ p hp => ⟨p, hp, rfl⟩⟩

theorem Req.keepsHolds_failFrom (r : Req) (n : Nat) (st : Status) : r.keepsHolds (r.failFrom n st) := by
  refine ⟨rfl, fun i p hp => ?_⟩
  simp only [Req.failFrom, List.getElem?_map, List.getElem?_zipIdx, Option.map_map, Option.map_eq_some_iff] at hp
  obtain ⟨p', hp', he⟩ := hp
  refine ⟨p', hp', ?_⟩
  rw [← he, Function.comp_apply]
  split_ifs <;> rfl

theorem Req.keepsHolds_failAll (r : Req) (st : Status) : r.keepsHolds (r.failAll st) := by
  unfold Req.failAll
  split_ifs
  · exact .refl r
  · exact ⟨rfl, fun _ p hp => ⟨p, hp, rfl⟩⟩
  · exact r.keepsHolds_failFrom 0 st

/-- Mapping the requests by changes that keep holds. -/
theorem State.failsOnly_mapReqs (s : State) {f : Req → Req} (hf : ∀ r : Req, r.keepsHolds (f r)) :
    s.failsOnly (s.setOrd { s.ord with reqs := s.ord.reqs.map f }) := by
  refine ⟨rfl, rfl, rfl, fun id n p hp => ?_⟩
  have hfind : (s.ord.reqs.map f).find? (fun r => r.id == id) = (s.ord.reqs.find? (fun r => r.id == id)).map f := by
    rw [List.find?_map]
    congr 1
    refine congrArg (List.find? · s.ord.reqs) (funext fun r => ?_)
    simp only [Function.comp_apply, (hf r).1]
  simp only [State.piece, State.req, State.setOrd, hfind] at hp ⊢
  cases hr : s.ord.reqs.find? (fun r => r.id == id) with
  | none =>
    rw [hr] at hp
    cases hp
  | some r =>
    rw [hr] at hp
    exact (hf r).2 n p hp

theorem State.failsOnly_failChannel (s : State) (id n : Nat) (st : Status) : s.failsOnly (s.failChannel id n st).2 := by
  unfold State.failChannel
  split
  · exact .refl s
  · refine s.failsOnly_mapReqs fun r => ?_
    split_ifs
    · exact r.keepsHolds_failFrom n st
    · exact r.keepsHolds_failAll st
    · exact .refl r

theorem State.failsOnly_failWaiters (s : State) (f : FaultEntry) (p : Piece → Bool) (st : Status) : s.failsOnly (s.failWaiters f p st) := by
  refine List.foldlRecOn (motive := fun t => s.failsOnly t) f.waiters _ (.refl s) fun t ht x _ => ht.trans ?_
  split
  · split
    · exact t.failsOnly_failChannel _ _ _
    · exact .refl t
  · exact .refl t

/-! ### Timeouts -/

theorem State.overdue_iff (s : State) (id n : Nat) :
    s.overdue id n = true ↔ ∃ p, s.piece id n = some p ∧ p.heldAt + s.fld1 F.XLT_CTL_FLT_TMO * 10000 < s.now := by
  unfold State.overdue State.fltTmo
  cases s.piece id n <;> simp

theorem State.fld1_congr {s t : State} (h : t.regs = s.regs) (f : Fld) : t.fld1 f = s.fld1 f := by
  unfold State.fld1
  rw [State.fld_congr h]

/-- Failing pieces makes none overdue. -/
theorem State.failsOnly.overdue {s t : State} (h : s.failsOnly t) {id n : Nat} (ho : t.overdue id n = true) : s.overdue id n = true := by
  rw [State.overdue_iff] at *
  obtain ⟨p, hp, hlt⟩ := ho
  obtain ⟨p', hp', he⟩ := h.held id n p hp
  refine ⟨p', hp', ?_⟩
  rw [he, ← h.now, ← State.fld1_congr h.regs]
  exact hlt

theorem State.timeoutNow_ofEntry {s : State} {q e : Nat} {f : FaultEntry} (hf : s.xlt.faults.find? (fun f => f.q == q && f.e == e) = some f)
    (hm : ∀ m ∈ s.xlt.missQ, ¬(m.q = q ∧ m.fault = true ∧ s.overdue m.req m.piece = true)) :
    s.timeoutNow q e = (s.failWaiters f (fun p => p.heldAt + s.fltTmo < s.now) .faultTimeout).dropWaiters := by
  have hfails := s.failsOnly_failWaiters f (fun p => p.heldAt + s.fltTmo < s.now) .faultTimeout
  unfold State.timeoutNow
  rw [hf]
  dsimp only
  generalize s.failWaiters f (fun p => p.heldAt + s.fltTmo < s.now) .faultTimeout = t at *
  have hnone : t.xlt.missQ.filter (fun m => m.q == q && m.fault && t.overdue m.req m.piece) = [] := by
    rw [List.filter_eq_nil_iff, hfails.xlt]
    intro m hmem hp
    simp only [Bool.and_eq_true, beq_iff_eq] at hp
    exact hm m hmem ⟨hp.1.1, hp.1.2, hfails.overdue hp.2⟩
  rw [hnone]
  rfl

theorem faultTimeout_holds (q : Quarter) (e : Fin 128) (s : State) :
    let late (p : Piece) : Bool := p.heldAt + s.fld1 F.XLT_CTL_FLT_TMO * 10000 < s.now
    let waits (m : Miss) : Prop := m.q = q.val ∧ m.fault = true ∧ ∃ p, s.piece m.req m.piece = some p ∧ late p = true
    let due : Prop := (∃ f ∈ s.xlt.faults, f.q = q.val ∧ f.e = e.val ∧ ∃ x ∈ f.waiters, ∃ p, s.piece x.1 x.2 = some p ∧ late p = true) ∨
      ∃ m ∈ s.xlt.missQ, waits m
    (due → exec (.faultTimeout q e) s = .next (s.decideLate (.timeout q.val e.val))) ∧
    (¬due → exec (.faultTimeout q e) s = .next s) ∧
    ∀ f, s.xlt.faults.find? (fun f => f.q == q.val && f.e == e.val) = some f → (∀ m ∈ s.xlt.missQ, ¬waits m) →
      s.lateNow (.timeout q.val e.val) = (s.failWaiters f late .faultTimeout).dropWaiters := by
  intro late waits due
  have hlate (id n : Nat) : s.overdue id n = true ↔ ∃ p, s.piece id n = some p ∧ late p = true := by
    rw [s.overdue_iff]
    simp only [late, decide_eq_true_eq]
  have hdue : ((s.xlt.faults.any (fun f => f.q == q.val && f.e == e.val && f.waiters.any (fun x => s.overdue x.1 x.2))) ||
      s.xlt.missQ.any (fun m => m.q == q.val && m.fault && s.overdue m.req m.piece)) = true ↔ due := by
    simp only [Bool.or_eq_true, List.any_eq_true, Bool.and_eq_true, beq_iff_eq, hlate, and_assoc, due, waits]
  refine ⟨fun h => congrArg Host.Outcome.next (if_pos (hdue.2 h)), fun h => congrArg Host.Outcome.next (if_neg (hdue.not.2 h)), fun f hf hm => ?_⟩
  exact State.timeoutNow_ofEntry hf fun m hmem hw => hm m hmem ⟨hw.1, hw.2.1, (hlate _ _).1 hw.2.2⟩

end Sys2Proof.Machine
end

section
/-!
Revokes (R57, R58): how one is queued, what its start withdraws, and how it ends.
-/
namespace Sys2Proof.Machine
open Sys2Proof

/-! ### Counts of revokes -/

theorem rvkStat_ne_ctxGen (c : Nat) : RegName.XLT_RVK_STAT.addr 0 0 0 ≠ RegName.XLT_CTX_GEN.addr 0 c 0 := by
  simp only [RegName.addr, RegName.home, RegName.spec, Block.origin, reduceCtorEq, if_true, if_false]
  omega

theorem segAttr_ne_rvkStat (c g : Nat) : RegName.XLT_SEG_ATTR.addr 0 c g ≠ RegName.XLT_RVK_STAT.addr 0 0 0 := by
  simp only [RegName.addr, RegName.home, RegName.spec, Block.origin, reduceCtorEq, if_true, if_false]
  omega

theorem segAttr_ne_ctxGen {c : Nat} (hc : c < 4096) (d g : Nat) : RegName.XLT_SEG_ATTR.addr 0 d g ≠ RegName.XLT_CTX_GEN.addr 0 c 0 := by
  simp only [RegName.addr, RegName.home, RegName.spec, Block.origin, reduceCtorEq, if_true, if_false]
  omega

/-- The state before `rvkStat` notes the revokes of a context. -/
def State.rvkCounts (s : State) : State :=
  (s.setFld F.XLT_RVK_STAT_BUSY (if s.xlt.rvkRun.isEmpty then 0 else 1)).setFld F.XLT_RVK_STAT_QUEUED s.xlt.rvkQ.length

/-- What RVK of a context's generation register holds: 1 while a revoke of the context waits or runs. -/
def State.rvkMark (s : State) (c : Nat) : Nat := if (s.xlt.rvkQ ++ s.xlt.rvkRun).any (fun r => r.ctx == c) then 1 else 0

theorem State.rvkCounts_xlt (s : State) : s.rvkCounts.xlt = s.xlt := rfl

theorem State.rvkStat_eq (s : State) (c : Nat) : s.rvkStat c = s.rvkCounts.setFld F.XLT_CTX_GEN_RVK (s.rvkMark c) 0 c := by
  have h : s.rvkStat c = s.rvkCounts.setFld F.XLT_CTX_GEN_RVK (s.rvkCounts.rvkMark c) 0 c := by
    unfold State.rvkStat State.rvkMark State.rvkCounts
    rfl
  rw [h, State.rvkMark, s.rvkCounts_xlt, State.rvkMark]

theorem State.rvkStat_xlt (s : State) (c : Nat) : (s.rvkStat c).xlt = s.xlt := by
  rw [s.rvkStat_eq, State.setFld_xlt, s.rvkCounts_xlt]

theorem State.rvkStat_queued (s : State) (c : Nat) : (s.rvkStat c).fld F.XLT_RVK_STAT_QUEUED = s.xlt.rvkQ.length % 2 ^ 7 := by
  rw [s.rvkStat_eq]
  exact (State.fld_setFld_other _ (f := F.XLT_CTX_GEN_RVK) (g := F.XLT_RVK_STAT_QUEUED) _ (rvkStat_ne_ctxGen c)).trans
    (State.fld_setFld_same _ F.XLT_RVK_STAT_QUEUED _ _ _ _ (by decide))

theorem State.rvkStat_busy (s : State) (c : Nat) (h : s.xlt.rvkRun ≠ []) : (s.rvkStat c).flag F.XLT_RVK_STAT_BUSY = true := by
  have hb : s.xlt.rvkRun.isEmpty = false := by simpa using h
  have hf : (s.rvkStat c).fld F.XLT_RVK_STAT_BUSY = (if s.xlt.rvkRun.isEmpty then 0 else 1) % 2 ^ 1 := by
    rw [s.rvkStat_eq]
    exact (State.fld_setFld_other _ (f := F.XLT_CTX_GEN_RVK) (g := F.XLT_RVK_STAT_BUSY) _ (rvkStat_ne_ctxGen c)).trans
      ((State.fld_setFld_beside _ (f := F.XLT_RVK_STAT_QUEUED) (g := F.XLT_RVK_STAT_BUSY) _ _ _ _ rfl (by decide) (by decide)).trans
        (State.fld_setFld_same _ F.XLT_RVK_STAT_BUSY _ _ _ _ (by decide)))
  rw [State.flag, hf, hb]
  decide

theorem State.rvkStat_rvk (s : State) (c : Nat) (h : ∃ r ∈ s.xlt.rvkQ ++ s.xlt.rvkRun, r.ctx = c) : (s.rvkStat c).flag F.XLT_CTX_GEN_RVK 0 c = true := by
  have hm : s.rvkMark c = 1 := by
    obtain ⟨r, hr, he⟩ := h
    exact if_pos (List.any_eq_true.2 ⟨r, hr, by rw [he, beq_self_eq_true]⟩)
  have hf : (s.rvkStat c).fld F.XLT_CTX_GEN_RVK 0 c = s.rvkMark c % 2 ^ 1 := by
    rw [s.rvkStat_eq]
    exact State.fld_setFld_same _ F.XLT_CTX_GEN_RVK _ _ _ _ (by decide)
  rw [State.flag, hf, hm]
  decide

/-- The generation of the context, and every segment's attributes, are left as they are. -/
theorem State.rvkStat_gen (s : State) (c : Nat) : (s.rvkStat c).gen c = s.gen c := by
  rw [s.rvkStat_eq]
  exact (State.fld_setFld_beside _ (f := F.XLT_CTX_GEN_RVK) (g := F.XLT_CTX_GEN_GEN) _ _ _ _ rfl (by decide) (by decide)).trans
    ((State.fld_setFld_other _ (f := F.XLT_RVK_STAT_QUEUED) (g := F.XLT_CTX_GEN_GEN) _ (rvkStat_ne_ctxGen c).symm).trans
      (State.fld_setFld_other _ (f := F.XLT_RVK_STAT_BUSY) (g := F.XLT_CTX_GEN_GEN) _ (rvkStat_ne_ctxGen c).symm))

theorem State.rvkStat_segAttr (s : State) {c : Nat} (hc : c < 4096) (d g : Nat) : (s.rvkStat c).segAttr d g = s.segAttr d g := by
  rw [s.rvkStat_eq]
  exact (State.regVal_setReg_other _ (r := .XLT_CTX_GEN) (r' := .XLT_SEG_ATTR) _ (segAttr_ne_ctxGen hc d g)).trans
    ((State.regVal_setReg_other _ (r := .XLT_RVK_STAT) (r' := .XLT_SEG_ATTR) _ (segAttr_ne_rvkStat d g)).trans
      (State.regVal_setReg_other _ (r := .XLT_RVK_STAT) (r' := .XLT_SEG_ATTR) _ (segAttr_ne_rvkStat d g)))

/-! ### A revoke is queued -/

/-- Registers, stacks and interrupt sources apart, `t` is `s`. -/
def State.onBatches (s t : State) : Prop := t = { s with regs := t.regs, stks := t.stks, intc := t.intc }

theorem State.onBatches.trans {s t u : State} (h : s.onBatches t) (g : t.onBatches u) : s.onBatches u := by
  unfold State.onBatches at *
  rw [g, h]

theorem State.onBatches_setFld (s : State) (f : Fld) (v inst i j : Nat) : s.onBatches (s.setFld f v inst i j) := rfl

theorem State.onBatches_setStk (s : State) (x : Nat) (k : Stk) : s.onBatches (s.setStk x k) := rfl

theorem State.onBatches_raise (s : State) (n : Nat) : s.onBatches (s.raise n) := by
  rw [s.raise_eq n]
  rfl

theorem State.onBatches_freeSlot (s : State) (x k : Nat) (st : Status) : s.onBatches (s.freeSlot x k st) :=
  (((s.onBatches_setStk x _).trans (State.onBatches_setFld _ _ _ _ _ _)).trans (State.onBatches_setFld _ _ _ _ _ _)).trans (State.onBatches_raise _ _)

theorem State.onBatches_endBatches (s : State) (p : Nat → Nat → Bool) (st : Status) : s.onBatches (s.endBatches p st) :=
  List.foldlRecOn (motive := fun t => s.onBatches t) _ _ (rfl : s.onBatches s) fun _ ht _ _ => ht.trans (State.onBatches_freeSlot _ _ _ _)

theorem State.onBatches_rvkStat (s : State) (c : Nat) : s.onBatches (s.rvkStat c) := by
  rw [s.rvkStat_eq]
  exact ((s.onBatches_setFld F.XLT_RVK_STAT_BUSY _ _ _ _).trans (State.onBatches_setFld _ F.XLT_RVK_STAT_QUEUED _ _ _ _)).trans
    (State.onBatches_setFld _ _ _ _ _ _)

theorem State.onBatches.xlt {s t : State} (h : s.onBatches t) : t.xlt = s.xlt := by rw [h]

/-- The revoke that a command's registers describe. -/
def State.newRevoke (s : State) (c g typ tag : Nat) : Revoke :=
  { ctx := c, seg := g, typ := typ, first := s.fld F.XLT_RVK_RANGE_FIRST, count := s.fld F.XLT_RVK_RANGE_COUNT, new := s.regVal .XLT_RVK_NEW, tag := tag }

def State.enqueueRevoke (s : State) (r : Revoke) : State := { s with xlt := { s.xlt with rvkQ := s.xlt.rvkQ ++ [r] } }

/-- The state once a revoke waits: the open migration batches of its context have ended (R142). -/
def State.revokeQueued (s : State) (r : Revoke) : State := ((s.enqueueRevoke r).endBatches (fun x _ => x == r.ctx) .revoked).rvkStat r.ctx

theorem State.queueRevoke_eq {w : Writer} {s : State} (h : s.admits w .XLT_RVK_CMD 0) (c g typ tag : Nat) :
    let s1 := s.wakeFor w
    s.queueRevoke w c g typ tag =
      if !s1.imageOk c g typ (s1.regVal .XLT_RVK_NEW) then s1.respond .accessDenied
      else if 64 ≤ s1.xlt.rvkQ.length then s1.respond .busy
      else (s1.revokeQueued (s1.newRevoke c g typ tag)).respond .ok :=
  State.regWrite_admitted h _

theorem State.revokeQueued_onBatches (s : State) (r : Revoke) : (s.enqueueRevoke r).onBatches (s.revokeQueued r) :=
  (State.onBatches_endBatches _ _ _).trans (State.onBatches_rvkStat _ _)

theorem State.revokeQueued_xlt (s : State) (r : Revoke) : (s.revokeQueued r).xlt = { s.xlt with rvkQ := s.xlt.rvkQ ++ [r] } :=
  (s.revokeQueued_onBatches r).xlt

theorem State.revokeQueued_count (s : State) (r : Revoke) (h : s.xlt.rvkQ.length < 64) :
    (s.revokeQueued r).fld F.XLT_RVK_STAT_QUEUED = s.xlt.rvkQ.length + 1 := by
  rw [State.revokeQueued, State.rvkStat_queued, (State.onBatches_endBatches _ _ _).xlt]
  simp only [State.enqueueRevoke, List.length_append, List.length_singleton]
  omega

theorem State.revokeQueued_flag (s : State) (r : Revoke) : (s.revokeQueued r).flag F.XLT_CTX_GEN_RVK 0 r.ctx = true := by
  refine State.rvkStat_rvk _ _ ⟨r, ?_, rfl⟩
  rw [(State.onBatches_endBatches _ _ _).xlt]
  simp [State.enqueueRevoke]

/-- What a write of a revoke command does (R57). -/
theorem State.queueRevoke_holds {w : Writer} {s : State} (h : s.admits w .XLT_RVK_CMD 0) (c g typ tag : Nat) {i : Instr}
    (hi : exec i s = .next (s.queueRevoke w c g typ tag)) :
    let s1 := s.wakeFor w
    let new := s1.regVal .XLT_RVK_NEW
    (s1.imageOk c g typ new = false → exec i s = .next (s1.respond .accessDenied)) ∧
    (s1.imageOk c g typ new = true → 64 ≤ s1.xlt.rvkQ.length → exec i s = .next (s1.respond .busy)) ∧
    (s1.imageOk c g typ new = true → s1.xlt.rvkQ.length < 64 → ∃ t, exec i s = .next t ∧ t.rsp = (.ok, 0) ∧
      t.xlt = { s1.xlt with rvkQ := s1.xlt.rvkQ ++
        [{ ctx := c, seg := g, typ := typ, first := s1.fld F.XLT_RVK_RANGE_FIRST, count := s1.fld F.XLT_RVK_RANGE_COUNT, new := new, tag := tag }] } ∧
      t.fld F.XLT_RVK_STAT_QUEUED = s1.xlt.rvkQ.length + 1 ∧ t.flag F.XLT_CTX_GEN_RVK 0 c = true ∧
      t = { s1 with xlt := t.xlt, regs := t.regs, stks := t.stks, intc := t.intc, rsp := t.rsp }) := by
  intro s1 new
  rw [hi, State.queueRevoke_eq h]
  refine ⟨fun ho => by rw [if_pos (by rw [ho]; rfl)], fun ho hl => ?_, fun ho hl => ?_⟩
  · rw [if_neg (by rw [ho]; decide), if_pos hl]
  · rw [if_neg (by rw [ho]; decide), if_neg (Nat.not_le.2 hl)]
    have hx := s1.revokeQueued_xlt (s1.newRevoke c g typ tag)
    have hc := s1.revokeQueued_count (s1.newRevoke c g typ tag) hl
    have hf := s1.revokeQueued_flag (s1.newRevoke c g typ tag)
    have hb := s1.revokeQueued_onBatches (s1.newRevoke c g typ tag)
    generalize s1.revokeQueued (s1.newRevoke c g typ tag) = u at *
    refine ⟨u.respond .ok, rfl, rfl, hx, hc, hf, ?_⟩
    unfold State.onBatches at hb
    rw [hb]
    rfl

end Sys2Proof.Machine
end

section
/-!
A revoke starts (R58 steps 1 and 2, R87, R115): the stages of `execRevokeStart` by name, and what the state after them holds.
-/
namespace Sys2Proof.Machine
open Sys2Proof

/-! ### The stages -/

/-- The revoke leaves its queue. -/
def State.unqueued (s : State) (r : Revoke) : State := { s with xlt := { s.xlt with rvkQ := s.xlt.rvkQ.erase r } }

/-- The revoke with its segment's attributes as they stood before step 1. -/
def State.revokeNoted (s : State) (r : Revoke) : Revoke := { r with old := [(r.seg, s.segAttr r.ctx r.seg)] }

/-- Step 1: the generation goes up and the segment takes its new attributes, or becomes invalid. -/
def State.reattribute (s : State) (r : Revoke) : State :=
  let s := s.bump F.XLT_CTX_GEN_GEN 1 0 r.ctx
  if r.typ ≤ 2 then s.setReg .XLT_SEG_ATTR r.new 0 r.ctx r.seg else s.setFld F.XLT_SEG_ATTR_V 0 0 r.ctx r.seg

/-- The buffered translations of a context are dropped and regions become invalid (step 2, R87). -/
def State.dropBuffered (s : State) (c : Nat) (dead : List Nat) : State := dead.foldl State.killRegion (s.invalidate (fun x _ => x == c))

/-- Pieces of the context that have not started are marked. -/
def State.markRevoked (s : State) (c : Nat) : State :=
  s.setOrd { s.ord with reqs := s.ord.reqs.map (fun x =>
    if x.chan.ctx = c then { x with pieces := x.pieces.map (fun p => if p.unstarted then { p with rvk := true } else p) } else x) }

def State.runRevoke (s : State) (r : Revoke) : State := { s with xlt := { s.xlt with rvkRun := s.xlt.rvkRun ++ [r] } }

/-- Tracked lines of withdrawn frames are recalled (R115). -/
def State.recallWithdrawn (s : State) (r : Revoke) : State := (s.trackedFrames.filter (s.withdraws r)).foldl State.recallFrame s

/-- A revoke of one segment starts. -/
def State.startRevoke (s : State) (r : Revoke) (dead : List Nat) : State :=
  (((((s.reattribute r).dropBuffered r.ctx dead).markRevoked r.ctx).runRevoke r).recallWithdrawn r).rvkStat r.ctx

/-! ### Registers and buffers through the stages -/

section Offsets

theorem segAttr_mod (c g : Nat) : RegName.XLT_SEG_ATTR.addr 0 c g % 16 = 8 := by
  simp only [RegName.addr, RegName.home, RegName.spec, Block.origin, reduceCtorEq, if_true, if_false]
  omega

theorem ctxGen_mod (c : Nat) : RegName.XLT_CTX_GEN.addr 0 c 0 % 16 = 8 := by
  simp only [RegName.addr, RegName.home, RegName.spec, Block.origin, reduceCtorEq, if_true, if_false]
  omega

theorem rgnId_mod (r : Nat) : RegName.XLT_VER_RGN_ID.addr 0 r 0 % 16 = 0 := by
  simp only [RegName.addr, RegName.home, RegName.spec, Block.origin, reduceCtorEq, if_true, if_false]
  omega

theorem segAttr_low {c g : Nat} (hc : c < 4096) (hg : g < 8) : xltAt (RegName.XLT_SEG_ATTR.addr 0 c g) := by
  simp only [xltAt, RegName.addr, RegName.home, RegName.spec, Block.origin, reduceCtorEq, if_true, if_false]
  omega

theorem ctxGen_low {c : Nat} (hc : c < 4096) : xltAt (RegName.XLT_CTX_GEN.addr 0 c 0) := by
  simp only [xltAt, RegName.addr, RegName.home, RegName.spec, Block.origin, reduceCtorEq, if_true, if_false]
  omega

end Offsets

section Stages
variable (s : State) (r : Revoke)

theorem State.reattribute_xlt : (s.reattribute r).xlt = s.xlt := by
  unfold State.reattribute
  dsimp only
  split <;> rfl

theorem State.gen_bumped (c : Nat) : (s.bump F.XLT_CTX_GEN_GEN 1 0 c).gen c = (s.gen c + 1) % 2 ^ F.XLT_CTX_GEN_GEN.width :=
  State.fld_setFld_same s F.XLT_CTX_GEN_GEN _ _ _ _ (by decide)

theorem State.segAttr_bumped {c : Nat} (hc : c < 4096) (d g : Nat) : (s.bump F.XLT_CTX_GEN_GEN 1 0 c).segAttr d g = s.segAttr d g :=
  State.regVal_setReg_other s (r := .XLT_CTX_GEN) (r' := .XLT_SEG_ATTR) _ (segAttr_ne_ctxGen hc d g)

variable {r}

theorem State.reattribute_gen (hc : r.ctx < 4096) : (s.reattribute r).gen r.ctx = (s.gen r.ctx + 1) % 2 ^ F.XLT_CTX_GEN_GEN.width := by
  unfold State.reattribute
  dsimp only
  split
  · exact (State.fld_setReg_other _ (r := .XLT_SEG_ATTR) (g := F.XLT_CTX_GEN_GEN) _ (segAttr_ne_ctxGen hc _ _).symm).trans (s.gen_bumped _)
  · exact (State.fld_setFld_other _ (f := F.XLT_SEG_ATTR_V) (g := F.XLT_CTX_GEN_GEN) _ (segAttr_ne_ctxGen hc _ _).symm).trans (s.gen_bumped _)

theorem State.reattribute_segAttr (hc : r.ctx < 4096) : (s.reattribute r).segAttr r.ctx r.seg =
    if r.typ ≤ 2 then r.new % 2 ^ 64 else setBits (s.segAttr r.ctx r.seg) F.XLT_SEG_ATTR_V.lo F.XLT_SEG_ATTR_V.width 0 := by
  unfold State.reattribute
  dsimp only
  split
  · exact State.regVal_setReg_same _ _ _ _ _ _
  · refine (State.regVal_setReg_same _ _ _ _ _ _).trans ?_
    rw [show (s.bump F.XLT_CTX_GEN_GEN 1 0 r.ctx).regVal F.XLT_SEG_ATTR_V.reg 0 r.ctx r.seg = s.segAttr r.ctx r.seg from s.segAttr_bumped hc _ _]
    exact Nat.mod_eq_of_lt (setBits_lt (s.regVal_lt _ _ _ _) (by decide))

theorem State.killRegion_xlt (n : Nat) : (s.killRegion n).xlt = s.xlt := rfl

theorem State.killRegion_keeps (n : Nat) : s.keepsAt (fun a => a % 16 = 8) (s.killRegion n) :=
  s.keepsAt_setFld (f := F.XLT_VER_RGN_ID_V) _ (by
    show ¬RegName.XLT_VER_RGN_ID.addr 0 n 0 % 16 = 8
    rw [rgnId_mod n]
    decide)

theorem State.dropBuffered_xlt (c : Nat) (dead : List Nat) : (s.dropBuffered c dead).xlt = (s.invalidate (fun x _ => x == c)).xlt :=
  List.foldlRecOn (motive := fun t => t.xlt = (s.invalidate (fun x _ => x == c)).xlt) dead State.killRegion rfl
    fun t ht n _ => (t.killRegion_xlt n).trans ht

theorem State.dropBuffered_keeps (c : Nat) (dead : List Nat) : s.keepsAt (fun a => a % 16 = 8) (s.dropBuffered c dead) :=
  (State.keepsAt_of_regs _ (show (s.invalidate (fun x _ => x == c)).regs = s.regs from rfl)).trans
    (State.keepsAt_foldl (fun t n _ => t.killRegion_keeps n) _)

theorem State.invalidate_tlb (c : Nat) (e : Engine) (x : List TlbEntry) (h : (e, x) ∈ (s.invalidate (fun a _ => a == c)).xlt.tlb) : ∀ y ∈ x, y.ctx ≠ c := by
  obtain ⟨⟨e', x'⟩, -, he⟩ := List.mem_map.1 h
  obtain ⟨-, rfl⟩ := Prod.mk.inj he
  intro y hy
  simpa using (List.mem_filter.1 hy).2

theorem State.invalidate_l2 (c i : Nat) (x : List L2Entry) (h : (i, x) ∈ (s.invalidate (fun a _ => a == c)).xlt.l2) : ∀ y ∈ x, y.run.ctx ≠ c := by
  obtain ⟨⟨e', x'⟩, -, he⟩ := List.mem_map.1 (List.mem_filter.1 h).1
  obtain ⟨-, rfl⟩ := Prod.mk.inj he
  intro y hy
  simpa using (List.mem_filter.1 hy).2

/-- From the marking of the pieces to the last recall, translation keeps its tables but for the list of running revokes. -/
theorem State.recalled_keeps (s : State) (r : Revoke) : (((s.markRevoked r.ctx).runRevoke r)).keepsXlt (((s.markRevoked r.ctx).runRevoke r).recallWithdrawn r) :=
  State.keepsXlt_foldl (fun t f => t.keepsXlt_recallFrame f) _ _

end Stages

/-! ### What has started -/

section Started
variable (s : State) (r : Revoke) (dead : List Nat)

/-- The state of a started revoke before `rvkStat`: its tables, and its registers of translation. -/
def State.revokeRuns : State := ((((s.reattribute r).dropBuffered r.ctx dead).markRevoked r.ctx).runRevoke r).recallWithdrawn r

theorem State.startRevoke_eq : s.startRevoke r dead = (s.revokeRuns r dead).rvkStat r.ctx := rfl

theorem State.revokeRuns_xlt : (s.revokeRuns r dead).xlt =
    { ((s.reattribute r).invalidate (fun x _ => x == r.ctx)).xlt with rvkRun := s.xlt.rvkRun ++ [r] } := by
  have hd := (s.reattribute r).dropBuffered_xlt r.ctx dead
  have hm : ∀ t : State, ((t.markRevoked r.ctx).runRevoke r).xlt = { t.xlt with rvkRun := t.xlt.rvkRun ++ [r] } := fun t => rfl
  have hr : ((s.reattribute r).invalidate (fun x _ => x == r.ctx)).xlt.rvkRun = s.xlt.rvkRun := by
    show (s.reattribute r).xlt.rvkRun = _
    rw [s.reattribute_xlt]
  rw [State.revokeRuns, (State.recalled_keeps _ _).xlt, hm, hd, hr]

theorem State.startRevoke_xlt : (s.startRevoke r dead).xlt =
    { ((s.reattribute r).invalidate (fun x _ => x == r.ctx)).xlt with rvkRun := s.xlt.rvkRun ++ [r] } := by
  rw [s.startRevoke_eq, State.rvkStat_xlt, s.revokeRuns_xlt]

theorem State.revokeRuns_keeps : (s.reattribute r).keepsAt (fun a => xltAt a ∧ a % 16 = 8) (s.revokeRuns r dead) :=
  (((s.reattribute r).dropBuffered_keeps r.ctx dead).mono fun _ h => h.2).trans
    ((State.keepsAt_of_regs _ (show ((((s.reattribute r).dropBuffered r.ctx dead).markRevoked r.ctx).runRevoke r).regs = _ from rfl)).trans
      ((State.recalled_keeps _ r).regs.mono fun _ h => h.1))

variable {r}

theorem State.startRevoke_gen (hc : r.ctx < 4096) : (s.startRevoke r dead).gen r.ctx = (s.gen r.ctx + 1) % 2 ^ F.XLT_CTX_GEN_GEN.width := by
  rw [s.startRevoke_eq, State.rvkStat_gen, ← s.reattribute_gen hc]
  exact (s.revokeRuns_keeps r dead).fld (f := F.XLT_CTX_GEN_GEN) ⟨ctxGen_low hc, ctxGen_mod _⟩

theorem State.startRevoke_segAttr (hc : r.ctx < 4096) (hg : r.seg < 8) : (s.startRevoke r dead).segAttr r.ctx r.seg =
    if r.typ ≤ 2 then r.new % 2 ^ 64 else setBits (s.segAttr r.ctx r.seg) F.XLT_SEG_ATTR_V.lo F.XLT_SEG_ATTR_V.width 0 := by
  rw [s.startRevoke_eq, State.rvkStat_segAttr _ hc, ← s.reattribute_segAttr hc]
  exact (s.revokeRuns_keeps r dead).regVal (r := .XLT_SEG_ATTR) ⟨segAttr_low hc hg, segAttr_mod _ _⟩

theorem State.startRevoke_rvk : (s.startRevoke r dead).flag F.XLT_CTX_GEN_RVK 0 r.ctx = true := by
  rw [s.startRevoke_eq]
  refine State.rvkStat_rvk _ _ ⟨r, ?_, rfl⟩
  rw [s.revokeRuns_xlt]
  simp

theorem State.startRevoke_busy : (s.startRevoke r dead).flag F.XLT_RVK_STAT_BUSY = true := by
  rw [s.startRevoke_eq]
  refine State.rvkStat_busy _ _ ?_
  rw [s.revokeRuns_xlt]
  simp

end Started

/-! ### The command -/

section Command
variable {c : Ctx} {s : State} {r : Revoke}

/-- A revoke is refused as it starts: its image is not admissible, or its segment is not valid. -/
def State.revokeRefused (s : State) (r : Revoke) : Bool := !s.imageOk r.ctx r.seg r.typ r.new || (r.typ ≤ 3 && !s.segV r.ctx r.seg)

theorem State.unqueued_refused (x : Revoke) : (s.unqueued x).revokeRefused r = s.revokeRefused r := rfl

theorem State.unqueued_noted (x : Revoke) : (s.unqueued x).revokeNoted r = s.revokeNoted r := rfl

theorem revokeStart_idle (h : (∃ r ∈ s.xlt.rvkRun, r.ctx = c.val) ∨ (∀ r ∈ s.xlt.rvkQ, r.ctx ≠ c.val)) : exec (.revokeStart c) s = .next s := by
  show execRevokeStart c s = _
  unfold execRevokeStart
  split
  · rfl
  next hr =>
    rcases h with ⟨r, hm, he⟩ | h
    · exact absurd (List.any_eq_true.2 ⟨r, hm, by rw [he, beq_self_eq_true]⟩) hr
    · rw [List.find?_eq_none.2 fun x hx => by simpa using h x hx]

theorem revokeStart_refused (hr : ∀ x ∈ s.xlt.rvkRun, x.ctx ≠ c.val) (hq : s.xlt.rvkQ.find? (fun r => r.ctx == c.val) = some r)
    (h : s.revokeRefused r = true) : exec (.revokeStart c) s = .next ((s.unqueued r).revokeDone r .accessDenied 0) := by
  have hn : ¬s.xlt.rvkRun.any (fun r => r.ctx == c.val) = true := by simpa using hr
  show execRevokeStart c s = _
  unfold execRevokeStart
  rw [if_neg hn, hq]
  dsimp only
  rw [if_pos (by exact h)]
  rfl

theorem revokeStart_started (hr : ∀ x ∈ s.xlt.rvkRun, x.ctx ≠ c.val) (hq : s.xlt.rvkQ.find? (fun r => r.ctx == c.val) = some r)
    (h : s.revokeRefused r = false) (ht : r.typ ≤ 3) :
    ∃ dead, exec (.revokeStart c) s = .next ((s.unqueued r).startRevoke (s.revokeNoted r) dead) := by
  have hn : ¬s.xlt.rvkRun.any (fun r => r.ctx == c.val) = true := by simpa using hr
  have h4 : ¬r.typ = 4 := by omega
  refine ⟨(s.unqueued r).killedRegions (s.revokeNoted r), congrArg Host.Outcome.next ?_⟩
  rw [if_neg hn, hq]
  refine (if_neg (by rw [Bool.not_eq_true]; exact h)).trans ?_
  have hv : s.segV r.ctx r.seg = true := by simpa [State.revokeRefused, ht] using (Bool.or_eq_false_iff.1 h).2
  extract_lets segs x r' dead s1 s2 s3 s4 s5 q s6 s7 x' s8 s9
  have hr' : r' = s.revokeNoted r := by
    have hsegs : segs = [r.seg] := if_neg h4
    have hf : segs.filter (fun g => s.segV r.ctx g) = [r.seg] := by rw [hsegs, List.filter_singleton, hv]; rfl
    exact congrArg (fun l : List Nat => { r with old := l.map (fun g => (g, s.segAttr r.ctx g)) }) hf
  have h1 : s1 = s.unqueued r := if_neg h4
  have h3 : s3 = s1.reattribute r' := by
    unfold s3 s2 State.reattribute
    by_cases h2 : r'.typ ≤ 2
    · exact (if_pos h2).trans (if_pos h2).symm
    · have h3 : r'.typ = 3 := Nat.le_antisymm ht (Nat.lt_of_not_le h2)
      exact ((if_neg h2).trans (if_pos h3)).trans (if_neg h2).symm
  have h5 : s5 = s3.dropBuffered r'.ctx ((s.unqueued r).killedRegions r') := rfl
  have h6 : s6 = s5.markRevoked r'.ctx := rfl
  have h7 : s7 = s6 := if_neg h4
  have h9 : s9 = (s7.runRevoke r').recallWithdrawn r' := rfl
  rw [h9, h7, h6, h5, h3, h1, hr', State.startRevoke]

end Command
end Sys2Proof.Machine
end

section
/-!
Revokes start and end (R57, R58), and the statement of the family's translation part.
-/
namespace Sys2Proof.Machine
open Sys2Proof

section Revokes
variable (c : Ctx) (s : State)

/-- What a started revoke of one segment leaves (R58 steps 1 and 2). -/
theorem revokeStart_holds :
    ((∃ r ∈ s.xlt.rvkRun, r.ctx = c.val) ∨ (∀ r ∈ s.xlt.rvkQ, r.ctx ≠ c.val) → exec (.revokeStart c) s = .next s) ∧
    (∀ r, (∀ x ∈ s.xlt.rvkRun, x.ctx ≠ c.val) → s.xlt.rvkQ.find? (fun r => r.ctx == c.val) = some r →
      (s.revokeRefused r = true → exec (.revokeStart c) s = .next ((s.unqueued r).revokeDone r .accessDenied 0)) ∧
      (s.revokeRefused r = false → r.typ ≤ 3 → r.ctx < 4096 → r.seg < 8 →
        ∃ t r', exec (.revokeStart c) s = .next t ∧ t.xlt.rvkQ = s.xlt.rvkQ.erase r ∧ t.xlt.rvkRun = s.xlt.rvkRun ++ [r'] ∧
          r' = { r with old := [(r.seg, s.segAttr r.ctx r.seg)] } ∧
          t.gen r.ctx = (s.gen r.ctx + 1) % 2 ^ F.XLT_CTX_GEN_GEN.width ∧
          t.segAttr r.ctx r.seg = (if r.typ ≤ 2 then r.new % 2 ^ 64 else setBits (s.segAttr r.ctx r.seg) F.XLT_SEG_ATTR_V.lo F.XLT_SEG_ATTR_V.width 0) ∧
          (∀ e x, (e, x) ∈ t.xlt.tlb → ∀ y ∈ x, y.ctx ≠ r.ctx) ∧ (∀ i x, (i, x) ∈ t.xlt.l2 → ∀ y ∈ x, y.run.ctx ≠ r.ctx) ∧
          t.flag F.XLT_CTX_GEN_RVK 0 r.ctx = true ∧ t.flag F.XLT_RVK_STAT_BUSY = true)) := by
  refine ⟨revokeStart_idle, fun r hr hq => ⟨revokeStart_refused hr hq, fun h ht hc hg => ?_⟩⟩
  obtain ⟨dead, he⟩ := revokeStart_started hr hq h ht
  have hx := (s.unqueued r).startRevoke_xlt (s.revokeNoted r) dead
  have hq : ((s.unqueued r).reattribute (s.revokeNoted r)).xlt.rvkQ = s.xlt.rvkQ.erase r := by
    rw [State.reattribute_xlt, State.unqueued]
  refine ⟨_, s.revokeNoted r, he, (congrArg Xlt.rvkQ hx).trans hq, congrArg Xlt.rvkRun hx, rfl,
    State.startRevoke_gen _ dead (r := s.revokeNoted r) hc, State.startRevoke_segAttr _ dead (r := s.revokeNoted r) hc hg, fun e x hm => ?_, fun i x hm => ?_,
    State.startRevoke_rvk _ dead, State.startRevoke_busy _ dead⟩
  · rw [hx] at hm
    exact State.invalidate_tlb _ _ _ _ hm
  · rw [hx] at hm
    exact State.invalidate_l2 _ _ _ _ hm

/-! ### A revoke ends -/

/-- A running revoke ends, reporting how many requests step 4 ended (step 5). -/
def State.endRevoke (s : State) (r : Revoke) (n : Nat) : State :=
  (({ s with xlt := { s.xlt with rvkRun := s.xlt.rvkRun.erase r } } : State).revokeDone r .ok n).settle

/-- Step 4 is noted, and step 5 waits for the movers of the context (R92). -/
def State.awaitMovers (s : State) (r : Revoke) (n : Nat) : State :=
  ({ s with xlt := { s.xlt with rvkRun := s.xlt.rvkRun.map (fun x => if x = r then { x with ended := some n } else x) } } : State).settle

theorem execRevokeDrainEnd_eq : exec (.revokeDrainEnd c) s =
    .next ((s.settleLooms.xlt.rvkRun.find? (fun r => r.ctx == c.val)).elim s.settleLooms fun r =>
      r.ended.elim
        (if !s.settleLooms.drained r then (if s.settleLooms.oldInFlight r.ctx then s.settleLooms else s.settleLooms.recallRest r)
        else if (s.settleLooms.revokeStep4 r).2.revokeIdle r then (s.settleLooms.revokeStep4 r).2.endRevoke r (s.settleLooms.revokeStep4 r).1
        else (s.settleLooms.revokeStep4 r).2.awaitMovers r (s.settleLooms.revokeStep4 r).1)
        fun n => if s.settleLooms.revokeIdle r then s.settleLooms.endRevoke r n else s.settleLooms) := by
  show execRevokeDrainEnd c s = _
  unfold execRevokeDrainEnd State.endRevoke State.awaitMovers
  generalize s.settleLooms = s1
  dsimp only
  cases s1.xlt.rvkRun.find? _ with
  | none => rfl
  | some r =>
    dsimp only [Option.elim]
    cases r.ended <;> rfl

theorem revokeDrainEnd_holds :
    let s1 := s.settleLooms
    ((∀ r ∈ s1.xlt.rvkRun, r.ctx ≠ c.val) → exec (.revokeDrainEnd c) s = .next s1) ∧
    ∀ r, s1.xlt.rvkRun.find? (fun r => r.ctx == c.val) = some r →
      let ends (u : State) (n : Nat) : Prop := exec (.revokeDrainEnd c) s = .next (u.endRevoke r n)
      (∀ n, r.ended = some n → (s1.revokeIdle r = true → ends s1 n) ∧ (s1.revokeIdle r = false → exec (.revokeDrainEnd c) s = .next s1)) ∧
      (r.ended = none → s1.drained r = false →
        (s1.oldInFlight r.ctx = true → exec (.revokeDrainEnd c) s = .next s1) ∧
        (s1.oldInFlight r.ctx = false → exec (.revokeDrainEnd c) s = .next (s1.recallRest r))) ∧
      (r.ended = none → s1.drained r = true →
        let p := s1.revokeStep4 r
        (p.2.revokeIdle r = true → ends p.2 p.1) ∧
        (p.2.revokeIdle r = false → exec (.revokeDrainEnd c) s = .next (p.2.awaitMovers r p.1))) := by
  intro s1
  have he := execRevokeDrainEnd_eq c s
  refine ⟨fun h => ?_, fun r hr => ?_⟩
  · rw [he, List.find?_eq_none.2 fun x hx => by simpa using h x hx]
    rfl
  · intro ends
    unfold ends
    rw [hr, Option.elim_some] at he
    refine ⟨fun n hn => ?_, fun hn hd => ?_, fun hn hd => ?_⟩
    · rw [hn, Option.elim_some] at he
      exact ⟨fun hi => by rw [he, if_pos hi], fun hi => by rw [he, if_neg (by rw [hi]; decide)]⟩
    · rw [hn, Option.elim_none, if_pos (by rw [hd]; rfl)] at he
      exact ⟨fun ho => by rw [he, if_pos ho], fun ho => by rw [he, if_neg (by rw [ho]; decide)]⟩
    · rw [hn, Option.elim_none, if_neg (by rw [hd]; decide)] at he
      intro p
      exact ⟨fun hi => by rw [he, if_pos hi], fun hi => by rw [he, if_neg (by rw [hi]; decide)]⟩

end Revokes

/-! ### The statement -/

/-- Settles O49: binding, segment and extent writes by what `regWrite` admits; walks, faults and revokes by the stages of their commands. The entries
and probes of a walk are fixed at its start (log 20), the lowest free walker takes it (log 23), and a fault's timeout is decided at the end of
its cycle (log 144). -/
theorem translationWalksFaultsAndRevokes : Obligations.TranslationWalksFaultsAndRevokes := by
  refine ⟨fun w c v s h => xltCtxBindWrite_holds c v h, fun w c g v s h => xltSegAttrWrite_holds c g v h, fun w s h => ⟨extRead_holds h, extWrite_holds h⟩,
    fun q s => ?_, fun w fid s h => resumes_hold fid h, fun q e s => faultTimeout_holds q e s, fun w c g tag s h => ?_,
    fun c s => ⟨(revokeStart_holds c s).1, (revokeStart_holds c s).2, revokeDrainEnd_holds c s⟩⟩
  · exact ⟨(walkStart_holds q s).1, (walkStart_holds q s).2, fun n bad => walkEnd_holds q n bad s, (faultEntryAllocate_holds q s).1,
      (faultEntryAllocate_holds q s).2, (faultRecordWrite_holds q s).1, (faultRecordWrite_holds q s).2⟩
  · exact ⟨State.queueRevoke_holds h c.val g.val 0 tag.toNat rfl, State.queueRevoke_holds h c.val g.val 1 tag.toNat rfl,
      State.queueRevoke_holds h c.val g.val 2 tag.toNat rfl, State.queueRevoke_holds h c.val g.val 3 tag.toNat rfl,
      State.queueRevoke_holds h c.val 0 4 tag.toNat rfl⟩

end Sys2Proof.Machine
end

section
/-!
`pabort` (R75, R77, R224): what it answers at issue, and what its request answers at the end of the cycle.
-/
namespace Sys2Proof.Machine
open Sys2Proof

/-! ### The target of an abort -/

/-- The operation that holds ticket `n`. -/
def Stn.opOfTicket (t : Stn) (n : Nat) : Option PoolOp := (t.ticket n).op.bind (fun m => t.ops.find? (fun o => o.serial == m))

/-- Ticket `n` tells at once how an abort went. -/
def State.tellTicket (s : State) (k n : Nat) (t : Stn) (won : Bool) : Issue :=
  .all (s.setStn k (t.setTicket n { status := if won then .ok else .alreadyComplete })).settle

/-- What an abort does to its target `op`, its own ticket being `n`. -/
def State.abortOp (s : State) (k n : Nat) (t : Stn) (op : Option PoolOp) : Issue :=
  match op with
  | none => s.tellTicket k n t false
  | some o =>
    match o.req.bind s.req with
    | some r => .all ((s.setStn k (({ t with serial := t.serial + 1 } : Stn).setTicket n { op := some t.serial })).decideLate
        (.abort r.chan r.tag (.ticket k n t.serial)))
    | none =>
      if o.req.isNone then (s.count F.XLT_ORD_CNT_ABORT_WON 1 (siteQ k)).tellTicket k n (t.opOver o (busyOutcome o true) []) true
      else s.tellTicket k n t false

section Target
variable (s : State) (k n : Nat) (t : Stn) {o : PoolOp} {id : Nat}

theorem State.abortOp_held (h : o.req = none) :
    s.abortOp k n t (some o) = (s.count F.XLT_ORD_CNT_ABORT_WON 1 (siteQ k)).tellTicket k n (t.opOver o (busyOutcome o true) []) true := by
  simp only [State.abortOp, h, Option.bind_none, Option.isNone_none, if_true]

theorem State.abortOp_sent (h : o.req = some id) {r : Req} (hr : s.req id = some r) :
    s.abortOp k n t (some o) = .all ((s.setStn k (({ t with serial := t.serial + 1 } : Stn).setTicket n { op := some t.serial })).decideLate
      (.abort r.chan r.tag (.ticket k n t.serial))) := by
  simp only [State.abortOp, h, Option.bind_some, hr]

theorem State.abortOp_gone (h : o.req = some id) (hr : s.req id = none) : s.abortOp k n t (some o) = s.tellTicket k n t false := by
  simp only [State.abortOp, h, Option.bind_some, hr, Option.isNone_some, Bool.false_eq_true, if_false]

end Target

/-! ### The instruction -/

theorem abortTarget_eq (i : Insn) : i.immBits 4 4 = i.imm.toNat / 16 % 16 := by
  simp [Insn.immBits, bits, Nat.shiftRight_eq_div_pow]

theorem execPabort_issues (x : SiteId) (w : BitVec 54) (s : State) :
    exec (.pabort x w) s = .next (s.issue x (mifelWord 6 5 w) {} false fun s k t i =>
      if i.immBits 4 4 = 15 then .trap 3 15 0 0
      else if t.ticketBusy (i.immBits 0 4) then .stall
      else s.abortOp k (i.immBits 0 4) t (t.opOfTicket (i.immBits 4 4))) := rfl

theorem pabort_holds (x : SiteId) (w : BitVec 54) (s : State) :
    let k := siteKey x
    let t := s.stn k
    let own : Nat := (insnOf (mifelWord 6 5 w)).imm.toNat % 16
    let target : Nat := (insnOf (mifelWord 6 5 w)).imm.toNat / 16 % 16
    let op : Option PoolOp := t.opOfTicket target
    let gone : State := ((s.setStn k (t.setTicket own { status := .alreadyComplete })).settle).updStn k Stn.advance
    s.issues (.pabort x w) x (mifelWord 6 5 w) {} false (fun u =>
      (target = 15 → u = s.trapStn k 3 15 0 0 (mifelWord 6 5 w) t.pc) ∧
      (target ≠ 15 → t.ticketBusy own = true → u = s) ∧
      (target ≠ 15 → t.ticketBusy own = false →
        (op = none → u = gone) ∧
        (∀ o, op = some o → o.req = none →
          (busyOutcome o true).status = .busy ∧ (busyOutcome o true).abt = true ∧
          u = ((((s.count F.XLT_ORD_CNT_ABORT_WON 1 (siteQ k)).setStn k
            ((t.opOver o (busyOutcome o true) []).setTicket own { status := .ok })).settle).updStn k Stn.advance)) ∧
        (∀ o id r, op = some o → o.req = some id → s.req id = some r →
          u = ((s.setStn k (({ t with serial := t.serial + 1 } : Stn).setTicket own { op := some t.serial })).decideLate
            (.abort r.chan r.tag (.ticket k own t.serial))).updStn k Stn.advance) ∧
        (∀ o id, op = some o → o.req = some id → s.req id = none → u = gone))) := by
  intro k t own target op gone
  refine State.issues_of_issue (execPabort_issues x w s) fun _ _ => ?_
  rw [sysregNumber_eq, abortTarget_eq]
  refine ⟨fun h15 => ?_, fun h15 hb => ?_, fun h15 hb => ?_⟩
  · rw [if_pos h15]
    rfl
  · rw [if_neg h15, if_pos hb]
    rfl
  · rw [if_neg h15, if_neg (Bool.eq_false_iff.1 hb)]
    change (op = none → s.apply k _ (s.abortOp k own t op) = gone) ∧ _
    refine ⟨fun ho => ?_, fun o ho hr => ⟨rfl, rfl, ?_⟩, fun o id r ho hi hr => ?_, fun o id ho hi hr => ?_⟩
    · rw [ho]
      rfl
    · exact congrArg (s.apply k _) ((congrArg _ ho).trans (s.abortOp_held k own t hr))
    · exact congrArg (s.apply k _) ((congrArg _ ho).trans (s.abortOp_sent k own t hi hr))
    · exact congrArg (s.apply k _) ((congrArg _ ho).trans (s.abortOp_gone k own t hi hr))

/-! ### The end of the cycle -/

/-- A ticket that still waits for its abort is told how it went. -/
theorem State.lateAbort_ofTicket (s : State) (c : Chan) (tag key n serial : Nat)
    (h : (smGet {} ((s.abort c tag).2.stn key).tickets n).op = some serial) :
    s.lateNow (.abort c tag (.ticket key n serial)) = (s.abort c tag).2.updStn key (fun t => { t with
      tickets := smSet {} t.tickets n { status := if (s.abort c tag).1 = true then .ok else .alreadyComplete } }) := if_pos h

/-- Settles O16: `pabort` answers by what has become of its target's operation; a request in flight is decided at the end of the cycle (log 144). -/
theorem abortInstruction : Obligations.AbortInstruction :=
  ⟨pabort_holds, State.lateAbort_ofTicket⟩

end Sys2Proof.Machine
end

section
/-!
Version regions (R78 to R90): handles, what the version unit answers, publication and leases.
-/
namespace Sys2Proof.Machine
open Sys2Proof

/-! ### Handles (Table 3-6) -/

/-- A handle gives back what it was made of, and fits 64 bits. -/
theorem vhMake_fields {r slot serial ver : Nat} (p : Bool) (hr : r < 4096) (hslot : slot < 16) (hserial : serial < 32768) (hver : ver < 2 ^ 32) :
    let h := vhMake r slot p serial ver
    vhRegion h = r ∧ vhSlot h = slot ∧ vhPending h = p ∧ vhSerial h = serial ∧ vhVersion h = ver ∧ h < 2 ^ 64 := by
  simp only [vhRegion, vhSlot, vhPending, vhSerial, vhVersion, vhMake, bits, Nat.shiftRight_eq_div_pow, Nat.testBit_eq_decide_div_mod_eq]
  cases p with
  | false =>
    simp only [Bool.false_eq_true, if_false, decide_eq_false_iff_not]
    refine ⟨?_, ?_, ?_, ?_, ?_, ?_⟩ <;> omega
  | true =>
    simp only [if_true, decide_eq_true_eq]
    refine ⟨?_, ?_, ?_, ?_, ?_, ?_⟩ <;> omega

/-! ### OPEN and BEGIN (R80 to R82) -/

section Operations
variable {s : State} {c r base : Nat}

theorem State.verOpen_denied (h : s.verAllowed c r .read = false) : s.verOpen c r = (⟨.accessDenied, 0, 0⟩, s) := by
  unfold State.verOpen
  rw [h]
  rfl

theorem State.verOpen_full (h : s.verAllowed c r .read = true) (hv : 65535 ≤ ((s.region r).slots.getD (s.region r).curSlot {}).opens) :
    s.verOpen c r = (⟨.busy, 0, 0⟩, s) := by
  unfold State.verOpen
  rw [h]
  exact if_pos hv

theorem State.verOpen_opened (h : s.verAllowed c r .read = true) (hv : ((s.region r).slots.getD (s.region r).curSlot {}).opens < 65535) :
    let x := s.region r
    let v := x.slots.getD x.curSlot {}
    s.verOpen c r = (⟨.ok, vhMake r x.curSlot false v.serial x.cur, 0⟩, s.setRegion r (x.setSlot x.curSlot { v with opens := v.opens + 1 })) := by
  unfold State.verOpen
  rw [h]
  exact if_neg (Nat.not_le.2 hv)

theorem State.verBegin_denied (h : s.verAllowed c r .write = false) : s.verBegin c r base = (⟨.accessDenied, 0, 0⟩, s) := by
  unfold State.verBegin
  rw [h]
  rfl

theorem State.verBegin_conflict (h : s.verAllowed c r .write = true) (hb : base ≠ (s.region r).cur) :
    s.verBegin c r base = (⟨.conflict, 0, (s.region r).cur⟩, s) := by
  unfold State.verBegin
  rw [h]
  exact if_pos hb

end Operations

/-! ### A PUBLISH reaches its version unit (R83) -/

/-- A PUBLISH with nothing of its channel before it (R83). -/
def State.publishFirst (s : State) (id : Nat) (r : Req) : Prop := r.kind = .vpublish ∧ r.fixed = none ∧ ∀ y ∈ s.ord.reqs, y.chan = r.chan → id ≤ y.id

/-- The request of PUBLISH_COMMIT may go to its version unit. -/
theorem State.publishGoes_iff (s : State) (id : Nat) (r : Req) :
    (r.kind = .vpublish ∧ r.fixed.isNone ∧ s.ord.reqs.all (fun x => x.chan ≠ r.chan || id ≤ x.id) ∧ !s.atBridge r (vhRegion r.vh % 4)) ↔
      s.publishFirst id r ∧ s.atBridge r (vhRegion r.vh % 4) = false := by
  simp only [State.publishFirst, Option.isNone_iff_eq_none, List.all_eq_true, ne_eq, decide_not, Bool.or_eq_true, Bool.not_eq_true',
    decide_eq_false_iff_not, decide_eq_true_eq, imp_iff_not_or, and_assoc]

theorem execPublishCommit_none {id : Nat} {s : State} (h : s.req id = none) : exec (.publishCommit id) s = .next s := by
  show execPublishCommit id s = _
  unfold execPublishCommit
  rw [h]

theorem execPublishCommit_some {id : Nat} {s : State} {r : Req} (h : s.req id = some r) :
    exec (.publishCommit id) s = .next (if r.kind = .vpublish ∧ r.fixed.isNone ∧ s.ord.reqs.all (fun x => x.chan ≠ r.chan || id ≤ x.id) ∧
      !s.atBridge r (vhRegion r.vh % 4) then s.markUnit id else s) := by
  show execPublishCommit id s = _
  unfold execPublishCommit
  rw [h]

theorem publishCommit_holds (id : Nat) (s : State) :
    (s.req id = none → exec (.publishCommit id) s = .next s) ∧
    (∀ r, s.req id = some r →
      (¬s.publishFirst id r ∨ s.atBridge r (vhRegion r.vh % 4) = true → exec (.publishCommit id) s = .next s) ∧
      (s.publishFirst id r → s.atBridge r (vhRegion r.vh % 4) = false → exec (.publishCommit id) s = .next (s.markUnit id))) := by
  refine ⟨execPublishCommit_none, fun r hr => ⟨fun h => ?_, fun hf hb => ?_⟩⟩
  · rw [execPublishCommit_some hr, if_neg ((s.publishGoes_iff id r).not.2 ?_)]
    rintro ⟨hf, hb⟩
    rcases h with h | h
    · exact h hf
    · exact Bool.false_ne_true (hb.symm.trans h)
  · rw [execPublishCommit_some hr, if_pos ((s.publishGoes_iff id r).2 ⟨hf, hb⟩)]

/-! ### What the version unit answers to a PUBLISH (R83 to R85) -/

section Publish
variable (s : State) (c h : Nat)

/-- A PUBLISH that its version unit accepts: the enable, the mapping and the permission are there, and its handle is a pending version's. -/
def State.publishOk : Prop := s.verAllowed c (vhRegion h) .write = true ∧ vhPending h = true ∧ s.pendStatus h = .ok

/-- A PUBLISH that waits for its pages to be code-clean. -/
def State.publishWaits : Prop :=
  s.flag F.XLT_VER_RGN_CFG_PUBWAIT 0 (vhRegion h) = true ∧ ∃ f ∈ s.ownFrames (vhRegion h) (vhSlot h), s.codeDirty f = true

/-- The pending version of a handle. -/
def State.pendOf : PSlot := (s.region (vhRegion h)).pends.getD (vhSlot h) {}

/-- The slot of the current version of a handle's region. -/
def State.curOf : VSlot := (s.region (vhRegion h)).slots.getD (s.region (vhRegion h)).curSlot {}

/-- One more version would be more than the region's limit of retained ones. -/
def State.publishMany : Prop :=
  (s.curOf h).opens ≠ 0 ∧ max 1 (s.fld F.XLT_VER_RGN_CFG_LIMIT_M1 0 (vhRegion h)) + 1 ≤ (s.region (vhRegion h)).retained

/-- The region without its pending version and with its current version current no longer. -/
def State.superseded : RegionSt :=
  let x := s.region (vhRegion h)
  (x.setPend (vhSlot h) (s.pendOf h).free).setSlot x.curSlot (if (s.curOf h).opens = 0 then (s.curOf h).free false else { s.curOf h with stopped := some s.now })

/-- The number of the version that a PUBLISH makes current. -/
def State.nextVersion : Nat := if (s.region (vhRegion h)).cur = 0xFFFFFFFF then 1 else (s.region (vhRegion h)).cur + 1

/-- The state once the pending version stands in slot `m` as the current one. -/
def State.published (m : Nat) : State :=
  let y := s.superseded h
  let w := y.slots.getD m {}
  (s.setRegion (vhRegion h) { y.setSlot m { w with
      used := true, ver := s.nextVersion h, opens := 0, serial := max 1 w.serial, remap := (s.pendOf h).remap, stopped := none }
    with cur := s.nextVersion h, curSlot := m }).invalidate (fun c e => c == s.rgnCtx (vhRegion h) && e == s.rgnSeg (vhRegion h))

variable {s c h}

theorem State.publishDenied_iff :
    (!s.verAllowed c (vhRegion h) .write || !vhPending h || s.pendStatus h ≠ .ok) = true ↔ ¬s.publishOk c h := by
  simp only [State.publishOk, Bool.or_eq_true, Bool.not_eq_true', decide_eq_true_eq, ne_eq, not_and_or, Bool.not_eq_true, or_assoc]

theorem State.publishWaits_iff :
    (s.flag F.XLT_VER_RGN_CFG_PUBWAIT 0 (vhRegion h) && (s.ownFrames (vhRegion h) (vhSlot h)).any s.codeDirty) = true ↔ s.publishWaits h := by
  simp only [State.publishWaits, Bool.and_eq_true, List.any_eq_true]

theorem State.verPublish_denied (h1 : ¬s.publishOk c h) : s.verPublish c h = some (⟨.accessDenied, 0, 0⟩, s) :=
  if_pos (State.publishDenied_iff.2 h1)

section Accepted
variable (h1 : s.publishOk c h)
include h1

theorem State.verPublish_conflict (h2 : (s.pendOf h).base ≠ (s.region (vhRegion h)).cur) :
    s.verPublish c h = some (⟨.conflict, 0, (s.region (vhRegion h)).cur⟩,
      s.setRegion (vhRegion h) ((s.region (vhRegion h)).setPend (vhSlot h) (s.pendOf h).free)) :=
  (if_neg (State.publishDenied_iff.not.2 (not_not_intro h1))).trans (if_pos h2)

variable (h2 : (s.pendOf h).base = (s.region (vhRegion h)).cur)
include h2

theorem State.verPublish_waits (h3 : s.publishWaits h) : s.verPublish c h = none :=
  (if_neg (State.publishDenied_iff.not.2 (not_not_intro h1))).trans
    ((if_neg (not_not_intro h2)).trans (if_pos (State.publishWaits_iff.2 h3)))

theorem State.verPublish_many (h3 : ¬s.publishWaits h) (h4 : s.publishMany h) : s.verPublish c h = some (⟨.busy, 0, 0⟩, s) :=
  (if_neg (State.publishDenied_iff.not.2 (not_not_intro h1))).trans
    ((if_neg (not_not_intro h2)).trans ((if_neg (State.publishWaits_iff.not.2 h3)).trans (if_pos h4)))

theorem State.verPublish_published (h3 : ¬s.publishWaits h) (h4 : ¬s.publishMany h) {m : Nat} (hm : m < 16)
    (hfree : ((s.superseded h).slots.getD m {}).used = false) (hlow : ∀ j, j < m → ((s.superseded h).slots.getD j {}).used = true) :
    s.verPublish c h = some (⟨.ok, 0, s.nextVersion h⟩, s.published h m) := by
  have hfind : (List.range 16).find? (fun n => !((s.superseded h).slots.getD n {}).used) = some m := by
    rw [List.find?_range_eq_some]
    exact ⟨by rw [hfree]; rfl, List.mem_range.2 hm, fun j hj => by rw [hlow j hj]; rfl⟩
  refine (if_neg (State.publishDenied_iff.not.2 (not_not_intro h1))).trans
    ((if_neg (not_not_intro h2)).trans ((if_neg (State.publishWaits_iff.not.2 h3)).trans ((if_neg h4).trans ?_)))
  show (match (List.range 16).find? (fun n => !((s.superseded h).slots.getD n {}).used) with
    | none => some ((⟨.busy, 0, 0⟩ : VerAns), s)
    | some n => some ((⟨.ok, 0, s.nextVersion h⟩ : VerAns), s.published h n)) = _
  rw [hfind]

end Accepted

end Publish

/-- The version unit answers a PUBLISH unless it must wait (R78). -/
theorem State.unitApply_publish {s : State} {r : Req} (h : r.kind = .vpublish) :
    s.unitApply r = (s.verPublish r.chan.ctx r.vh).elim s fun a =>
      a.2.updReq r.id (fun y => { y with fixed := some a.1.status, result := a.1.result, info := a.1.info }) := by
  have hnow : s.vopNow r = s.verPublish r.chan.ctx r.vh := by simp only [State.vopNow, h]
  unfold State.unitApply
  rw [hnow]
  cases s.verPublish r.chan.ctx r.vh <;> rfl

theorem publish_holds (s : State) (r : Req) (hk : r.kind = .vpublish) :
    let g := vhRegion r.vh
    let answers (u : State) (st : Status) (result info : Nat) : Prop :=
      s.unitApply r = u.updReq r.id (fun y => { y with fixed := some st, result := result, info := info })
    let ok : Prop := s.publishOk r.chan.ctx r.vh
    (¬ok → answers s .accessDenied 0 0) ∧
    (ok → (s.pendOf r.vh).base ≠ (s.region g).cur →
      answers (s.setRegion g ((s.region g).setPend (vhSlot r.vh) (s.pendOf r.vh).free)) .conflict 0 (s.region g).cur) ∧
    (ok → (s.pendOf r.vh).base = (s.region g).cur → s.publishWaits r.vh → s.unitApply r = s) ∧
    (ok → (s.pendOf r.vh).base = (s.region g).cur → ¬s.publishWaits r.vh → s.publishMany r.vh → answers s .busy 0 0) ∧
    (ok → (s.pendOf r.vh).base = (s.region g).cur → ¬s.publishWaits r.vh → ¬s.publishMany r.vh →
      ∀ m, m < 16 → ((s.superseded r.vh).slots.getD m {}).used = false → (∀ j, j < m → ((s.superseded r.vh).slots.getD j {}).used = true) →
        answers (s.published r.vh m) .ok 0 (s.nextVersion r.vh)) := by
  intro g answers ok
  unfold answers
  rw [State.unitApply_publish hk]
  refine ⟨fun h1 => ?_, fun h1 h2 => ?_, fun h1 h2 h3 => ?_, fun h1 h2 h3 h4 => ?_, fun h1 h2 h3 h4 m hm hfree hlow => ?_⟩
  · rw [State.verPublish_denied h1, Option.elim]
  · rw [State.verPublish_conflict h1 h2, Option.elim]
  · rw [State.verPublish_waits h1 h2 h3, Option.elim]
  · rw [State.verPublish_many h1 h2 h3 h4, Option.elim]
  · rw [State.verPublish_published h1 h2 h3 h4 hm hfree hlow, Option.elim]

/-! ### Leases (R81, R88) -/

/-- The lease of slot `n` of region `r` has run out, and the slot still has opens. -/
def State.leaseDue (s : State) (r n : Nat) : Prop :=
  let v := (s.region r).slots.getD n {}
  v.used = true ∧ v.opens ≠ 0 ∧ n ≠ (s.region r).curSlot ∧ s.fld F.XLT_VER_RGN_CFG_LEASE 0 r ≠ 0 ∧
    ∃ t, v.stopped = some t ∧ t + s.fld F.XLT_VER_RGN_CFG_LEASE 0 r * 1000000 ≤ s.now

theorem State.leaseOver_iff (s : State) (r n : Nat) : s.leaseOver r n = true ↔ s.leaseDue r n := by
  unfold State.leaseOver State.leaseDue
  dsimp only
  generalize (s.region r).slots.getD n {} = v
  cases v.stopped with
  | none => simp
  | some t => simp [and_assoc]

theorem versionLease_holds (r : Region) (n : Fin 16) (s : State) :
    let x := s.region r.val
    let v := x.slots.getD n.val {}
    (s.leaseDue r.val n.val → exec (.versionLeaseExpiry r n) s = .next (s.decideLate (.lease r.val n.val)) ∧
      s.lateNow (.lease r.val n.val) = s.setRegion r.val (x.setSlot n.val (v.free true))) ∧
    (¬s.leaseDue r.val n.val → exec (.versionLeaseExpiry r n) s = .next s ∧ s.lateNow (.lease r.val n.val) = s) := by
  intro x v
  have he : exec (.versionLeaseExpiry r n) s = .next (if s.leaseOver r.val n.val then s.decideLate (.lease r.val n.val) else s) := rfl
  have hl : s.lateNow (.lease r.val n.val) = if s.leaseOver r.val n.val then s.endOpens r.val n.val else s := rfl
  rw [he, hl]
  refine ⟨fun h => ?_, fun h => ?_⟩
  · obtain ⟨-, -, hcur, -, -⟩ := id h
    have hover := (s.leaseOver_iff _ _).2 h
    exact ⟨by rw [if_pos hover], (if_pos hover).trans (if_neg hcur)⟩
  · have hover := (s.leaseOver_iff _ _).not.2 h
    rw [if_neg hover, if_neg hover]
    exact ⟨rfl, rfl⟩

end Sys2Proof.Machine
end

section
/-!
Writes of a region's identity and commands of the version unit (R78, R81, R87, R90), and the statement of versions.
-/
namespace Sys2Proof.Machine
open Sys2Proof

section Writes
variable {w : Writer} {s : State}

/-! ### A region is made valid (R78) -/

theorem xltVerRgnIdWrite_holds (r : Region) (v : BitVec 64) (h : s.admits w .XLT_VER_RGN_ID 0) :
    let s1 := s.wakeFor w
    let one : Prop := F.XLT_VER_RGN_ID_V.of v.toNat = 1
    (s1.rgnV r.val = true ∨ (one ∧ s1.regionOk r.val v.toNat = false) → exec (.xltVerRgnIdWrite w r v) s = .next (s1.respond .accessDenied)) ∧
    (s1.rgnV r.val = false → ¬one → ∃ t, exec (.xltVerRgnIdWrite w r v) s = .next t ∧ s1.stored t .XLT_VER_RGN_ID 0 r.val 0 v.toNat) ∧
    (s1.rgnV r.val = false → one → s1.regionOk r.val v.toNat = true →
      let x := s1.region r.val
      let v0 := x.slots.getD 0 {}
      let s2 := s1.setRegion r.val (({ x with cur := 1, curSlot := 0 } : RegionSt).setSlot 0 { used := true, ver := 1, serial := max 1 v0.serial, ended := v0.ended })
      ∃ t, exec (.xltVerRgnIdWrite w r v) s = .next t ∧ s2.stored t .XLT_VER_RGN_ID 0 r.val 0 v.toNat) := by
  intro s1 one
  have he : exec (.xltVerRgnIdWrite w r v) s = .next
      (if s1.rgnV r.val then s1.respond .accessDenied
      else if one then
        (if s1.regionOk r.val v.toNat then
          (s1.setRegion r.val (({ s1.region r.val with cur := 1, curSlot := 0 } : RegionSt).setSlot 0
            { used := true, ver := 1, serial := max 1 ((s1.region r.val).slots.getD 0 {}).serial, ended := ((s1.region r.val).slots.getD 0 {}).ended })).plainWrite
              .XLT_VER_RGN_ID 0 r.val 0 v.toNat
        else s1.respond .accessDenied)
      else s1.plainWrite .XLT_VER_RGN_ID 0 r.val 0 v.toNat) :=
    congrArg Host.Outcome.next (State.regWrite_admitted h _)
  refine ⟨fun hd => ?_, fun hv h1 => ⟨_, ?_, s1.stored_plainWrite _ _ _ _ _⟩, fun hv h1 hok => ⟨_, ?_, State.stored_plainWrite _ _ _ _ _ _⟩⟩
  · rcases hd with hv | ⟨h1, hok⟩
    · rw [he, if_pos hv]
    · rw [he, if_pos h1, hok, if_neg Bool.false_ne_true, ite_self]
  · rw [he, hv, if_neg Bool.false_ne_true, if_neg h1]
  · rw [he, hv, if_neg Bool.false_ne_true, if_pos h1, if_pos hok]

/-! ### Commands (Table 3-11) -/

theorem statusCode_lt (st : Status) : st.code < 2 ^ 4 := by cases st <;> decide

/-- `t` is `u` with STATUS `st` in RESULT, after an access that completed. -/
def State.withResult (u t : State) (st : Status) : Prop :=
  t.fld F.XLT_VER_CSTAT_RESULT = st.code ∧ t = { u with regs := t.regs, rsp := (.ok, 0) } ∧ u.regsBut t [RegName.XLT_VER_CSTAT.addr 0 0 0]

theorem State.withResult_verResult (u : State) (st : Status) : u.withResult (u.verResult st .ok) st :=
  ⟨(u.fld_setFld_same F.XLT_VER_CSTAT_RESULT st.code 0 0 0 (by decide)).trans (Nat.mod_eq_of_lt (statusCode_lt st)), rfl,
    u.regsBut_setFld F.XLT_VER_CSTAT_RESULT st.code 0 0 0⟩

/-- A command of `XLT_VER_CMD` does what it does if its target is in use, and answers in RESULT. -/
theorem State.verCmd_answers (h : s.admits w .XLT_VER_CMD 0) {i : Instr} (used : State → Bool) (f : State → State)
    (he : exec i s = .next (s.regWrite w .XLT_VER_CMD 0 (fun s => if used s then (f s).verResult .ok .ok else s.verResult .accessDenied .ok))) :
    (used (s.wakeFor w) = false → ∃ t, exec i s = .next t ∧ (s.wakeFor w).withResult t .accessDenied) ∧
    (used (s.wakeFor w) = true → ∃ t, exec i s = .next t ∧ (f (s.wakeFor w)).withResult t .ok) := by
  rw [he, State.regWrite_admitted h]
  refine ⟨fun hu => ⟨_, by rw [hu, if_neg Bool.false_ne_true], State.withResult_verResult _ _⟩,
    fun hu => ⟨_, by rw [hu, if_pos rfl], State.withResult_verResult _ _⟩⟩

section Commands
variable (h : s.admits w .XLT_VER_CMD 0) (r : Region) (n : Fin 16)
include h

theorem forceClose_answers : let s1 := s.wakeFor w
    let used := s1.rgnV r.val && ((s1.region r.val).slots.getD n.val {}).used
    (used = false → ∃ t, exec (.forceClose w r n) s = .next t ∧ s1.withResult t .accessDenied) ∧
    (used = true → ∃ t, exec (.forceClose w r n) s = .next t ∧ ((s1.endOpens r.val n.val).settle).withResult t .ok) :=
  State.verCmd_answers h (fun s => s.rgnV r.val && ((s.region r.val).slots.getD n.val {}).used) (fun s => (s.endOpens r.val n.val).settle) rfl

theorem discardPendingSlot_answers : let s1 := s.wakeFor w
    let x := s1.region r.val
    let used := s1.rgnV r.val && (x.pends.getD n.val {}).used
    (used = false → ∃ t, exec (.discardPendingSlot w r n) s = .next t ∧ s1.withResult t .accessDenied) ∧
    (used = true → ∃ t, exec (.discardPendingSlot w r n) s = .next t ∧
      ((s1.setRegion r.val (x.setPend n.val (x.pends.getD n.val {}).free)).settle).withResult t .ok) :=
  State.verCmd_answers h (fun s => s.rgnV r.val && ((s.region r.val).pends.getD n.val {}).used)
    (fun s => (s.setRegion r.val ((s.region r.val).setPend n.val ((s.region r.val).pends.getD n.val {}).free)).settle) rfl

theorem destroyRegion_answers : let s1 := s.wakeFor w
    (s1.rgnV r.val = false → ∃ t, exec (.destroyRegion w r) s = .next t ∧ s1.withResult t .accessDenied) ∧
    (s1.rgnV r.val = true → ∃ t, exec (.destroyRegion w r) s = .next t ∧
      (((s1.killRegion r.val).invalidate (fun c g => c == s1.rgnCtx r.val && g == s1.rgnSeg r.val)).settle).withResult t .ok) :=
  State.verCmd_answers h (fun s => s.rgnV r.val)
    (fun s => ((s.killRegion r.val).invalidate (fun c g => c == s.rgnCtx r.val && g == s.rgnSeg r.val)).settle) rfl

end Commands

/-- What a destroyed region leaves (R87). -/
theorem State.killRegion_holds (s : State) (r : Nat) :
    let x := s.region r
    (s.killRegion r).rgnV r = false ∧
    (s.killRegion r).region r = { cur := 0, curSlot := 0, slots := x.slots.map (fun z => z.free false), pends := x.pends.map PSlot.free } ∧
    s.killRegion r = { s with regs := (s.killRegion r).regs, ver := (s.killRegion r).ver } ∧
    s.regsBut (s.killRegion r) [RegName.XLT_VER_RGN_ID.addr 0 r 0] :=
  ⟨beq_false_of_ne (by
      rw [State.fld_congr (t := s.killRegion r) (s := s.setFld F.XLT_VER_RGN_ID_V 0 0 r) rfl, State.fld_setFld_same _ _ _ _ _ _ (by decide)]
      decide), State.region_setRegion_same _ _ _, rfl, s.regsBut_setFld F.XLT_VER_RGN_ID_V 0 0 r 0⟩

theorem verCommands_hold (r : Region) (n : Fin 16) (h : s.admits w .XLT_VER_CMD 0) :
    let s1 := s.wakeFor w
    let x := s1.region r.val
    let v := x.slots.getD n.val {}
    let y := x.pends.getD n.val {}
    let answers (i : Instr) (u : State) (st : Status) : Prop := ∃ t, exec i s = .next t ∧ u.withResult t st
    (s1.rgnV r.val = false → answers (.forceClose w r n) s1 .accessDenied ∧ answers (.discardPendingSlot w r n) s1 .accessDenied ∧
      answers (.destroyRegion w r) s1 .accessDenied) ∧
    (s1.rgnV r.val = true →
      (v.used = false → answers (.forceClose w r n) s1 .accessDenied) ∧
      (v.used = true → n.val = x.curSlot → answers (.forceClose w r n)
        ((s1.setRegion r.val (x.setSlot n.val { v with opens := 0, serial := nextSerial v.serial, ended := v.ended ++ [v.serial] })).settle) .ok) ∧
      (v.used = true → n.val ≠ x.curSlot → answers (.forceClose w r n) ((s1.setRegion r.val (x.setSlot n.val (v.free true))).settle) .ok) ∧
      (y.used = false → answers (.discardPendingSlot w r n) s1 .accessDenied) ∧
      (y.used = true → answers (.discardPendingSlot w r n) ((s1.setRegion r.val (x.setPend n.val y.free)).settle) .ok) ∧
      ∃ u : State, answers (.destroyRegion w r) ((u.invalidate (fun c g => c == s1.rgnCtx r.val && g == s1.rgnSeg r.val)).settle) .ok ∧
        u.rgnV r.val = false ∧ u.region r.val = { cur := 0, curSlot := 0, slots := x.slots.map (fun z => z.free false), pends := x.pends.map PSlot.free } ∧
        u = { s1 with regs := u.regs, ver := u.ver } ∧ s1.regsBut u [RegName.XLT_VER_RGN_ID.addr 0 r.val 0]) := by
  intro s1 x v y answers
  obtain ⟨closeDenied, closed⟩ := forceClose_answers h r n
  obtain ⟨discardDenied, discarded⟩ := discardPendingSlot_answers h r n
  obtain ⟨destroyDenied, destroyed⟩ := destroyRegion_answers h r
  refine ⟨fun hv => ⟨closeDenied (by rw [hv]; rfl), discardDenied (by rw [hv]; rfl), destroyDenied hv⟩,
    fun hv => ⟨fun hu => closeDenied (by rw [hu, Bool.and_false]), fun hu hn => ?_, fun hu hn => ?_,
      fun hu => discardDenied (by rw [hu, Bool.and_false]), fun hu => discarded (by rw [hv, hu]; rfl),
      s1.killRegion r.val, destroyed hv, s1.killRegion_holds r.val⟩⟩
  · have hend : s1.endOpens r.val n.val =
        s1.setRegion r.val (x.setSlot n.val { v with opens := 0, serial := nextSerial v.serial, ended := v.ended ++ [v.serial] }) := if_pos hn
    rw [← hend]
    exact closed (by rw [hv, hu]; rfl)
  · have hend : s1.endOpens r.val n.val = s1.setRegion r.val (x.setSlot n.val (v.free true)) := if_neg hn
    rw [← hend]
    exact closed (by rw [hv, hu]; rfl)

end Writes

/-! ### The statement -/

/-- Settles O48: each operation of the version unit by the conditions it tests, commands by the RESULT they leave. Operations and leases are decided at
the end of the cycle (log 144); a retained handle's checks stand in the order of log 136. -/
theorem versionsArePublishedClosedAndDestroyed : Obligations.VersionsArePublishedClosedAndDestroyed :=
  ⟨fun _ _ _ _ p hr hslot hserial hver => vhMake_fields p hr hslot hserial hver,
    fun _ _ _ _ => ⟨State.verOpen_denied, State.verBegin_denied, fun h => ⟨State.verOpen_full h, State.verOpen_opened h⟩, State.verBegin_conflict⟩,
    publishCommit_holds, publish_holds, versionLease_holds, fun _ r v _ h => xltVerRgnIdWrite_holds r v h, fun _ r n _ h => verCommands_hold r n h⟩

end Sys2Proof.Machine
end

section
/-!
Mover channels (R91 to R95): their registers, and the commands of their registers.
-/
namespace Sys2Proof.Machine
open Sys2Proof

/-! ### Registers of a channel -/

theorem movStat_ne_movCtx (q k : Nat) : RegName.MOV_CH_STAT.addr q k 0 ≠ RegName.MOV_CH_CTX.addr q k 0 := by
  simp only [RegName.addr, RegName.home, RegName.spec, Block.origin, Bool.false_eq_true, if_false]
  omega

theorem glbStat_ne_movStat (q k : Nat) : RegName.GLB_STAT.addr 0 0 0 ≠ RegName.MOV_CH_STAT.addr q k 0 := by
  simp only [RegName.addr, RegName.home, RegName.spec, Block.origin, Bool.false_eq_true, if_false, reduceCtorEq]
  omega

/-- A field of a register that was not written keeps its value. -/
theorem State.regsBut.fld {s t : State} {l : List Nat} (h : s.regsBut t l) (f : Fld) {inst i j : Nat} (hf : f.reg.addr inst i j ∉ l) :
    t.fld f inst i j = s.fld f inst i j := by
  unfold State.fld State.regVal
  rw [h _ _ hf]

theorem State.movState_setState (s : State) (q k v : Nat) : (s.setFld F.MOV_CH_STAT_STATE v q k).movState q k = v % 8 :=
  s.fld_setFld_same F.MOV_CH_STAT_STATE v q k 0 (by decide)

theorem State.mover_setFld (s : State) (f : Fld) (v inst i j q k : Nat) : (s.setFld f v inst i j).mover q k = s.mover q k := rfl

theorem State.mover_setMover_other (s : State) {q k a b : Nat} (m : Mover) (hk : k < 16) (hb : b < 16) (h : ¬(a = q ∧ b = k)) :
    (s.setMover q k m).mover a b = s.mover a b :=
  smGet_smSet_other (by omega)

/-- A channel whose STATE becomes `v` and whose other state becomes `m`. -/
def State.moveChan (s : State) (q k : Nat) (m : Mover) (v : Nat) : State := (s.setMover q k m).setFld F.MOV_CH_STAT_STATE v q k

theorem State.moveChan_holds (s : State) (q k : Nat) (m : Mover) {v : Nat} (hv : v < 8) :
    let u := s.moveChan q k m v
    u.movState q k = v ∧ u.mover q k = m ∧ u = { s with movers := u.movers, regs := u.regs } ∧ s.regsBut u [RegName.MOV_CH_STAT.addr q k 0] :=
  ⟨(State.movState_setState _ q k v).trans (Nat.mod_eq_of_lt hv), s.mover_setMover_same q k m, rfl,
    (s.setMover q k m).regsBut_setFld F.MOV_CH_STAT_STATE v q k 0⟩

/-! ### Binding and start (R92) -/

section Writes
variable {w : Writer} {s : State} (q : Quarter) (k : Fin 16)

theorem movChCtxWrite_holds (v : BitVec 64) (h : s.admits w .MOV_CH_CTX q.val) :
    let s1 := s.wakeFor w
    let bad : Prop := s1.movState q.val k.val ≠ 0 ∨ (F.MOV_CH_CTX_V.of v.toNat = 1 ∧ s1.ctxV (F.MOV_CH_CTX_CTX.of v.toNat) = false)
    (bad → exec (.movChCtxWrite w q k v) s = .next (s1.respond .accessDenied)) ∧
    (¬bad → ∃ t, exec (.movChCtxWrite w q k v) s = .next t ∧ (s1.setFld F.MOV_CH_STAT_DONE 0 q.val k.val).stored t .MOV_CH_CTX q.val k.val 0 v.toNat ∧
      t.fld F.MOV_CH_STAT_DONE q.val k.val = 0) := by
  intro s1 bad
  have he : exec (.movChCtxWrite w q k v) s = .next
      (if s1.movState q.val k.val ≠ 0 then s1.respond .accessDenied
      else if F.MOV_CH_CTX_V.of v.toNat = 1 ∧ !s1.ctxV (F.MOV_CH_CTX_CTX.of v.toNat) then s1.respond .accessDenied
      else (s1.setFld F.MOV_CH_STAT_DONE 0 q.val k.val).plainWrite .MOV_CH_CTX q.val k.val 0 v.toNat) :=
    congrArg Host.Outcome.next (State.regWrite_admitted h _)
  rw [he]
  refine ⟨fun hb => ?_, fun hb => ?_⟩
  · by_cases hst : s1.movState q.val k.val ≠ 0
    · rw [if_pos hst]
    · obtain ⟨hv, hc⟩ := hb.resolve_left hst
      rw [if_neg hst, if_pos ⟨hv, by rw [hc]; rfl⟩]
  · obtain ⟨hst, hc⟩ := not_or.1 hb
    rw [if_neg hst, if_neg (by simpa using hc)]
    have hstored := (s1.setFld F.MOV_CH_STAT_DONE 0 q.val k.val).stored_plainWrite .MOV_CH_CTX q.val k.val 0 v.toNat
    obtain ⟨-, -, hregs⟩ := id hstored
    have hdone := s1.fld_setFld_same F.MOV_CH_STAT_DONE 0 q.val k.val 0 (by decide)
    exact ⟨_, rfl, hstored, (hregs.fld F.MOV_CH_STAT_DONE (List.mem_singleton.not.2 (movStat_ne_movCtx q.val k.val))).trans hdone⟩

theorem movChStart_holds (a : BitVec 64) (h : s.admits w .MOV_CH_START q.val) :
    let s1 := s.wakeFor w
    let good : Prop := s1.flag F.MOV_CH_CTX_V q.val k.val = true ∧ a.toNat.testBit 63 = true ∧ a.toNat % 64 = 0
    (s1.movState q.val k.val ≠ 0 → exec (.movChStart w q k a) s = .next (s1.respond .busy)) ∧
    (s1.movState q.val k.val = 0 → ¬good → exec (.movChStart w q k a) s = .next (s1.respond .accessDenied)) ∧
    (s1.movState q.val k.val = 0 → good → ∃ u : State, exec (.movChStart w q k a) s = .next (u.settle.respond .ok) ∧
      u.movState q.val k.val = 1 ∧
      u.mover q.val k.val = { s1.mover q.val k.val with next := a.toNat, failing := none, retry := false, stopping := false } ∧
      (∀ c b, b < 16 → ¬(c = q.val ∧ b = k.val) → u.mover c b = s1.mover c b) ∧ u = { s1 with movers := u.movers, regs := u.regs } ∧
      s1.regsBut u [RegName.MOV_CH_STAT.addr q.val k.val 0]) := by
  intro s1 good
  have he : exec (.movChStart w q k a) s = .next
      (if s1.movState q.val k.val ≠ 0 then s1.respond .busy
      else if !s1.flag F.MOV_CH_CTX_V q.val k.val || !a.toNat.testBit 63 || a.toNat % 64 ≠ 0 then s1.respond .accessDenied
      else (s1.moveChan q.val k.val
        { s1.mover q.val k.val with next := a.toNat, failing := none, retry := false, stopping := false } 1).settle.respond .ok) :=
    congrArg Host.Outcome.next (State.regWrite_admitted h _)
  have hgood : (!s1.flag F.MOV_CH_CTX_V q.val k.val || !a.toNat.testBit 63 || decide (a.toNat % 64 ≠ 0)) = true ↔ ¬good := by
    simp only [good, Bool.or_eq_true, Bool.not_eq_true', decide_eq_true_eq, ne_eq, not_and_or, Bool.not_eq_true, or_assoc]
  rw [he]
  refine ⟨fun hst => by rw [if_pos hst], fun hst hg => by rw [if_neg (not_not_intro hst), if_pos (hgood.2 hg)], fun hst hg => ?_⟩
  obtain ⟨hstate, hmover, hrest, hregs⟩ := s1.moveChan_holds q.val k.val
    { s1.mover q.val k.val with next := a.toNat, failing := none, retry := false, stopping := false } (v := 1) (by decide)
  refine ⟨_, by rw [if_neg (not_not_intro hst), if_neg (hgood.not.2 (not_not_intro hg))], hstate, hmover, fun c b hb hcb => ?_, hrest, hregs⟩
  exact s1.mover_setMover_other _ k.isLt hb hcb

/-! ### RESUME, RETRY and STOP (R95) -/

section Commands
variable (h : s.admits w .MOV_CH_CMD q.val)
include h

theorem execMoverResume_eq : exec (.moverResume w q k) s = .next (if (s.wakeFor w).movState q.val k.val = 3 then
    (((s.wakeFor w).setFld F.MOV_CH_STAT_STATE 1 q.val k.val).settle).respond .ok else (s.wakeFor w).respond .accessDenied) :=
  congrArg Host.Outcome.next (State.regWrite_admitted h _)

/-- A halted channel as RETRY leaves it: the descriptor at CUR runs again, unless its fetch failed. -/
def State.retriedChan (s : State) (q k : Nat) : Mover :=
  { s.mover q k with retry := !(s.flag F.MOV_CH_STAT_WBF q k && s.regVal .MOV_CH_CUR q k == (s.mover q k).next) }

/-- A channel as STOP leaves it. -/
def State.stoppedChan (s : State) (q k : Nat) : Mover := { s.mover q k with next := 0, retry := false, stopping := true, stopAt := some s.now }

theorem execMoverRetry_eq : exec (.moverRetry w q k) s = .next (if (s.wakeFor w).movState q.val k.val = 3 then
    (((s.wakeFor w).moveChan q.val k.val ((s.wakeFor w).retriedChan q.val k.val) 1).settle).respond .ok else (s.wakeFor w).respond .accessDenied) :=
  congrArg Host.Outcome.next (State.regWrite_admitted h _)

theorem execMoverStop_eq : exec (.moverStop w q k) s = .next
    (if (s.wakeFor w).movState q.val k.val = 1 ∨ (s.wakeFor w).movState q.val k.val = 2 ∨ (s.wakeFor w).movState q.val k.val = 3 then
      ((s.wakeFor w).moveChan q.val k.val ((s.wakeFor w).stoppedChan q.val k.val) 4).respond .ok else (s.wakeFor w).respond .accessDenied) :=
  congrArg Host.Outcome.next (State.regWrite_admitted h _)

theorem moverCommands_hold :
    let s1 := s.wakeFor w
    let st := s1.movState q.val k.val
    let m := s1.mover q.val k.val
    (st ≠ 3 → exec (.moverResume w q k) s = .next (s1.respond .accessDenied) ∧ exec (.moverRetry w q k) s = .next (s1.respond .accessDenied)) ∧
    (st = 3 →
      exec (.moverResume w q k) s = .next (((s1.setFld F.MOV_CH_STAT_STATE 1 q.val k.val).settle).respond .ok) ∧
      ∃ u : State, exec (.moverRetry w q k) s = .next (u.settle.respond .ok) ∧ u.movState q.val k.val = 1 ∧
        u.mover q.val k.val = { m with retry := !(s1.flag F.MOV_CH_STAT_WBF q.val k.val && s1.regVal .MOV_CH_CUR q.val k.val == m.next) } ∧
        u = { s1 with movers := u.movers, regs := u.regs } ∧ s1.regsBut u [RegName.MOV_CH_STAT.addr q.val k.val 0]) ∧
    (st = 0 ∨ 4 ≤ st → exec (.moverStop w q k) s = .next (s1.respond .accessDenied)) ∧
    (1 ≤ st → st ≤ 3 → ∃ t, exec (.moverStop w q k) s = .next t ∧ t.movState q.val k.val = 4 ∧
      t.mover q.val k.val = { m with next := 0, retry := false, stopping := true, stopAt := some s1.now } ∧
      t = { s1 with movers := t.movers, regs := t.regs, rsp := (.ok, 0) } ∧ s1.regsBut t [RegName.MOV_CH_STAT.addr q.val k.val 0]) := by
  intro s1 st m
  rw [execMoverResume_eq q k h, execMoverRetry_eq q k h, execMoverStop_eq q k h]
  refine ⟨fun hst => by rw [if_neg hst, if_neg hst]; exact ⟨rfl, rfl⟩, fun hst => ?_, fun hst => ?_, fun h1 h3 => ?_⟩
  · rw [if_pos hst, if_pos hst]
    exact ⟨rfl, _, rfl, s1.moveChan_holds q.val k.val (s1.retriedChan q.val k.val) (by decide)⟩
  · have hno : ¬(st = 1 ∨ st = 2 ∨ st = 3) := by omega
    rw [if_neg hno]
  · obtain ⟨hstate, hmover, -, hregs⟩ := s1.moveChan_holds q.val k.val (s1.stoppedChan q.val k.val) (v := 4) (by decide)
    have hyes : st = 1 ∨ st = 2 ∨ st = 3 := by omega
    exact ⟨_, congrArg Host.Outcome.next (if_pos hyes), hstate, hmover, rfl, hregs⟩

end Commands
end Writes

/-! ### The end of a STOP (R92, R95) -/

/-- A stopping channel none of whose work is outstanding. -/
def State.stopEnds (s : State) (q k : Nat) : Prop := s.movState q k = 4 ∧ s.moverBusy q k = false

/-- A channel once its STOP has ended. -/
def State.endStop (s : State) (q k : Nat) : State := s.moveChan q k { s.mover q k with stopping := false, failing := none, clearV := false } 0

theorem execMoverStopEnd_eq (q : Quarter) (k : Fin 16) (s : State) :
    exec (.moverStopEnd q k) s = .next (if s.movState q.val k.val = 4 ∧ !s.moverBusy q.val k.val then
      (if (s.mover q.val k.val).clearV then (s.endStop q.val k.val).setFld F.MOV_CH_CTX_V 0 q.val k.val else s.endStop q.val k.val) else s) := rfl

/-- What the end of a STOP leaves of its channel, whose binding it keeps. -/
theorem State.endStop_holds (s : State) (q k : Nat) :
    let u := s.endStop q k
    u.movState q k = 0 ∧ u.mover q k = { s.mover q k with stopping := false, failing := none, clearV := false } ∧
    u = { s with movers := u.movers, regs := u.regs } ∧ s.regsBut u [RegName.MOV_CH_STAT.addr q k 0] ∧
    u.flag F.MOV_CH_CTX_V q k = s.flag F.MOV_CH_CTX_V q k := by
  obtain ⟨hstate, hmover, hrest, hregs⟩ := s.moveChan_holds q k { s.mover q k with stopping := false, failing := none, clearV := false } (v := 0) (by decide)
  have hbound := hregs.fld F.MOV_CH_CTX_V (List.mem_singleton.not.2 (movStat_ne_movCtx q k).symm)
  exact ⟨hstate, hmover, hrest, hregs, congrArg (· == 1) hbound⟩

theorem moverStopEnd_holds (q : Quarter) (k : Fin 16) (s : State) :
    let m := s.mover q.val k.val
    (¬s.stopEnds q.val k.val → exec (.moverStopEnd q k) s = .next s) ∧
    (s.stopEnds q.val k.val → ∃ t, exec (.moverStopEnd q k) s = .next t ∧ t.movState q.val k.val = 0 ∧
      t.mover q.val k.val = { m with stopping := false, failing := none, clearV := false } ∧
      t.flag F.MOV_CH_CTX_V q.val k.val = (!m.clearV && s.flag F.MOV_CH_CTX_V q.val k.val) ∧
      t = { s with movers := t.movers, regs := t.regs } ∧
      s.regsBut t [RegName.MOV_CH_STAT.addr q.val k.val 0, RegName.MOV_CH_CTX.addr q.val k.val 0]) := by
  intro m
  have hends : (s.movState q.val k.val = 4 ∧ (!s.moverBusy q.val k.val) = true) ↔ s.stopEnds q.val k.val := by
    rw [State.stopEnds, Bool.not_eq_true']
  rw [execMoverStopEnd_eq]
  refine ⟨fun h => by rw [if_neg (hends.not.2 h)], fun h => ?_⟩
  obtain ⟨hstate, hmover, hrest, hregs, hbound⟩ := s.endStop_holds q.val k.val
  rw [if_pos (hends.2 h)]
  cases hc : m.clearV with
  | false =>
    rw [if_neg Bool.false_ne_true, Bool.not_false, Bool.true_and]
    exact ⟨_, rfl, hstate, hmover, hbound, hrest, hregs.mono (by simp)⟩
  | true =>
    rw [if_pos rfl, Bool.not_true, Bool.false_and]
    have hctx := State.regsBut_setFld (s.endStop q.val k.val) F.MOV_CH_CTX_V 0 q.val k.val 0
    have hfree : ((s.endStop q.val k.val).setFld F.MOV_CH_CTX_V 0 q.val k.val).fld F.MOV_CH_CTX_V q.val k.val = 0 :=
      State.fld_setFld_same _ _ _ _ _ _ (by decide)
    refine ⟨_, rfl, ?_, (State.mover_setFld _ _ _ _ _ _ _ _).trans hmover, beq_false_of_ne (by rw [hfree]; decide), rfl, hregs.trans hctx⟩
    exact (hctx.fld F.MOV_CH_STAT_STATE (List.mem_singleton.not.2 (movStat_ne_movCtx q.val k.val))).trans hstate

end Sys2Proof.Machine
end

section
/-!
Descriptors of mover channels (R93 to R95): fetched, started, completed; and the statement of mover channels.
-/
namespace Sys2Proof.Machine
open Sys2Proof

/-! ### A fetch has come back (R93 to R95) -/

/-- Completed request `d` is taken. -/
def State.taking (s : State) (d : Done) : State := s.setOrd { s.ord with done := s.ord.done.erase d }

/-- Completed request `d` is taken, and channel `k` becomes `m`. -/
def State.takeFor (s : State) (q k : Nat) (d : Done) (m : Mover) : State := (s.taking d).setMover q k m

section Taking
variable {s : State} {p : Dest → Bool}

theorem State.takeDone_some {d : Done} (h : s.ord.done.find? (fun d => p d.dest) = some d) : s.takeDone p = some (d, s.taking d) := by
  unfold State.takeDone
  rw [h]
  rfl

theorem State.takeDone_none (h : s.ord.done.find? (fun d => p d.dest) = none) : s.takeDone p = none := by
  unfold State.takeDone
  rw [h]

end Taking

/-- A channel starts no further descriptor: it stops, or work of it has failed. -/
def State.startsNoMore (s : State) (q k : Nat) : Bool := (s.mover q k).stopping || (s.mover q k).failing.isSome || s.moverFailed q k

/-- The descriptor of a fetch of handle `h`. -/
def State.newDesc (s : State) (q k h : Nat) (d : Done) : Desc :=
  let w := (List.range 8).map (fun i => wordAt d.data (8 * i))
  let ok := descOk w (s.flag F.SEC_STAT_CONF)
  { serial := (s.mover q k).serial, handle := h, words := w, denied := !ok, issued := 0, finished := 0, failed := []
    worst := if ok then .ok else .accessDenied }

/-- The channel with a fetched descriptor at the end of its chain. -/
def State.chained (s : State) (q k : Nat) (x : Desc) : Mover :=
  let m := s.mover q k
  { m with fetching := none, serial := m.serial + 1, descs := m.descs ++ [x], next := if m.retry then m.next else x.next, retry := false }

/-- The state once a fetched descriptor has started. -/
def State.startDesc (s : State) (q k h : Nat) (d : Done) : State :=
  (s.takeFor q k d (s.chained q k (s.newDesc q k h d))).setReg .MOV_CH_CUR h q k

section Fetch
variable (q : Quarter) (k : Fin 16) {s : State} {h : Nat} {d : Done}

theorem descriptorFetch_idle (hi : (s.mover q.val k.val).fetching = none ∨ s.ord.done.find? (fun d => d.dest == .descr q.val k.val) = none) :
    exec (.descriptorFetch q k) s = .next s := by
  show execDescriptorFetch q k s = _
  unfold execDescriptorFetch State.takeDone
  dsimp only
  cases hf : (s.mover q.val k.val).fetching with
  | none => rfl
  | some h =>
    rw [hi.resolve_left (by rw [hf]; exact Option.some_ne_none h)]
    dsimp only
    rw [ite_self, ite_self]

variable (hf : (s.mover q.val k.val).fetching = some h) (hd : s.ord.done.find? (fun d => d.dest == .descr q.val k.val) = some d)
include hf hd

theorem descriptorFetch_eq : exec (.descriptorFetch q k) s = .next
    (if s.startsNoMore q.val k.val then (s.takeFor q.val k.val d { s.mover q.val k.val with fetching := none }).settle
    else if !s.lastStarted q.val k.val || 4 ≤ (s.mover q.val k.val).descs.length then s
    else if d.out.status ≠ .ok then
      (s.takeFor q.val k.val d ({ s.mover q.val k.val with fetching := none }.fails h d.out.status true d.out.tag)).settle
    else (s.startDesc q.val k.val h d).settle) := by
  show execDescriptorFetch q k s = _
  unfold execDescriptorFetch State.takeDone
  dsimp only
  rw [hf, hd]
  rfl

theorem descriptorFetch_dropped (he : s.startsNoMore q.val k.val = true) :
    exec (.descriptorFetch q k) s = .next ((s.takeFor q.val k.val d { s.mover q.val k.val with fetching := none }).settle) := by
  rw [descriptorFetch_eq q k hf hd, if_pos he]

variable (he : s.startsNoMore q.val k.val = false)
include he

theorem descriptorFetch_waits (hw : s.lastStarted q.val k.val = false ∨ 4 ≤ (s.mover q.val k.val).descs.length) :
    exec (.descriptorFetch q k) s = .next s := by
  rw [descriptorFetch_eq q k hf hd, if_neg (Bool.eq_false_iff.1 he), if_pos]
  rw [Bool.or_eq_true, Bool.not_eq_true', decide_eq_true_eq]
  exact hw

variable (hl : s.lastStarted q.val k.val = true) (h4 : (s.mover q.val k.val).descs.length < 4)
include hl h4

theorem descriptorFetch_failed (hs : d.out.status ≠ .ok) : exec (.descriptorFetch q k) s = .next ((s.takeFor q.val k.val d
    { s.mover q.val k.val with fetching := none, failing := some (h, d.out.status, true, d.out.tag) }).settle) := by
  have hfailing : (s.mover q.val k.val).failing.isSome = false := by
    simp only [State.startsNoMore, Bool.or_eq_false_iff] at he
    obtain ⟨⟨-, hfailing⟩, -⟩ := he
    exact hfailing
  rw [descriptorFetch_eq q k hf hd, if_neg (Bool.eq_false_iff.1 he), if_neg (by rw [hl]; simpa using h4), if_pos hs]
  unfold Mover.fails
  rw [if_neg (Bool.eq_false_iff.1 hfailing)]

theorem descriptorFetch_started (hs : d.out.status = .ok) : exec (.descriptorFetch q k) s = .next ((s.startDesc q.val k.val h d).settle) := by
  rw [descriptorFetch_eq q k hf hd, if_neg (Bool.eq_false_iff.1 he), if_neg (by rw [hl]; simpa using h4), if_neg (not_not_intro hs)]

end Fetch

/-- What a started descriptor leaves. -/
theorem State.startDesc_holds (s : State) (q k h : Nat) (d : Done) :
    let u := s.startDesc q k h d
    u.mover q k = s.chained q k (s.newDesc q k h d) ∧ u.regVal .MOV_CH_CUR q k = h % 2 ^ 64 ∧
    u = { s with ord := { s.ord with done := s.ord.done.erase d }, movers := u.movers, regs := u.regs } ∧
    s.regsBut u [RegName.MOV_CH_CUR.addr q k 0] :=
  ⟨State.mover_setMover_same _ _ _ _, State.regVal_setReg_same _ _ _ _ _ _, rfl,
    (s.takeFor q k d (s.chained q k (s.newDesc q k h d))).regsBut_setReg .MOV_CH_CUR h q k 0⟩

theorem descriptorFetch_holds (q : Quarter) (k : Fin 16) (s : State) :
    let m := s.mover q.val k.val
    let got := s.ord.done.find? (fun d => d.dest == .descr q.val k.val)
    let ends : Bool := m.stopping || m.failing.isSome || s.moverFailed q.val k.val
    (m.fetching = none ∨ got = none → exec (.descriptorFetch q k) s = .next s) ∧
    ∀ h d, m.fetching = some h → got = some d →
      (ends = true → exec (.descriptorFetch q k) s = .next ((s.takeFor q.val k.val d { m with fetching := none }).settle)) ∧
      (ends = false → s.lastStarted q.val k.val = false ∨ 4 ≤ m.descs.length → exec (.descriptorFetch q k) s = .next s) ∧
      (ends = false → s.lastStarted q.val k.val = true → m.descs.length < 4 →
        (d.out.status ≠ .ok → exec (.descriptorFetch q k) s =
          .next ((s.takeFor q.val k.val d { m with fetching := none, failing := some (h, d.out.status, true, d.out.tag) }).settle)) ∧
        (d.out.status = .ok → ∃ (u : State) (x : Desc), exec (.descriptorFetch q k) s = .next u.settle ∧
          u.mover q.val k.val = { m with fetching := none, serial := m.serial + 1, descs := m.descs ++ [x],
                                         next := if m.retry then m.next else x.next, retry := false } ∧
          x.handle = h ∧ x.serial = m.serial ∧ x.words = (List.range 8).map (fun i => wordAt d.data (8 * i)) ∧
          x.denied = !descOk x.words (s.flag F.SEC_STAT_CONF) ∧ x.issued = 0 ∧ x.finished = 0 ∧ x.failed = [] ∧ x.written = false ∧
          u.regVal .MOV_CH_CUR q.val k.val = h % 2 ^ 64 ∧ u = { s with ord := { s.ord with done := s.ord.done.erase d }, movers := u.movers, regs := u.regs } ∧
          s.regsBut u [RegName.MOV_CH_CUR.addr q.val k.val 0])) := by
  intro m got ends
  refine ⟨descriptorFetch_idle q k, fun h d hf hd => ⟨descriptorFetch_dropped q k hf hd, descriptorFetch_waits q k hf hd,
    fun he hl h4 => ⟨descriptorFetch_failed q k hf hd he hl h4, fun hs => ?_⟩⟩⟩
  obtain ⟨hmover, hcur, hrest, hregs⟩ := s.startDesc_holds q.val k.val h d
  exact ⟨_, s.newDesc q.val k.val h d, descriptorFetch_started q k hf hd he hl h4 hs, hmover, rfl, rfl, rfl, rfl, rfl, rfl, rfl, rfl, hcur, hrest, hregs⟩

/-! ### A descriptor's outcome is reported (R94) -/

/-- The completion source of a quarter's movers is an edge source of its quarter (Table 14-1). -/
theorem srcMover_edge (q : Quarter) : srcLevel (0x040 + 0x40 * q.val + 10) = false ∧ srcReserved (0x040 + 0x40 * q.val + 10) = false ∧
    srcQuarter (0x040 + 0x40 * q.val + 10) = some q.val := by
  revert q
  decide

theorem State.raise_mover (s : State) (q : Quarter) :
    s.raise (0x040 + 0x40 * q.val + 10) = if s.quarterDown q.val then s else s.pends (0x040 + 0x40 * q.val + 10) := by
  obtain ⟨hlevel, hreserved, hquarter⟩ := srcMover_edge q
  unfold State.raise
  rw [hlevel, hreserved, hquarter]
  rfl

theorem State.quarterDown_congr {s t : State} (hr : t.fld F.GLB_STAT_QRST = s.fld F.GLB_STAT_QRST) (hh : t.fld F.GLB_STAT_QHOLD = s.fld F.GLB_STAT_QHOLD)
    (q : Nat) : t.quarterDown q = s.quarterDown q := by
  unfold State.quarterDown
  rw [hr, hh]

/-- From `s` to `t` only the registers at the offsets `l` have changed. -/
structure State.changesAt (s t : State) (l : List Nat) : Prop where
  rest : t = { s with regs := t.regs }
  regs : s.regsBut t l

theorem State.changesAt_setFld (s : State) (f : Fld) (v inst i j : Nat) : s.changesAt (s.setFld f v inst i j) [f.reg.addr inst i j] :=
  ⟨rfl, s.regsBut_setFld f v inst i j⟩

theorem State.changesAt.again {s t u : State} {l : List Nat} (h : s.changesAt t l) (g : t.changesAt u l) : s.changesAt u l := by
  refine ⟨?_, fun d a ha => (g.regs d a ha).trans (h.regs d a ha)⟩
  have e := g.rest
  rw [h.rest] at e
  exact e

/-- `MOV_CH_STAT` shows the outcome of descriptor `x`, and counts it. -/
def State.showOutcome (s : State) (q k : Nat) (x : Desc) : State :=
  (((s.bump F.MOV_CH_STAT_DONE 1 q k).setFld F.MOV_CH_STAT_WBF 0 q k).setFld F.MOV_CH_STAT_LAST_STATUS x.outcome.status.code q k).setFld
    F.MOV_CH_STAT_LAST_TAG x.tag q k

section Outcome
variable (s : State) (q k : Nat) (x : Desc)

theorem State.changesAt_showOutcome : s.changesAt (s.showOutcome q k x) [RegName.MOV_CH_STAT.addr q k 0] :=
  (((s.changesAt_setFld F.MOV_CH_STAT_DONE _ q k 0).again (State.changesAt_setFld _ F.MOV_CH_STAT_WBF 0 q k 0)).again
    (State.changesAt_setFld _ F.MOV_CH_STAT_LAST_STATUS x.outcome.status.code q k 0)).again (State.changesAt_setFld _ F.MOV_CH_STAT_LAST_TAG x.tag q k 0)

/-- Fields of `MOV_CH_STAT` once an outcome shows there. -/
theorem State.showOutcome_holds :
    let u := s.showOutcome q k x
    u.fld F.MOV_CH_STAT_DONE q k = (s.fld F.MOV_CH_STAT_DONE q k + 1) % 2 ^ F.MOV_CH_STAT_DONE.width ∧
    u.fld F.MOV_CH_STAT_WBF q k = 0 ∧ u.fld F.MOV_CH_STAT_LAST_STATUS q k = x.outcome.status.code ∧
    u.fld F.MOV_CH_STAT_LAST_TAG q k = x.tag ∧ u.movState q k = s.movState q k := by
  unfold State.showOutcome State.bump State.movState
  dsimp only
  have hstatus := statusCode_lt x.outcome.status
  have htag : x.tag < 2 ^ 16 := bits_lt _ _ _
  refine ⟨?_, ?_, ?_, ?_, ?_⟩ <;> simp (disch := decide) only [State.fld_setFld_beside, State.fld_setFld_same]
  · rfl
  · exact Nat.mod_eq_of_lt hstatus
  · exact Nat.mod_eq_of_lt htag

theorem State.quarterDown_showOutcome (j : Nat) : (s.showOutcome q k x).quarterDown j = s.quarterDown j := by
  have hne : RegName.GLB_STAT.addr 0 0 0 ∉ [RegName.MOV_CH_STAT.addr q k 0] := List.mem_singleton.not.2 (glbStat_ne_movStat q k)
  exact State.quarterDown_congr ((s.changesAt_showOutcome q k x).regs.fld _ hne) ((s.changesAt_showOutcome q k x).regs.fld _ hne) j

end Outcome

/-- The outcome of a descriptor is reported: its channel shows it, and INT raises the completion source. -/
def State.report (s : State) (q k : Nat) (x : Desc) : State :=
  if x.int then (s.showOutcome q k x).raise (0x040 + 0x40 * q + 10) else s.showOutcome q k x

theorem State.report_eq (s : State) (q k : Nat) (x : Desc) : s.report q k x = { s.showOutcome q k x with intc := (s.report q k x).intc } := by
  unfold State.report
  generalize s.showOutcome q k x = u
  split_ifs
  · exact u.raise_eq _
  · rfl

/-- A report raises the source of an INT descriptor, unless its quarter is under reset. -/
theorem State.report_raises (s : State) (q : Quarter) (k : Nat) (x : Desc) :
    if (x.int && !s.quarterDown q.val) = true then s.raised (s.report q.val k x) (0x040 + 0x40 * q.val + 10) else (s.report q.val k x).intc = s.intc := by
  have hintc : (s.showOutcome q.val k x).intc = s.intc := by rw [(s.changesAt_showOutcome q.val k x).rest]
  have hdown := s.quarterDown_showOutcome q.val k x q.val
  unfold State.report State.raised
  rw [State.raise_mover, hdown, ← hintc]
  generalize s.showOutcome q.val k x = u
  cases x.int with
  | false => rfl
  | true =>
    cases s.quarterDown q.val with
    | true => rfl
    | false => exact u.pends_raised _

theorem State.report_regs (s : State) (q k : Nat) (x : Desc) : (s.report q k x).regs = (s.showOutcome q k x).regs := by rw [s.report_eq q k x]

theorem State.report_rest (s : State) (q k : Nat) (x : Desc) :
    s.report q k x = { s with regs := (s.report q k x).regs, intc := (s.report q k x).intc } := by
  have h := s.report_eq q k x
  rw [(s.changesAt_showOutcome q k x).rest, ← s.report_regs q k x] at h
  exact h

theorem State.regsBut_report (s : State) (q k : Nat) (x : Desc) : s.regsBut (s.report q k x) [RegName.MOV_CH_STAT.addr q k 0] := by
  intro d a ha
  rw [State.report_regs]
  exact (s.changesAt_showOutcome q k x).regs d a ha

/-- What a report leaves. -/
theorem State.report_holds (s : State) (q : Quarter) (k : Nat) (x : Desc) :
    let u := s.report q.val k x
    u = { s with regs := u.regs, intc := u.intc } ∧ s.regsBut u [RegName.MOV_CH_STAT.addr q.val k 0] ∧
    u.fld F.MOV_CH_STAT_DONE q.val k = (s.fld F.MOV_CH_STAT_DONE q.val k + 1) % 2 ^ F.MOV_CH_STAT_DONE.width ∧
    u.fld F.MOV_CH_STAT_WBF q.val k = 0 ∧ u.fld F.MOV_CH_STAT_LAST_STATUS q.val k = x.outcome.status.code ∧
    u.fld F.MOV_CH_STAT_LAST_TAG q.val k = x.tag ∧ u.movState q.val k = s.movState q.val k ∧
    if (x.int && !s.quarterDown q.val) = true then s.raised u (0x040 + 0x40 * q.val + 10) else u.intc = s.intc := by
  obtain ⟨hdone, hwbf, hstatus, htag, hstate⟩ := s.showOutcome_holds q.val k x
  have hfld (f : Fld) := State.fld_congr (s.report_regs q.val k x) f q.val k 0
  exact ⟨s.report_rest q.val k x, s.regsBut_report q.val k x, (hfld _).trans hdone, (hfld _).trans hwbf, (hfld _).trans hstatus, (hfld _).trans htag,
    (hfld _).trans hstate, s.report_raises q k x⟩

/-! ### An outcome write has completed (R94, R95) -/

/-- The outcome write of a descriptor of channel `k`. -/
def Dest.isOutcome (q k : Nat) : Dest → Bool
  | .outcome a b _ => a == q && b == k
  | _ => false

/-- Channel `k` without descriptor `x`, whose outcome write `d` completed; the first failure is noted. -/
def Mover.completes (m : Mover) (d : Done) (n : Nat) (x : Desc) : Mover :=
  let m : Mover := { m with descs := m.descs.filter (fun y => y.serial ≠ n) }
  if d.out.status ≠ .ok then m.fails x.handle d.out.status true x.tag
  else if x.outcome.status ≠ .ok then m.fails x.handle x.outcome.status false x.tag else m

theorem Mover.completes_eq (m : Mover) (d : Done) (n : Nat) (x : Desc) : m.completes d n x = { m with
    descs := m.descs.filter (fun y => y.serial ≠ n)
    failing := if m.failing.isSome then m.failing
      else if d.out.status ≠ .ok then some (x.handle, d.out.status, true, x.tag)
      else if x.outcome.status ≠ .ok then some (x.handle, x.outcome.status, false, x.tag) else m.failing } := by
  unfold Mover.completes Mover.fails
  dsimp only
  split_ifs <;> rfl

/-- The state once the completed outcome write `d` of descriptor `x` is acted on. -/
def State.completeDesc (s : State) (q k : Nat) (d : Done) (n : Nat) (x : Desc) : State :=
  let u := s.setMover q k ((s.mover q k).completes d n x)
  if d.out.status = .ok then u.report q k x else u

/-- What a completed outcome write `d` of channel `k` does, once it is taken. -/
def State.afterOutcome (s : State) (q k : Nat) (d : Done) : State :=
  match d.dest with
  | .outcome _ _ n => ((s.mover q k).descs.find? (fun x => x.serial == n)).elim s fun x => (s.completeDesc q k d n x).settle
  | _ => s

section Complete
variable (q : Quarter) (k : Fin 16) {s : State}

theorem execDescriptorComplete_eq : exec (.descriptorComplete q k) s =
    .next ((s.takeDone (Dest.isOutcome q.val k.val)).elim s fun x => x.2.afterOutcome q.val k.val x.1) := by
  show execDescriptorComplete q k s = _
  unfold execDescriptorComplete
  dsimp only
  change Host.Outcome.next (match s.takeDone (Dest.isOutcome q.val k.val) with | none => _ | some (d, s) => _) = _
  cases s.takeDone (Dest.isOutcome q.val k.val) with
  | none => rfl
  | some x =>
    obtain ⟨d, u⟩ := x
    dsimp only [Option.elim]
    unfold State.afterOutcome
    cases d.dest with
    | outcome a b n =>
      dsimp only
      cases (u.mover q.val k.val).descs.find? _ <;> rfl
    | _ => rfl

variable {d : Done} {a b n : Nat} (hg : s.ord.done.find? (fun d => d.dest.isOutcome q.val k.val) = some d) (hd : d.dest = .outcome a b n)
include hg hd

theorem descriptorComplete_taken : exec (.descriptorComplete q k) s = .next (((s.mover q.val k.val).descs.find? (fun x => x.serial == n)).elim
    (s.taking d) fun x => ((s.taking d).completeDesc q.val k.val d n x).settle) := by
  rw [execDescriptorComplete_eq, State.takeDone_some hg, Option.elim]
  unfold State.afterOutcome
  rw [hd]
  rfl

theorem descriptorComplete_unknown (hx : ∀ x ∈ (s.mover q.val k.val).descs, x.serial ≠ n) :
    exec (.descriptorComplete q k) s = .next (s.taking d) := by
  rw [descriptorComplete_taken q k hg hd, List.find?_eq_none.2 (fun x h => by simpa using hx x h), Option.elim]

theorem descriptorComplete_known {x : Desc} (hx : (s.mover q.val k.val).descs.find? (fun x => x.serial == n) = some x) :
    exec (.descriptorComplete q k) s = .next (((s.taking d).completeDesc q.val k.val d n x).settle) := by
  rw [descriptorComplete_taken q k hg hd, hx, Option.elim]

end Complete

/-- What the completed outcome write of a descriptor leaves. -/
theorem State.completeDesc_holds (s : State) (q : Quarter) (k : Nat) (d : Done) (n : Nat) (x : Desc) :
    let u := s.completeDesc q.val k d n x
    u.mover q.val k = (s.mover q.val k).completes d n x ∧
    u = { s with movers := u.movers, regs := u.regs, intc := u.intc } ∧
    s.regsBut u [RegName.MOV_CH_STAT.addr q.val k 0] ∧
    (d.out.status ≠ .ok → u.regs = s.regs ∧ u.intc = s.intc) ∧
    (d.out.status = .ok → u.fld F.MOV_CH_STAT_DONE q.val k = (s.fld F.MOV_CH_STAT_DONE q.val k + 1) % 2 ^ F.MOV_CH_STAT_DONE.width ∧
      u.fld F.MOV_CH_STAT_WBF q.val k = 0 ∧ u.fld F.MOV_CH_STAT_LAST_STATUS q.val k = x.outcome.status.code ∧
      u.fld F.MOV_CH_STAT_LAST_TAG q.val k = x.tag ∧ u.movState q.val k = s.movState q.val k ∧
      if (x.int && !s.quarterDown q.val) = true then s.raised u (0x040 + 0x40 * q.val + 10) else u.intc = s.intc) := by
  have hmover := s.mover_setMover_same q.val k ((s.mover q.val k).completes d n x)
  unfold State.completeDesc
  by_cases hs : d.out.status = .ok
  · rw [if_pos hs]
    obtain ⟨hrest, hregs, hshown⟩ := (s.setMover q.val k ((s.mover q.val k).completes d n x)).report_holds q k x
    refine ⟨(congrArg (fun u => State.mover u q.val k) hrest).trans hmover, ?_, hregs, fun h => absurd hs h, fun _ => hshown⟩
    rw [hrest]
    rfl
  · rw [if_neg hs]
    exact ⟨hmover, rfl, s.regsBut_refl _, fun _ => ⟨rfl, rfl⟩, fun h => absurd h hs⟩

theorem descriptorComplete_holds (q : Quarter) (k : Fin 16) (s : State) :
    let m := s.mover q.val k.val
    let got := s.ord.done.find? (fun d => d.dest.isOutcome q.val k.val)
    (got = none → exec (.descriptorComplete q k) s = .next s) ∧
    ∀ d a b n, got = some d → d.dest = .outcome a b n →
      ((∀ x ∈ m.descs, x.serial ≠ n) → exec (.descriptorComplete q k) s = .next (s.setOrd { s.ord with done := s.ord.done.erase d })) ∧
      ∀ x, m.descs.find? (fun x => x.serial == n) = some x →
        ∃ u : State, exec (.descriptorComplete q k) s = .next u.settle ∧
          u.mover q.val k.val = { m with
            descs := m.descs.filter (fun y => y.serial ≠ n)
            failing := if m.failing.isSome then m.failing
              else if d.out.status ≠ .ok then some (x.handle, d.out.status, true, x.tag)
              else if x.outcome.status ≠ .ok then some (x.handle, x.outcome.status, false, x.tag) else m.failing } ∧
          u = { s with ord := { s.ord with done := s.ord.done.erase d }, movers := u.movers, regs := u.regs, intc := u.intc } ∧
          s.regsBut u [RegName.MOV_CH_STAT.addr q.val k.val 0] ∧
          (d.out.status ≠ .ok → u.regs = s.regs ∧ u.intc = s.intc) ∧
          (d.out.status = .ok → u.fld F.MOV_CH_STAT_DONE q.val k.val = (s.fld F.MOV_CH_STAT_DONE q.val k.val + 1) % 2 ^ F.MOV_CH_STAT_DONE.width ∧
            u.fld F.MOV_CH_STAT_WBF q.val k.val = 0 ∧ u.fld F.MOV_CH_STAT_LAST_STATUS q.val k.val = x.outcome.status.code ∧
            u.fld F.MOV_CH_STAT_LAST_TAG q.val k.val = x.tag ∧ u.movState q.val k.val = s.movState q.val k.val ∧
            if (x.int && !s.quarterDown q.val) = true then s.raised u (0x040 + 0x40 * q.val + 10) else u.intc = s.intc) := by
  intro m got
  refine ⟨fun hg => ?_, fun d a b n hg hd => ⟨descriptorComplete_unknown q k hg hd, fun x hx => ⟨_, descriptorComplete_known q k hg hd hx, ?_⟩⟩⟩
  · rw [execDescriptorComplete_eq, State.takeDone_none hg, Option.elim]
  · rw [← Mover.completes_eq]
    exact (s.taking d).completeDesc_holds q k.val d n x

/-! ### The statement -/

/-- Settles O50: each command of a channel by the state it finds. RETRY after a failed fetch and the end of a STOP are log 30; the LAST_TAG of a failed
fetch is log 138. -/
theorem moverChannelsRunHaltAndStop : Obligations.MoverChannelsRunHaltAndStop :=
  ⟨fun _ q k v _ h => movChCtxWrite_holds q k v h, fun _ q k a _ h => movChStart_holds q k a h, descriptorFetch_holds, descriptorComplete_holds,
    fun _ q k _ h => moverCommands_hold q k h, moverStopEnd_holds⟩

end Sys2Proof.Machine
end

section
/-!
The stamp and the urgency of a request (R122), and what the device reads after reset (R127, R132, R167, R367, R378, R390).
-/
namespace Sys2Proof.Machine
open Sys2Proof

/-! ### Arrival and urgency -/

/-- T cycles last at least `TARGET_NS`, and no smaller number does. -/
theorem targetCycles_least {n : Nat} (h : 1 ≤ n) : n * 8 ≤ 5 * targetCycles n ∧ ∀ k, n * 8 ≤ 5 * k → targetCycles n ≤ k := by
  have hn : targetCycles n = (n * 8 + 4) / 5 := by rw [targetCycles, Nat.max_eq_right h]
  rw [hn]
  exact ⟨by omega, fun k hk => by omega⟩

/-- The request at the head of port `k`, stamped with the cycle of its arrival and its T, stands last in the port's buffer. -/
def State.buffersHead (s : State) (x k : Nat) (l : LineReq) (rest : List LineReq) : State :=
  s.setStk x { s.stk x with
    coming := smSet [] (s.stk x).coming k rest
    bufs := smSet [] (s.stk x).bufs k (smGet [] (s.stk x).bufs k ++
      [{ l with arr := cyclesAt s.now, target := targetCycles (s.fld F.STK_PORT_TARGET_NS x k) }]) }

theorem execStackRequestArrival_buffered {s : State} {x : Stack} {k : Fin 8} {l : LineReq} {rest : List LineReq}
    (hl : smGet [] (s.stk x.val).coming k.val = l :: rest) (hroom : (smGet [] (s.stk x.val).bufs k.val).length < 64)
    (hm : (s.stk x.val).missing = false) (e : ReadErr) :
    exec (.stackRequestArrival x k e) s = .next ((((s.buffersHead x.val k.val l rest).askStk x.val).fillStk x.val).settle) := by
  unfold exec execStackRequestArrival
  dsimp only
  rw [hl]
  dsimp only
  rw [if_neg (Nat.not_le.mpr hroom), if_neg (by rw [hm]; exact Bool.false_ne_true)]
  rfl

/-- The slack left at cycle `c`; below 0 once the deadline has passed. -/
def LineReq.slack (l : LineReq) (c : Nat) : Int := ((l.arr + l.target : Nat) : Int) - (c : Int)

theorem LineReq.urgency_eq (l : LineReq) (c : Nat) : l.urgency c =
    if l.slack c ≤ 0 then 3 else if l.slack c ≤ ((l.target >>> 2 : Nat) : Int) then 2
    else if l.slack c ≤ ((l.target >>> 1 : Nat) : Int) then 1 else 0 := by
  have h2 : l.target >>> 2 = l.target / 4 := Nat.shiftRight_eq_div_pow ..
  have h1 : l.target >>> 1 = l.target / 2 := Nat.shiftRight_eq_div_pow ..
  rw [h1, h2]
  unfold LineReq.urgency LineReq.slack
  dsimp only
  by_cases hd : l.arr + l.target ≤ c
  · have h0 : ((l.arr + l.target : Nat) : Int) - (c : Int) ≤ 0 := by omega
    rw [if_pos hd, if_pos h0]
  · have h0 : ¬((l.arr + l.target : Nat) : Int) - (c : Int) ≤ 0 := by omega
    rw [if_neg hd, if_neg h0]
    exact if_congr (by omega) rfl (if_congr (by omega) rfl rfl)

/-- Slack only falls, so urgency only rises. -/
theorem LineReq.urgency_mono (l : LineReq) {c d : Nat} (h : c ≤ d) : l.urgency c ≤ l.urgency d := by
  have hs : l.slack d ≤ l.slack c := by unfold LineReq.slack; omega
  have h12 : l.target >>> 2 ≤ l.target >>> 1 := by simp only [Nat.shiftRight_eq_div_pow]; omega
  rw [LineReq.urgency_eq, LineReq.urgency_eq]
  split_ifs <;> omega

/-- Settles O57: a request is stamped as it enters its port's buffer, and the four urgencies are the four ranges of its slack. -/
theorem urgencyRisesTowardsTheDeadline : Obligations.UrgencyRisesTowardsTheDeadline := by
  refine ⟨rfl, fun n hn => targetCycles_least hn, fun x k e s l rest hl hroom hm => ?_, LineReq.urgency_eq, fun l c d h => l.urgency_mono h⟩
  refine ⟨_, execStackRequestArrival_buffered hl hroom hm e, ?_⟩
  rw [State.buffersHead, State.stk_setStk_same]
  exact ⟨smGet_smSet_same _ _ _, rfl, rfl, smGet_smSet_same _ _ _⟩

/-! ### Reset -/

/-- No register has been stored, so each reads its reset value. -/
theorem State.regVal_reset (r : RegName) (inst i j : Nat) : State.reset.regVal r inst i j = r.resetVal i % 2 ^ 64 :=
  BitVec.toNat_ofNat _ _

theorem State.fld_reset (f : Fld) (inst i j : Nat) : State.reset.fld f inst i j = bits (f.reg.resetVal i % 2 ^ 64) f.lo f.width := by
  rw [State.fld, State.regVal_reset]

theorem State.rhThr_reset (x : Nat) : State.reset.rhThr x = 1024 := by
  rw [State.rhThr, State.fld_reset]
  decide

/-- Settles O59: nothing is listed in the reset state, so registers and maps read their defaults. The form of memory is the model's choice (log 2). -/
theorem resetLeavesTheStatedValues : Obligations.ResetLeavesTheStatedValues := by
  refine ⟨State.regVal_reset, rfl, rfl, State.wf_reset, rfl, rfl, rfl, rfl, rfl, rfl, rfl, rfl, rfl, rfl, rfl, fun x _ => ?_, ?_⟩
  · exact ⟨(State.fld_reset _ _ _ _).trans (by decide), State.rhThr_reset x, (State.fld_reset _ _ _ _).trans (by decide)⟩
  · simp only [State.fld_reset]
    decide

end Sys2Proof.Machine
end

section
/-!
Where the statement about the stack controllers fails: it speaks of every state, and `Stk.mig` is a list of any length, though a controller has four
slots (Table 5-8). The `STK_MIG_STAT` of a slot 32,747 of stack 0 would stand where the `STK_STAT` of stack 1 stands. When stack 1 fails at training, the
slots that copy from it are freed, and freeing that one overwrites the STATE that says so.
-/
namespace Sys2Proof.Machine
open Sys2Proof

/-! ### A stack that fails -/

/-- What a stack found at its training and RESULT 2 are stored. -/
def State.trainedWrong (s : State) (x : Nat) (r : StackTrain) : State :=
  (((s.setFld F.STK_STAT_DIES r.dies x).setFld F.STK_STAT_SIZE_GIB r.gib x).setTemp x r.temp).setFld F.STK_TRN_STAT_RESULT 2 x

/-- A stack whose training finds other dies, another size or a failed start-up is failed. -/
theorem execStackTrainingEnd_wrong {s : State} {x : Stack} {r : StackTrain} (hs : s.stkState x.val = 1) (ha : r.answers = true)
    (hw : r.dies ≠ 16 ∨ r.gib ≠ 96 ∨ (!r.initOk) = true) :
    exec (.stackTrainingEnd x r) s = .next ((s.trainedWrong x.val r).setStkState x.val 7) := by
  unfold exec execStackTrainingEnd
  dsimp only
  rw [if_neg (not_not_intro hs), if_neg (by simp [ha]), if_pos hw]
  rfl

/-- A slot that copies from or to a frame of stack `x`. -/
def MigSlot.touches (x : Nat) (m : MigSlot) : Bool := keyStack m.src == x || keyStack m.dst == x

/-- A stack that is missing already and fails shows STATE 7 as the batches with a slot of its frames end. -/
theorem State.setStkState_failed {s : State} {x : Nat} (hm : (s.stk x).missing = true) :
    ∃ t : State, t.stks = s.stks ∧ t.stkState x = 7 ∧ s.setStkState x 7 = t.endMigrations (MigSlot.touches x) .poison := by
  have shown (t : State) (hstks : t.stks = s.stks) (hregs : t.regs = (s.setFld F.STK_STAT_STATE 7 x).regs) :
      t.stkState x = 7 ∧ t.setMissing x true = t :=
    ⟨(State.fld_congr hregs _ _ _ _).trans (s.fld_setFld_same _ _ _ _ _ (by decide)), if_pos (by unfold State.stk at hm ⊢; rw [hstks, hm])⟩
  unfold State.setStkState
  dsimp only
  rw [if_pos (Or.inl rfl)]
  split
  · obtain ⟨h7, hmiss⟩ := shown (s.setFld F.STK_STAT_STATE 7 x) rfl rfl
    exact ⟨s.setFld F.STK_STAT_STATE 7 x, rfl, h7, by rw [hmiss]; rfl⟩
  · have hstks : ((s.setFld F.STK_STAT_STATE 7 x).raise (4 * x + 2)).stks = s.stks := by rw [State.raise_eq]; rfl
    obtain ⟨h7, hmiss⟩ := shown _ hstks (State.raise_regs _ _)
    exact ⟨_, hstks, h7, by rw [hmiss]; rfl⟩

/-! ### The end of one batch -/

/-- A freed slot reads STATE 0. -/
theorem State.freeSlot_state (s : State) (x k : Nat) (st : Status) : (s.freeSlot x k st).fld F.STK_MIG_STAT_STATE x k = 0 := by
  have hbeside (t : State) : (t.setFld F.STK_MIG_STAT_STATUS st.code x k).fld F.STK_MIG_STAT_STATE x k = t.fld F.STK_MIG_STAT_STATE x k :=
    t.fld_setFld_beside _ _ _ _ rfl (by decide) (by decide)
  exact (State.fld_congr (State.raise_regs _ _) _ _ _ _).trans ((hbeside _).trans (State.fld_setFld_same _ _ _ _ _ _ (by decide)))

/-- Where one open slot alone is hit, and its batch has no other, that slot is freed and its context's revokes are counted again. -/
theorem State.endMigrations_single {s : State} {p : MigSlot → Bool} (st : Status) {o : Nat × Nat × MigSlot × Nat}
    (hhit : (s.migSlots.filter (fun m => m.2.2.2 ≠ 0)).filter (fun m => p m.2.2.1) = [o])
    (hout : (s.migSlots.filter (fun m => m.2.2.2 ≠ 0)).filter (fun m => o.2.2.1.sameBatch m.2.2.1) = [o]) :
    ∃ t : State, t.regs = (s.freeSlot o.1 o.2.1 st).regs ∧ s.endMigrations p st = t.rvkStat o.2.2.1.ctx := by
  have hall : (s.migSlots.filter (fun m => m.2.2.2 ≠ 0)).filter
      (fun m => ((s.migSlots.filter (fun m => m.2.2.2 ≠ 0)).filter (fun m => p m.2.2.1)).any (fun h => h.2.2.1.sameBatch m.2.2.1)) = [o] := by
    rw [hhit]
    simpa only [List.any_cons, List.any_nil, Bool.or_false] using hout
  unfold State.endMigrations
  dsimp only
  rw [hall]
  simp only [List.isEmpty_cons, Bool.false_eq_true, if_false, List.foldl_cons, List.foldl_nil, List.map_cons, List.map_nil,
    List.eraseDups_cons, List.filter_nil, List.eraseDups_nil]
  refine ⟨_, ?_, rfl⟩
  rfl

/-- Counting a context's revokes again writes registers of the translation block alone. -/
theorem State.keepsAt_rvkStat (s : State) {c : Nat} (hc : c < 4096) : s.keepsAt (fun a => ¬xltAt a) (s.rvkStat c) := by
  have hstat : ¬¬xltAt (RegName.XLT_RVK_STAT.addr 0 0 0) := not_not_intro (by unfold xltAt; decide)
  rw [State.rvkStat_eq]
  exact ((s.keepsAt_setFld _ hstat).trans (State.keepsAt_setFld _ _ hstat)).trans (State.keepsAt_setFld _ _ (not_not_intro (ctxGen_low hc)))

/-! ### The stray slot -/

/-- The slot of stack 0 whose register would be the `STK_STAT` of stack 1. -/
def straySlot : Nat := 32747

theorem straySlot_addr : RegName.STK_MIG_STAT.addr 0 straySlot 0 = RegName.STK_STAT.addr 1 0 0 := by decide

/-- STATE of the stray slot is the low half of the STATE of stack 1. -/
theorem State.straySlot_state (s : State) : s.fld F.STK_MIG_STAT_STATE 0 straySlot = s.stkState 1 % 4 := by
  have hreg : s.regVal .STK_MIG_STAT 0 straySlot = s.regVal .STK_STAT 1 := by
    unfold State.regVal
    rw [straySlot_addr]
    rfl
  show bits (s.regVal .STK_MIG_STAT 0 straySlot) 0 2 = bits (s.regVal .STK_STAT 1) 0 4 % 4
  rw [hreg]
  unfold bits
  omega

/-- A migration from a page of stack 1, alone in its batch. -/
def strayMigration : MigSlot := { batch := 1, src := frameKey 1 0 }

/-- Stack 0 with empty slots up to the stray one. -/
def strayStack : Stk := { mig := List.replicate straySlot {} ++ [strayMigration] }

/-- Stack 1 trains, missing as yet; a stray slot of stack 0 copies from it. -/
def strayState : State := ({ stks := [(0, strayStack), (1, { missing := true })] } : State).setFld F.STK_STAT_STATE 1 1

/-- Empty slots fail a test that fails for the empty slot. -/
theorem filter_emptySlots {f : MigSlot × Nat → Nat × Nat × MigSlot × Nat} {q : Nat × Nat × MigSlot × Nat → Bool} (hq : ∀ k, q (f ({}, k)) = false)
    (n i : Nat) : (((List.replicate n ({} : MigSlot)).zipIdx i).map f).filter q = [] := by
  rw [List.filter_eq_nil_iff]
  intro m hm
  obtain ⟨⟨y, k⟩, hy, rfl⟩ := List.mem_map.mp hm
  have hfree : y = {} := List.eq_of_mem_replicate (List.fst_mem_of_mem_zipIdx hy)
  rw [hfree, hq]
  exact Bool.false_ne_true

/-- Among the open slots of these stacks, a test that the empty slot fails and the stray migration meets finds the stray one alone. -/
theorem State.openSlots_stray {s : State} (hs : s.stks = strayState.stks) (hopen : s.fld F.STK_MIG_STAT_STATE 0 straySlot ≠ 0) {p : MigSlot → Bool}
    (hfree : p {} = false) (hstray : p strayMigration = true) : (s.migSlots.filter (fun m => m.2.2.2 ≠ 0)).filter (fun m => p m.2.2.1) =
      [(0, straySlot, strayMigration, s.fld F.STK_MIG_STAT_STATE 0 straySlot)] := by
  have hlist : s.stks = [(0, strayStack), (1, { missing := true })] := hs
  have hq (v : Nat) : (p {} && decide (v ≠ 0)) = false := by rw [hfree, Bool.false_and]
  unfold State.migSlots
  rw [List.filter_filter, hlist, List.flatMap_cons, List.flatMap_cons, List.flatMap_nil, List.append_nil, List.filter_append]
  rw [show ({ missing := true } : Stk).mig = List.replicate 4 {} from rfl, filter_emptySlots (fun k => hq _), List.append_nil]
  rw [show strayStack.mig = List.replicate straySlot {} ++ [strayMigration] from rfl, List.zipIdx_append, List.map_append, List.filter_append,
    filter_emptySlots (fun k => hq _), List.nil_append, List.length_replicate, Nat.zero_add]
  exact List.filter_cons_of_pos (by rw [hstray, Bool.true_and]; exact decide_eq_true hopen)

/-- The end of the migrations of stack 1 clears two bits of its STATE. -/
theorem State.endMigrations_stray {s : State} (hs : s.stks = strayState.stks) (h7 : s.stkState 1 = 7) :
    (s.endMigrations (MigSlot.touches 1) .poison).stkState 1 % 4 = 0 := by
  have hopen : s.fld F.STK_MIG_STAT_STATE 0 straySlot ≠ 0 := by rw [s.straySlot_state, h7]; decide
  obtain ⟨t, hregs, he⟩ := State.endMigrations_single (p := MigSlot.touches 1) (o := (0, straySlot, strayMigration, _)) .poison
    (s.openSlots_stray hs hopen (by decide) (by decide)) (s.openSlots_stray hs hopen (p := strayMigration.sameBatch) (by decide) (by decide))
  have hkeep : (t.rvkStat strayMigration.ctx).stkState 1 = t.stkState 1 := (t.keepsAt_rvkStat (by decide)).fld (by unfold xltAt; decide)
  rw [he, hkeep, ← t.straySlot_state, State.fld_congr hregs]
  exact s.freeSlot_state 0 straySlot .poison

/-- A training that finds no die of its stack. -/
def wrongTraining : StackTrain :=
  { answers := true, dies := 0, gib := 0, temp := 0, initOk := true, failed := 0, lanesRep := 0, margin := 0, timings := none }

theorem strayState_trained : ((strayState.trainedWrong 1 wrongTraining).setStkState 1 7).stkState 1 % 4 = 0 := by
  obtain ⟨u, hstks, h7, hu⟩ := State.setStkState_failed (s := strayState.trainedWrong 1 wrongTraining) (x := 1) rfl
  rw [hu]
  exact u.endMigrations_stray hstks h7

/-! ### The statement -/

/-- Refutes O52, at its clause on the end of training: a stack that answers wrongly is to show STATE 7, and from `strayState` its two low bits end clear.
The statement leaves the length of the slot list open; its other clauses are not used. -/
theorem not_stackControllersServeRefreshTrainAndMove : ¬ Obligations.StackControllersServeRefreshTrainAndMove := by
  unfold Obligations.StackControllersServeRefreshTrainAndMove
  rintro ⟨-, -, -, -, -, -, training, -⟩
  have htrains : strayState.stkState 1 = 1 := State.fld_setFld_same _ _ _ _ _ _ (by decide)
  obtain ⟨-, -, wrong, -⟩ := training 1 wrongTraining strayState
  obtain ⟨t, ht, h7, -⟩ := wrong htrains rfl (fun h => absurd h.1 (by decide))
  have hend : (strayState.trainedWrong 1 wrongTraining).setStkState 1 7 = t :=
    Host.Outcome.next.inj ((execStackTrainingEnd_wrong (x := 1) (r := wrongTraining) htrains rfl (.inl (by decide))).symm.trans ht)
  have hstate : t.stkState 1 = 7 := h7
  have hlow : t.stkState 1 % 4 = 0 := hend ▸ strayState_trained
  omega

end Sys2Proof.Machine
end

section
/-!
Where the statement about stored-data protection fails: at its clause on the self-test, for the reason the statement about the stack controllers fails.
A controller that finds a failing test fails its stack, the slots that copy from the stack are freed, and freeing the stray slot of `strayStack` clears
part of the STATE that has just been set to 7.
-/
namespace Sys2Proof.Machine
open Sys2Proof

/-! ### A self-test that fails -/

/-- The result of a self-test is stored: DONE, and the first failing test. -/
def State.testStored (s : State) (x first : Nat) : State := (s.setFld F.STK_SELFTEST_DONE 1 x).setFld F.STK_SELFTEST_FIRST first x

/-- A controller that ends its self-test with a failing test at start-up step 5 fails its stack and raises event CLASS 0x15 (R171). -/
theorem execCheckerSelfTestEnd_failing {s : State} {x : Stack} {first : Fin 9} (hd : s.flag F.STK_SELFTEST_DONE x.val = false)
    (h5 : s.fld F.GLB_STAT_STEP = 5) (hq : s.quarterDown (stackQuarter x.val) = false) (hf : first.val ≠ 0) :
    exec (.checkerSelfTestEnd x first) s =
      .next (((s.testStored x.val first.val).setStkState x.val 7).event (srcStack x.val) 0x15 [first.val]) := by
  have hruns : ¬(s.flag F.STK_SELFTEST_DONE x.val = true ∨ s.fld F.GLB_STAT_STEP ≠ 5 ∨ s.quarterDown (stackQuarter x.val) = true) := by
    rw [hd, hq]
    exact not_or.mpr ⟨Bool.false_ne_true, not_or.mpr ⟨not_not_intro h5, Bool.false_ne_true⟩⟩
  exact congrArg Host.Outcome.next ((if_neg hruns).trans (if_neg hf))

/-- Raising an event leaves the STATE of the stacks. -/
theorem State.stkState_event (s : State) {x : Nat} (hx : x < 16) (src cls : Nat) (payload : List Nat) :
    (s.event src cls payload).stkState x = s.stkState x :=
  (s.calm_event_stk src cls payload).regs.fld ⟨x, hx, rfl⟩

/-! ### The stack with the stray slot -/

/-- Start-up stands at step 5, stack 1 has not tested itself, and a stray slot of stack 0 copies from it. -/
def strayTestState : State := strayState.setFld F.GLB_STAT_STEP 5

theorem strayTestState_tests : strayTestState.flag F.STK_SELFTEST_DONE 1 = false ∧ strayTestState.fld F.GLB_STAT_STEP = 5 ∧
    strayTestState.quarterDown (stackQuarter 1) = false := by
  and_intros <;> decide

/-- The failing self-test of stack 1 leaves a STATE whose two low bits are clear. -/
theorem strayTestState_failing (first : Nat) : ((strayTestState.testStored 1 first).setStkState 1 7).stkState 1 % 4 = 0 := by
  obtain ⟨u, hstks, h7, hu⟩ := State.setStkState_failed (s := strayTestState.testStored 1 first) (x := 1) rfl
  rw [hu]
  exact u.endMigrations_stray hstks h7

/-! ### The statement -/

/-- Refutes O53, at its clause on the self-test: a stack whose test fails is to show STATE 7, and from `strayTestState` its two low bits end clear. The
statement leaves the length of the slot list open (Table 5-8 gives a controller four slots); its other clauses are not used. -/
theorem not_protectionRebuildsScrubsAndFills : ¬ Obligations.ProtectionRebuildsScrubsAndFills := by
  rintro ⟨-, -, -, -, -, -, -, startUp⟩
  obtain ⟨hdone, hstep, hup⟩ := strayTestState_tests
  obtain ⟨-, tested, -⟩ := startUp 1 1 strayTestState
  obtain ⟨t, ht, -, -, -, failing⟩ := tested ⟨hdone, hstep, hup⟩
  obtain ⟨h7, -⟩ := failing (by decide)
  have hend : ((strayTestState.testStored 1 1).setStkState 1 7).event (srcStack 1) 0x15 [1] = t :=
    Host.Outcome.next.inj ((execCheckerSelfTestEnd_failing (x := 1) (first := 1) hdone hstep hup (by decide)).symm.trans ht)
  have hstate : t.stkState 1 = ((strayTestState.testStored 1 1).setStkState 1 7).stkState 1 := by
    rw [← hend]
    exact State.stkState_event _ (by decide) _ _ _
  have hlow := strayTestState_failing 1
  have hseven : t.stkState 1 = 7 := h7
  omega

end Sys2Proof.Machine
end
